-- ==== Sys2Proof/Word.lean ====
section
/-! DEFINITION. The words of the machine (00_scope R4) and their plainest forms. -/

namespace Sys2Proof

/-- A doubleword: 64 bits (R4). -/
abbrev Word := BitVec 64

/-- A vector: 256 bits (R4, 06_vector R157). -/
abbrev Vec := BitVec 256

/-- A byte. -/
abbrev Byte := BitVec 8

/-- The all-ones doubleword. -/
abbrev ones : Word := 0xFFFFFFFFFFFFFFFF#64

end Sys2Proof
end

