-- ==== Sys2Proof/Syntax.lean ====
section
/-! DEFINITION. The one inductive of instructions and device steps: one constructor for each row of the opcode table (02_encoding R46-R50; 95_what_each_step_holds).
An encoded instruction carries its encoding's fields (R42-R44); a device step carries what names it: a core, a slot, the number of a packet in flight, a command, or the word written. -/

namespace Sys2Proof

/-- A 5-bit register field (02_encoding R40): 0-15 private, 16-31 shared. -/
abbrev Reg := BitVec 5

/-- A 4-bit register field of the compact form (R41). -/
abbrev KReg := BitVec 4

/-- One constructor per row of the opcode table. -/
inductive Instr where
  /-- ADD (R108): Writes the 64-bit wrapping sum a + b to d. -/
  | add (d : BitVec 5) (a : BitVec 5) (b : BitVec 5)
  /-- SUB (R108): Writes the 64-bit wrapping difference a - b to d. -/
  | sub (d : BitVec 5) (a : BitVec 5) (b : BitVec 5)
  /-- AND (R108): Writes a AND b to d. -/
  | and (d : BitVec 5) (a : BitVec 5) (b : BitVec 5)
  /-- OR (R108): Writes a OR b to d. -/
  | or (d : BitVec 5) (a : BitVec 5) (b : BitVec 5)
  /-- XOR (R108): Writes a XOR b to d. -/
  | xor (d : BitVec 5) (a : BitVec 5) (b : BitVec 5)
  /-- ANDN (R108): Writes a AND NOT b to d. -/
  | andn (d : BitVec 5) (a : BitVec 5) (b : BitVec 5)
  /-- SLL (R108): Shifts a left logically by b modulo 64. -/
  | sll (d : BitVec 5) (a : BitVec 5) (b : BitVec 5)
  /-- SRL (R108): Shifts a right logically by b modulo 64. -/
  | srl (d : BitVec 5) (a : BitVec 5) (b : BitVec 5)
  /-- SRA (R108): Shifts a right arithmetically by b modulo 64. -/
  | sra (d : BitVec 5) (a : BitVec 5) (b : BitVec 5)
  /-- ROL (R108): Rotates a left by b modulo 64. -/
  | rol (d : BitVec 5) (a : BitVec 5) (b : BitVec 5)
  /-- MUL (R109): Writes the low 64 bits of the product of a and b. -/
  | mul (d : BitVec 5) (a : BitVec 5) (b : BitVec 5)
  /-- MULH (R109): Writes the high 64 bits of the signed 128-bit product. -/
  | mulh (d : BitVec 5) (a : BitVec 5) (b : BitVec 5)
  /-- MULHU (R109): Writes the high 64 bits of the unsigned 128-bit product. -/
  | mulhu (d : BitVec 5) (a : BitVec 5) (b : BitVec 5)
  /-- DIV (R110): Starts a signed division in the divider, truncating toward zero. -/
  | div (d : BitVec 5) (a : BitVec 5) (b : BitVec 5)
  /-- DIVU (R110): Starts an unsigned division in the divider. -/
  | divu (d : BitVec 5) (a : BitVec 5) (b : BitVec 5)
  /-- REM (R110): Starts a signed remainder in the divider. -/
  | rem (d : BitVec 5) (a : BitVec 5) (b : BitVec 5)
  /-- REMU (R110): Starts an unsigned remainder in the divider. -/
  | remu (d : BitVec 5) (a : BitVec 5) (b : BitVec 5)
  /-- SLT (R108): Writes 1 when a is less than b, signed, and 0 otherwise. -/
  | slt (d : BitVec 5) (a : BitVec 5) (b : BitVec 5)
  /-- SLTU (R108): Writes 1 when a is less than b, unsigned, and 0 otherwise. -/
  | sltu (d : BitVec 5) (a : BitVec 5) (b : BitVec 5)
  /-- MIN (R108): Writes the signed minimum of a and b. -/
  | min (d : BitVec 5) (a : BitVec 5) (b : BitVec 5)
  /-- MAX (R108): Writes the signed maximum of a and b. -/
  | max (d : BitVec 5) (a : BitVec 5) (b : BitVec 5)
  /-- MINU (R108): Writes the unsigned minimum of a and b. -/
  | minu (d : BitVec 5) (a : BitVec 5) (b : BitVec 5)
  /-- MAXU (R108): Writes the unsigned maximum of a and b. -/
  | maxu (d : BitVec 5) (a : BitVec 5) (b : BitVec 5)
  /-- ADDW (R111): Adds on 32 bits and sign-extends the result. -/
  | addw (d : BitVec 5) (a : BitVec 5) (b : BitVec 5)
  /-- SUBW (R111): Subtracts on 32 bits and sign-extends the result. -/
  | subw (d : BitVec 5) (a : BitVec 5) (b : BitVec 5)
  /-- CLZ (R113): Counts the leading zero bits of a. -/
  | clz (d : BitVec 5) (a : BitVec 5)
  /-- CTZ (R113): Counts the trailing zero bits of a. -/
  | ctz (d : BitVec 5) (a : BitVec 5)
  /-- POPC (R113): Counts the one bits of a. -/
  | popc (d : BitVec 5) (a : BitVec 5)
  /-- BREV (R113): Reverses the bit order of a. -/
  | brev (d : BitVec 5) (a : BitVec 5)
  /-- BSWAP (R113): Reverses the byte order of a. -/
  | bswap (d : BitVec 5) (a : BitVec 5)
  /-- SEXTB (R113): Sign-extends the low byte of a. -/
  | sextb (d : BitVec 5) (a : BitVec 5)
  /-- SEXTH (R113): Sign-extends the low half of a. -/
  | sexth (d : BitVec 5) (a : BitVec 5)
  /-- SEXTW (R113): Sign-extends the low word of a. -/
  | sextw (d : BitVec 5) (a : BitVec 5)
  /-- ZEXTW (R113): Zero-extends the low word of a. -/
  | zextw (d : BitVec 5) (a : BitVec 5)
  /-- SELZ (R114): Writes a to d when b is zero and rewrites the old d otherwise. -/
  | selz (d : BitVec 5) (a : BitVec 5) (b : BitVec 5)
  /-- SELNZ (R114): Writes a to d when b is non-zero and rewrites the old d otherwise. -/
  | selnz (d : BitVec 5) (a : BitVec 5) (b : BitVec 5)
  /-- EXTV (R119): Extracts an unsigned field of a whose offset and width come from b. -/
  | extv (d : BitVec 5) (a : BitVec 5) (b : BitVec 5)
  /-- INSV (R119): Inserts the low bits of a into a field of d whose offset and width come from b. -/
  | insv (d : BitVec 5) (a : BitVec 5) (b : BitVec 5)
  /-- ADDS (R112): Writes the signed sum of a and b, saturated to 64 bits. -/
  | adds (d : BitVec 5) (a : BitVec 5) (b : BitVec 5)
  /-- SUBS (R112): Writes the signed difference of a and b, saturated to 64 bits. -/
  | subs (d : BitVec 5) (a : BitVec 5) (b : BitVec 5)
  /-- ADDI (R115): Adds the sign-extended 14-bit immediate to a. -/
  | addi (d : BitVec 5) (a : BitVec 5) (i : BitVec 14)
  /-- ANDI (R115): ANDs a with the sign-extended immediate. -/
  | andi (d : BitVec 5) (a : BitVec 5) (i : BitVec 14)
  /-- ORI (R115): ORs a with the sign-extended immediate. -/
  | ori (d : BitVec 5) (a : BitVec 5) (i : BitVec 14)
  /-- XORI (R115): XORs a with the sign-extended immediate. -/
  | xori (d : BitVec 5) (a : BitVec 5) (i : BitVec 14)
  /-- SLTI (R115): Writes 1 when a is less than the immediate, signed, and 0 otherwise. -/
  | slti (d : BitVec 5) (a : BitVec 5) (i : BitVec 14)
  /-- SLTIU (R115): Writes 1 when a is less than the sign-extended immediate, unsigned, and 0 otherwise. -/
  | sltiu (d : BitVec 5) (a : BitVec 5) (i : BitVec 14)
  /-- SLLI (R116): Shifts a left logically by a 6-bit amount. -/
  | slli (d : BitVec 5) (a : BitVec 5) (n : BitVec 6)
  /-- SRLI (R116): Shifts a right logically by a 6-bit amount. -/
  | srli (d : BitVec 5) (a : BitVec 5) (n : BitVec 6)
  /-- SRAI (R116): Shifts a right arithmetically by a 6-bit amount. -/
  | srai (d : BitVec 5) (a : BitVec 5) (n : BitVec 6)
  /-- ROLI (R116): Rotates a left by a 6-bit amount. -/
  | roli (d : BitVec 5) (a : BitVec 5) (n : BitVec 6)
  /-- EXTU (R117): Extracts an unsigned bit field of a at an immediate offset and width. -/
  | extu (d : BitVec 5) (a : BitVec 5) (o : BitVec 6) (w : BitVec 6)
  /-- EXTS (R117): Extracts a sign-extended bit field of a at an immediate offset and width. -/
  | exts (d : BitVec 5) (a : BitVec 5) (o : BitVec 6) (w : BitVec 6)
  /-- INS (R117): Inserts the low bits of a into a field of d at an immediate offset and width. -/
  | ins (d : BitVec 5) (a : BitVec 5) (o : BitVec 6) (w : BitVec 6)
  /-- LI (R120): Writes the sign-extended 19-bit immediate to d. -/
  | li (d : BitVec 5) (i : BitVec 19)
  /-- LISH (R121): Shifts d left by 16 bits and ORs in a 16-bit immediate. -/
  | lish (d : BitVec 5) (i : BitVec 16)
  /-- ADDPC (R122): Writes the segmented address of a pc-relative target to d. -/
  | addpc (d : BitVec 5) (i : BitVec 19)
  /-- BEQ (R83): Branches when a equals b. -/
  | beq (a : BitVec 5) (b : BitVec 5) (o : BitVec 14)
  /-- BNE (R83): Branches when a differs from b. -/
  | bne (a : BitVec 5) (b : BitVec 5) (o : BitVec 14)
  /-- BLT (R83): Branches when a is less than b, signed. -/
  | blt (a : BitVec 5) (b : BitVec 5) (o : BitVec 14)
  /-- BGE (R83): Branches when a is at least b, signed. -/
  | bge (a : BitVec 5) (b : BitVec 5) (o : BitVec 14)
  /-- BLTU (R83): Branches when a is less than b, unsigned. -/
  | bltu (a : BitVec 5) (b : BitVec 5) (o : BitVec 14)
  /-- BGEU (R83): Branches when a is at least b, unsigned. -/
  | bgeu (a : BitVec 5) (b : BitVec 5) (o : BitVec 14)
  /-- JAL (R84): Jumps pc-relatively and writes the link to d. -/
  | jal (d : BitVec 5) (i : BitVec 19)
  /-- JALR (R85): Jumps to a + immediate, segment included, and writes the link to d. -/
  | jalr (d : BitVec 5) (a : BitVec 5) (i : BitVec 14)
  /-- FORK (R87): Claims a free slot and starts a child strand at entry pc a with argument b. -/
  | fork (d : BitVec 5) (a : BitVec 5) (b : BitVec 5)
  /-- HALT (R88): Ends the context in its slot at WB. -/
  | halt
  /-- HALTK (R91): Ends the context as HALT does and records a bank retention entry. -/
  | haltk (a : BitVec 5) (b : BitVec 5)
  /-- YIELD (R92): Makes the thread ineligible for extra cycles beyond the spacing rule. -/
  | yield (a : BitVec 5)
  /-- WAKE (R93): Sends a posted wake message to a thread named by its virtual identifier. -/
  | wake (a : BitVec 5)
  /-- BSIG (R98): Marks a block head for the signature checker and advances pc. -/
  | bsig (s : BitVec 24)
  /-- LDB (R193): Loads a sign-extended byte. -/
  | ldb (d : BitVec 5) (a : BitVec 5) (i : BitVec 14)
  /-- LDBU (R193): Loads a zero-extended byte. -/
  | ldbu (d : BitVec 5) (a : BitVec 5) (i : BitVec 14)
  /-- LDH (R193): Loads a sign-extended half. -/
  | ldh (d : BitVec 5) (a : BitVec 5) (i : BitVec 14)
  /-- LDHU (R193): Loads a zero-extended half. -/
  | ldhu (d : BitVec 5) (a : BitVec 5) (i : BitVec 14)
  /-- LDW (R193): Loads a sign-extended word. -/
  | ldw (d : BitVec 5) (a : BitVec 5) (i : BitVec 14)
  /-- LDWU (R193): Loads a zero-extended word. -/
  | ldwu (d : BitVec 5) (a : BitVec 5) (i : BitVec 14)
  /-- LDD (R193): Loads a doubleword. -/
  | ldd (d : BitVec 5) (a : BitVec 5) (i : BitVec 14)
  /-- STB (R193): Stores the low byte of d, posted when remote. -/
  | stb (d : BitVec 5) (a : BitVec 5) (i : BitVec 14)
  /-- STH (R193): Stores the low half of d, posted when remote. -/
  | sth (d : BitVec 5) (a : BitVec 5) (i : BitVec 14)
  /-- STW (R193): Stores the low word of d, posted when remote. -/
  | stw (d : BitVec 5) (a : BitVec 5) (i : BitVec 14)
  /-- STD (R193): Stores the doubleword d, posted when remote. -/
  | std (d : BitVec 5) (a : BitVec 5) (i : BitVec 14)
  /-- LDACQ (R195): Loads 1 to 8 bytes zero-extended and sets the thread's acquire point. -/
  | ldacq (d : BitVec 5) (a : BitVec 5) (z : BitVec 2)
  /-- STREL (R196): Waits until the posted table is empty, then stores 1 to 8 bytes. -/
  | strel (d : BitVec 5) (a : BitVec 5) (z : BitVec 2)
  /-- FENCE (R197): Blocks until every posted entry whose home lies in the scope has been freed. -/
  | fence (s : BitVec 5)
  /-- FENCE_I (R199): Blocks until every range-scoreboard entry active at EX has retired. -/
  | fenceI
  /-- SEND (R217): Sends a payload from the own scratchpad to a mailbox of a target core and waits for the status. -/
  | send (d : BitVec 5) (a : BitVec 5) (b : BitVec 5)
  /-- ACTM (R231): Waits for release within scope S, sends an active-message record to a target core and waits for the status. -/
  | actm (d : BitVec 5) (a : BitVec 5) (b : BitVec 5)
  /-- MBPOP (R229): Removes the record at HEAD of a mailbox, optionally copying its payload, and writes its handle. -/
  | mbpop (d : BitVec 5) (a : BitVec 5) (b : BitVec 5)
  /-- MBPEEK (R228): Writes the handle of the record at HEAD of a mailbox without removing it. -/
  | mbpeek (d : BitVec 5) (a : BitVec 5)
  /-- MBWAIT (R230): Waits, up to an optional timeout, until a mailbox holds a record and writes its handle. -/
  | mbwait (d : BitVec 5) (a : BitVec 5) (b : BitVec 5)
  /-- CHLD (R235): Launches a chained load of up to six dependent steps and waits for the result. -/
  | chld (d : BitVec 5) (a : BitVec 5) (b : BitVec 5)
  /-- CHLDV (R240): Launches a chained load whose last step returns 32 bytes into a vector register. -/
  | chldv (d : BitVec 5) (a : BitVec 5) (b : BitVec 5)
  /-- AMOADD (R248): Atomically adds b to a word or doubleword at its home. -/
  | amoadd (d : BitVec 5) (a : BitVec 5) (b : BitVec 5) (s : BitVec 1)
  /-- AMOAND (R248): Atomically ANDs b into a location at its home. -/
  | amoand (d : BitVec 5) (a : BitVec 5) (b : BitVec 5) (s : BitVec 1)
  /-- AMOOR (R248): Atomically ORs b into a location at its home. -/
  | amoor (d : BitVec 5) (a : BitVec 5) (b : BitVec 5) (s : BitVec 1)
  /-- AMOXOR (R248): Atomically XORs b into a location at its home. -/
  | amoxor (d : BitVec 5) (a : BitVec 5) (b : BitVec 5) (s : BitVec 1)
  /-- AMOMIN (R248): Atomically keeps the signed minimum of the location and b. -/
  | amomin (d : BitVec 5) (a : BitVec 5) (b : BitVec 5) (s : BitVec 1)
  /-- AMOMAX (R248): Atomically keeps the signed maximum of the location and b. -/
  | amomax (d : BitVec 5) (a : BitVec 5) (b : BitVec 5) (s : BitVec 1)
  /-- AMOMINU (R248): Atomically keeps the unsigned minimum of the location and b. -/
  | amominu (d : BitVec 5) (a : BitVec 5) (b : BitVec 5) (s : BitVec 1)
  /-- AMOMAXU (R248): Atomically keeps the unsigned maximum of the location and b. -/
  | amomaxu (d : BitVec 5) (a : BitVec 5) (b : BitVec 5) (s : BitVec 1)
  /-- AMOSWAP (R248): Atomically replaces the location with b. -/
  | amoswap (d : BitVec 5) (a : BitVec 5) (b : BitVec 5) (s : BitVec 1)
  /-- AMOCAS (R248): Atomically replaces the location with b when it equals the old d. -/
  | amocas (d : BitVec 5) (a : BitVec 5) (b : BitVec 5) (s : BitVec 1)
  /-- AMOFADD (R249): Atomically adds b in FP32 or FP64 with RNE at the home. -/
  | amofadd (d : BitVec 5) (a : BitVec 5) (b : BitVec 5) (s : BitVec 1)
  /-- LOGAPP (R254): Appends a merge record for a target to its home core's drip log and advances LOGSEQ. -/
  | logapp (o : BitVec 5) (a : BitVec 5) (b : BitVec 5)
  /-- LOGSEAL (R257): Sorts the own core's drip log and applies its records in key order. -/
  | logseal (d : BitVec 5)
  /-- BARSET (R261): Sets a cluster barrier object's members, clears its arrivals and releases its waiters. -/
  | barset (d : BitVec 5) (a : BitVec 5) (b : BitVec 5)
  /-- BARJ (R261): Waits for the posted table to empty, then arrives at a cluster barrier object. -/
  | barj (d : BitVec 5) (a : BitVec 5)
  /-- BARW (R261): Waits until a barrier object's phase differs from b and acquires. -/
  | barw (d : BitVec 5) (a : BitVec 5) (b : BitVec 5)
  /-- BARQ (R261): Reads a barrier object's state word. -/
  | barq (d : BitVec 5) (a : BitVec 5)
  /-- TLADD (R264): Releases and adds b to a timeline at its home. -/
  | tladd (d : BitVec 5) (a : BitVec 5) (b : BitVec 5)
  /-- TLSET (R264): Releases and sets a timeline to b at its home. -/
  | tlset (d : BitVec 5) (a : BitVec 5) (b : BitVec 5)
  /-- TLRD (R264): Reads a timeline and acquires. -/
  | tlrd (d : BitVec 5) (a : BitVec 5)
  /-- TLWAIT (R264): Waits at the home until a timeline has reached b and acquires. -/
  | tlwait (d : BitVec 5) (a : BitVec 5) (b : BitVec 5)
  /-- TKT (R264): Takes a ticket by incrementing NEXT of a ticket semaphore. -/
  | tkt (d : BitVec 5) (a : BitVec 5)
  /-- TKWAIT (R264): Waits at the home until SERVING has reached b and acquires. -/
  | tkwait (d : BitVec 5) (a : BitVec 5) (b : BitVec 5)
  /-- TKDONE (R264): Releases and increments SERVING of a ticket semaphore. -/
  | tkdone (d : BitVec 5) (a : BitVec 5)
  /-- CLINIT (R351): Initialises or re-arms a codelet's dependence counter at its home. -/
  | clinit (d : BitVec 5) (a : BitVec 5) (b : BitVec 5)
  /-- CLDEC (R351): Releases and decrements a codelet's counter, pushing it when it reaches zero while armed. -/
  | cldec (d : BitVec 5) (a : BitVec 5)
  /-- CLPUSH (R351): Releases, sets a codelet's counter to zero and pushes it. -/
  | clpush (d : BitVec 5) (a : BitVec 5)
  /-- CLEND (R354): Ends a codelet, releases its keys and re-arms or completes its descriptor. -/
  | clend (b : BitVec 5)
  /-- QPUSH (R367): Releases and appends a 63-bit entry to a partition queue in the carafe. -/
  | qpush (d : BitVec 5) (a : BitVec 5) (b : BitVec 5)
  /-- QPOP (R368): Takes the oldest entry of a partition queue, or an empty or closed word. -/
  | qpop (d : BitVec 5) (a : BitVec 5)
  /-- QPOPW (R368): Takes the oldest queue entry, waiting at the carafe with an optional timeout when empty. -/
  | qpopw (d : BitVec 5) (a : BitVec 5) (b : BitVec 5)
  /-- CHNK (R369): Initialises a chunk counter or takes its next chunk. -/
  | chnk (d : BitVec 5) (a : BitVec 5) (b : BitVec 5)
  /-- CPY (R319): Issues a one-row copy command to the cluster copy engine and returns a handle. -/
  | cpy (d : BitVec 5) (a : BitVec 5)
  /-- CPYG (R317): Issues a strided multi-row copy command and returns a handle. -/
  | cpyg (d : BitVec 5) (a : BitVec 5)
  /-- CPYS (R317): Issues a scatter-gather copy of up to 24 rows and returns a handle. -/
  | cpys (d : BitVec 5) (a : BitVec 5)
  /-- PUBLISH (R326): Formats a shadow buffer or flips its front backing at the header's home. -/
  | publish (d : BitVec 5) (a : BitVec 5) (b : BitVec 5)
  /-- HTST (R330): Tests a handle, token or status without blocking. -/
  | htst (d : BitVec 5) (a : BitVec 5)
  /-- HWAIT (R330): Waits for a token's command to complete and writes its status. -/
  | hwait (d : BitVec 5) (a : BitVec 5)
  /-- HDET (R330): Detaches a pending handle register into a token. -/
  | hdet (d : BitVec 5) (a : BitVec 5)
  /-- HCAN (R332): Cancels the command of a handle or token. -/
  | hcan (d : BitVec 5) (a : BitVec 5)
  /-- MCRD (R336): On a memory core, reads 8 bytes of its own HBM4E channel in place. -/
  | mcrd (d : BitVec 5) (a : BitVec 5)
  /-- MCWR (R337): On a memory core's firmware slot, writes 8 bytes of its own channel. -/
  | mcwr (d : BitVec 5) (a : BitVec 5)
  /-- PUSHT (R339): On a memory core, multicasts scratchpad bytes to a rectangle of compute cores. -/
  | pusht (d : BitVec 5) (a : BitVec 5)
  /-- MMA (R299): Queues a 32×32 tile multiply-accumulate on the press and returns a handle in b. -/
  | mma (f : BitVec 3) (n : BitVec 2) (a : BitVec 5) (b : BitVec 5)
  /-- MMAG (R299): Queues a group tile multiply-accumulate whose tile addresses and edges come from GEOM. -/
  | mmag (f : BitVec 3) (n : BitVec 2) (a : BitVec 5) (b : BitVec 5)
  /-- MXZERO (R300): Queues a press command that zeroes an accumulator tile. -/
  | mxzero (d : BitVec 5) (b : BitVec 5)
  /-- MXLDA (R301): Queues a press command that loads 4 KiB into an accumulator tile. -/
  | mxlda (d : BitVec 5) (a : BitVec 5) (b : BitVec 5)
  /-- MXST (R302): Binds to the current epilogue bank and queues a store of an accumulator tile through it. -/
  | mxst (d : BitVec 5) (a : BitVec 5) (b : BitVec 5)
  /-- MXEPI (R305): Loads an epilogue descriptor into the idle bank and makes it current. -/
  | mxepi (a : BitVec 5)
  /-- FITSET (R374): Writes the core's fitness register and returns the old value. -/
  | fitset (d : BitVec 5) (a : BitVec 5)
  /-- FITGET (R375): Reads the fitness of the own or a target core. -/
  | fitget (d : BitVec 5) (a : BitVec 5)
  /-- POPRANK (R379): Has the cupping unit sample and rank a population and write a pair table. -/
  | poprank (d : BitVec 5) (a : BitVec 5)
  /-- BLEND (R383): Issues a copy-and-mutate command over a pair table within the package. -/
  | blend (d : BitVec 5) (a : BitVec 5)
  /-- BLENDX (R388): Issues a copy-and-mutate command whose children lie in another package of the group. -/
  | blendx (d : BitVec 5) (a : BitVec 5)
  /-- LINRD (R387): Copies up to 64 lineage records into the own scratchpad. -/
  | linrd (d : BitVec 5) (a : BitVec 5) (b : BitVec 5)
  /-- COLL (R391): Releases and sends the core's contribution to a collective and returns a handle. -/
  | coll (d : BitVec 5) (a : BitVec 5)
  /-- CABORT (R394): Advances a collective's attempt number and sends an abort token to the member set. -/
  | cabort (d : BitVec 5) (a : BitVec 5)
  /-- CATT (R395): Reads, and optionally advances locally, a collective's attempt number. -/
  | catt (d : BitVec 5) (a : BitVec 5) (b : BitVec 5)
  /-- FADD (R139): Adds two FP32 or FP64 values with one rounding. -/
  | fadd (d : BitVec 5) (a : BitVec 5) (b : BitVec 5) (p : BitVec 1)
  /-- FSUB (R139): Subtracts two floating-point values with one rounding. -/
  | fsub (d : BitVec 5) (a : BitVec 5) (b : BitVec 5) (p : BitVec 1)
  /-- FMUL (R139): Multiplies two floating-point values with one rounding. -/
  | fmul (d : BitVec 5) (a : BitVec 5) (b : BitVec 5) (p : BitVec 1)
  /-- FDIV (R139): Starts a floating-point division in the iterative unit. -/
  | fdiv (d : BitVec 5) (a : BitVec 5) (b : BitVec 5) (p : BitVec 1)
  /-- FSQRT (R139): Starts a floating-point square root in the iterative unit. -/
  | fsqrt (d : BitVec 5) (a : BitVec 5) (p : BitVec 1)
  /-- FMIN (R140): Returns the lesser of two floating-point values. -/
  | fmin (d : BitVec 5) (a : BitVec 5) (b : BitVec 5) (p : BitVec 1)
  /-- FMAX (R140): Returns the greater of two floating-point values. -/
  | fmax (d : BitVec 5) (a : BitVec 5) (b : BitVec 5) (p : BitVec 1)
  /-- FEQ (R141): Writes 1 when two floating-point values are equal. -/
  | feq (d : BitVec 5) (a : BitVec 5) (b : BitVec 5) (p : BitVec 1)
  /-- FLT (R141): Writes 1 when a is less than b in floating point. -/
  | flt (d : BitVec 5) (a : BitVec 5) (b : BitVec 5) (p : BitVec 1)
  /-- FLE (R141): Writes 1 when a is at most b in floating point. -/
  | fle (d : BitVec 5) (a : BitVec 5) (b : BitVec 5) (p : BitVec 1)
  /-- FCLASS (R142): Writes a class word describing a floating-point value. -/
  | fclass (d : BitVec 5) (a : BitVec 5) (p : BitVec 1)
  /-- FSGNJ (R143): Copies a with the sign bit of b. -/
  | fsgnj (d : BitVec 5) (a : BitVec 5) (b : BitVec 5) (p : BitVec 1)
  /-- FSGNJN (R143): Copies a with the inverted sign bit of b. -/
  | fsgnjn (d : BitVec 5) (a : BitVec 5) (b : BitVec 5) (p : BitVec 1)
  /-- FCVT_FI (R144): Converts a float to an integer of the given kind, saturating. -/
  | fcvtFi (d : BitVec 5) (a : BitVec 5) (k : BitVec 3) (p : BitVec 1)
  /-- FCVT_IF (R145): Converts an integer of the given kind to a float. -/
  | fcvtIf (d : BitVec 5) (a : BitVec 5) (k : BitVec 2) (p : BitVec 1)
  /-- FCVT_P (R146): Converts between FP32 and FP64. -/
  | fcvtP (d : BitVec 5) (a : BitVec 5) (p : BitVec 1)
  /-- FSIN (R147): Starts a sine in the iterative unit. -/
  | fsin (d : BitVec 5) (a : BitVec 5) (p : BitVec 1)
  /-- FCOS (R147): Starts a cosine in the iterative unit. -/
  | fcos (d : BitVec 5) (a : BitVec 5) (p : BitVec 1)
  /-- FEXP2 (R147): Starts a base-2 exponential in the iterative unit. -/
  | fexp2 (d : BitVec 5) (a : BitVec 5) (p : BitVec 1)
  /-- FLOG2 (R147): Starts a base-2 logarithm in the iterative unit. -/
  | flog2 (d : BitVec 5) (a : BitVec 5) (p : BitVec 1)
  /-- FMA (R149): Computes round(d + a × b) with one rounding. -/
  | fma (d : BitVec 5) (a : BitVec 5) (b : BitVec 5) (p : BitVec 1)
  /-- FMS (R149): Computes round(d - a × b) with one rounding. -/
  | fms (d : BitVec 5) (a : BitVec 5) (b : BitVec 5) (p : BitVec 1)
  /-- FNMA (R149): Computes round(-(d + a × b)) with one rounding. -/
  | fnma (d : BitVec 5) (a : BitVec 5) (b : BitVec 5) (p : BitVec 1)
  /-- MFC (R401): Reads the control register whose number is in a. -/
  | mfc (d : BitVec 5) (a : BitVec 5)
  /-- MTC (R401): Writes b to the control register whose number is in a, under its access codes. -/
  | mtc (a : BitVec 5) (b : BitVec 5)
  /-- TRAP (R402): Enters the partition's supervisor through segment 7 at TVEC. -/
  | trap (a : BitVec 5)
  /-- ERET (R403): Returns from the supervisor, restoring pc, segment 7 and the level. -/
  | eret
  /-- SEGLD (R404): Loads all sixteen segment registers of a slot of the core from a block. -/
  | segld (d : BitVec 5) (a : BitVec 5) (b : BitVec 5)
  /-- SEGST (R404): Stores all sixteen segment registers of a slot of the core to a block. -/
  | segst (d : BitVec 5) (a : BitVec 5) (b : BitVec 5)
  /-- BKPT (R405): Parks its thread with a breakpoint fault record. -/
  | bkpt
  /-- VADD (R161): Adds vector lanes. -/
  | vadd (d : BitVec 5) (a : BitVec 5) (b : BitVec 5) (t : BitVec 4)
  /-- VSUB (R161): Subtracts vector lanes. -/
  | vsub (d : BitVec 5) (a : BitVec 5) (b : BitVec 5) (t : BitVec 4)
  /-- VMUL (R161): Multiplies vector lanes. -/
  | vmul (d : BitVec 5) (a : BitVec 5) (b : BitVec 5) (t : BitVec 4)
  /-- VFMA (R162): Multiplies lanes of a and b and adds them into d. -/
  | vfma (d : BitVec 5) (a : BitVec 5) (b : BitVec 5) (t : BitVec 4)
  /-- VMIN (R161): Takes the lesser of each pair of lanes. -/
  | vmin (d : BitVec 5) (a : BitVec 5) (b : BitVec 5) (t : BitVec 4)
  /-- VMAX (R161): Takes the greater of each pair of lanes. -/
  | vmax (d : BitVec 5) (a : BitVec 5) (b : BitVec 5) (t : BitVec 4)
  /-- VABS (R161): Takes the magnitude of each lane. -/
  | vabs (d : BitVec 5) (a : BitVec 5) (t : BitVec 4)
  /-- VNEG (R161): Negates each lane. -/
  | vneg (d : BitVec 5) (a : BitVec 5) (t : BitVec 4)
  /-- VAND (R161): ANDs all 256 bits. -/
  | vand (d : BitVec 5) (a : BitVec 5) (b : BitVec 5) (t : BitVec 4)
  /-- VOR (R161): ORs all 256 bits. -/
  | vor (d : BitVec 5) (a : BitVec 5) (b : BitVec 5) (t : BitVec 4)
  /-- VXOR (R161): XORs all 256 bits. -/
  | vxor (d : BitVec 5) (a : BitVec 5) (b : BitVec 5) (t : BitVec 4)
  /-- VSHL (R163): Shifts integer lanes left, or applies an E8M0 scale to floating-point lanes. -/
  | vshl (d : BitVec 5) (a : BitVec 5) (b : BitVec 5) (t : BitVec 4)
  /-- VSHR (R161): Shifts integer lanes right logically. -/
  | vshr (d : BitVec 5) (a : BitVec 5) (b : BitVec 5) (t : BitVec 4)
  /-- VSRA (R161): Shifts integer lanes right arithmetically. -/
  | vsra (d : BitVec 5) (a : BitVec 5) (b : BitVec 5) (t : BitVec 4)
  /-- VADDS (R161): Adds integer lanes with saturation. -/
  | vadds (d : BitVec 5) (a : BitVec 5) (b : BitVec 5) (t : BitVec 4)
  /-- VSUBS (R161): Subtracts integer lanes with saturation. -/
  | vsubs (d : BitVec 5) (a : BitVec 5) (b : BitVec 5) (t : BitVec 4)
  /-- VMULH (R161): Writes the high half of each integer lane product. -/
  | vmulh (d : BitVec 5) (a : BitVec 5) (b : BitVec 5) (t : BitVec 4)
  /-- VDIV (R161): Starts a lane division in the vector iterative unit. -/
  | vdiv (d : BitVec 5) (a : BitVec 5) (b : BitVec 5) (t : BitVec 4)
  /-- VCMPEQ (R164): Writes an all-ones lane mask where lanes are equal. -/
  | vcmpeq (d : BitVec 5) (a : BitVec 5) (b : BitVec 5) (t : BitVec 4)
  /-- VCMPLT (R164): Writes an all-ones lane mask where a is less than b. -/
  | vcmplt (d : BitVec 5) (a : BitVec 5) (b : BitVec 5) (t : BitVec 4)
  /-- VCMPLE (R164): Writes an all-ones lane mask where a is at most b. -/
  | vcmple (d : BitVec 5) (a : BitVec 5) (b : BitVec 5) (t : BitVec 4)
  /-- VSEL (R165): Selects bits of a or b under the mask held in d. -/
  | vsel (d : BitVec 5) (a : BitVec 5) (b : BitVec 5) (t : BitVec 4)
  /-- VSHUF (R166): Permutes the lanes of a by the indices in b. -/
  | vshuf (d : BitVec 5) (a : BitVec 5) (b : BitVec 5) (t : BitVec 4)
  /-- VBCAST (R167): Broadcasts a scalar into every lane. -/
  | vbcast (d : BitVec 5) (a : BitVec 5) (t : BitVec 4)
  /-- VEXTR (R167): Extracts one lane to a scalar register. -/
  | vextr (d : BitVec 5) (a : BitVec 5) (b : BitVec 5) (t : BitVec 4)
  /-- VINS (R167): Inserts a scalar into one lane of d. -/
  | vins (d : BitVec 5) (a : BitVec 5) (b : BitVec 5) (t : BitVec 4)
  /-- VREDADD (R168): Reduces the lanes by addition in a fixed pairwise tree. -/
  | vredadd (d : BitVec 5) (a : BitVec 5) (t : BitVec 4)
  /-- VREDMAX (R168): Reduces the lanes to their maximum. -/
  | vredmax (d : BitVec 5) (a : BitVec 5) (t : BitVec 4)
  /-- VREDMIN (R168): Reduces the lanes to their minimum. -/
  | vredmin (d : BitVec 5) (a : BitVec 5) (t : BitVec 4)
  /-- VDOT (R169): Accumulates short dot products of lane groups into 32-bit lanes of d. -/
  | vdot (d : BitVec 5) (a : BitVec 5) (b : BitVec 5) (t : BitVec 4)
  /-- VMOV (R167): Copies a vector register. -/
  | vmov (d : BitVec 5) (a : BitVec 5) (t : BitVec 4)
  /-- VCVT (R170): Converts lanes from the source type to the destination type with the given rounding. -/
  | vcvt (d : BitVec 5) (a : BitVec 5) (t : BitVec 4) (s : BitVec 4) (n : BitVec 5)
  /-- VRCP (R173): Starts a lane reciprocal in the vector iterative unit. -/
  | vrcp (d : BitVec 5) (a : BitVec 5) (t : BitVec 4)
  /-- VRSQ (R173): Starts a lane reciprocal square root. -/
  | vrsq (d : BitVec 5) (a : BitVec 5) (t : BitVec 4)
  /-- VEXP2 (R173): Starts a lane base-2 exponential. -/
  | vexp2 (d : BitVec 5) (a : BitVec 5) (t : BitVec 4)
  /-- VLOG2 (R173): Starts a lane base-2 logarithm. -/
  | vlog2 (d : BitVec 5) (a : BitVec 5) (t : BitVec 4)
  /-- VSIN (R173): Starts a lane sine. -/
  | vsin (d : BitVec 5) (a : BitVec 5) (t : BitVec 4)
  /-- VCOS (R173): Starts a lane cosine. -/
  | vcos (d : BitVec 5) (a : BitVec 5) (t : BitVec 4)
  /-- VTANH (R173): Starts a lane hyperbolic tangent. -/
  | vtanh (d : BitVec 5) (a : BitVec 5) (t : BitVec 4)
  /-- VSIGM (R173): Starts a lane logistic sigmoid. -/
  | vsigm (d : BitVec 5) (a : BitVec 5) (t : BitVec 4)
  /-- VLD (R174): Loads 32 bytes into a vector register. -/
  | vld (d : BitVec 5) (a : BitVec 5) (i : BitVec 14)
  /-- VST (R174): Stores a vector register as 32 bytes, posted as one message when remote. -/
  | vst (d : BitVec 5) (a : BitVec 5) (i : BitVec 14)
  /-- MOV_K (R44): Compact form of ADD d, a, p0. -/
  | movK (d : BitVec 4) (a : BitVec 4)
  /-- ADD_K (R44): Compact form of ADD. -/
  | addK (d : BitVec 4) (a : BitVec 4) (b : BitVec 4)
  /-- SUB_K (R44): Compact form of SUB. -/
  | subK (d : BitVec 4) (a : BitVec 4) (b : BitVec 4)
  /-- AND_K (R44): Compact form of AND. -/
  | andK (d : BitVec 4) (a : BitVec 4) (b : BitVec 4)
  /-- OR_K (R44): Compact form of OR. -/
  | orK (d : BitVec 4) (a : BitVec 4) (b : BitVec 4)
  /-- XOR_K (R44): Compact form of XOR. -/
  | xorK (d : BitVec 4) (a : BitVec 4) (b : BitVec 4)
  /-- ADDI_K (R44): Compact form of ADDI with a 4-bit signed immediate. -/
  | addiK (d : BitVec 4) (a : BitVec 4) (i : BitVec 4)
  /-- SLLI_K (R44): Compact form of SLLI with an amount of 0 to 15. -/
  | slliK (d : BitVec 4) (a : BitVec 4) (i : BitVec 4)
  /-- LDD_K (R44): Compact form of LDD with an offset of 8 × imm4. -/
  | lddK (d : BitVec 4) (a : BitVec 4) (i : BitVec 4)
  /-- STD_K (R44): Compact form of STD with an offset of 8 × imm4. -/
  | stdK (d : BitVec 4) (a : BitVec 4) (i : BitVec 4)
  /-- BEQZ (R44): Compact branch taken when the register is zero. -/
  | beqz (a : BitVec 4) (o : BitVec 8)
  /-- BNEZ (R44): Compact branch taken when the register is non-zero. -/
  | bnez (a : BitVec 4) (o : BitVec 8)
  /-- ILLEGAL_INSTRUCTION (R52): An encoding that is not an instruction is decoded, changes nothing, sends a record and parks the thread. -/
  | illegalInstruction (p0 p1 : BitVec 16) (two : Bool)
  /-- SLOT_GRANT (R69): The slot allocator grants one pending FORK, active-message or codelet claim to the lowest free slot. -/
  | slotGrant (core : Nat)
  /-- GENERATION_ADVANCE (R89): An owed generation advance of a contained slot is made once a value qualifies. -/
  | generationAdvance (core slot : Nat)
  /-- YIELD_INTERVAL_END (R92): A yielding thread's interval expires and it becomes eligible again. -/
  | yieldIntervalEnd (core slot : Nat)
  /-- DIVIDE_COMPLETE (R105): The divider delivers a division result 20 cc after entry and the thread retires. -/
  | divideComplete (core slot : Nat)
  /-- FP_ITERATIVE_COMPLETE (R148): The scalar iterative floating-point unit delivers a result and the thread retires. -/
  | fpIterativeComplete (core slot : Nat)
  /-- VECTOR_ITERATIVE_COMPLETE (R179): The vector iterative unit delivers a result and the thread retires. -/
  | vectorIterativeComplete (core slot : Nat)
  /-- BANK_POWER_DOWN (R90): A scratchpad bank unused for 4,096 cc loses power. -/
  | bankPowerDown (core bank : Nat)
  /-- BANK_POWER_UP (R90): A powered-down bank completes its 256 cc power-up with every byte zero. -/
  | bankPowerUp (core bank : Nat)
  /-- SLOT_LEND (R95): The dispatcher lends a reserved slot, or the slot of a long-parked strand, to a ready codelet. -/
  | slotLend (core : Nat)
  /-- SPILL (R96): A lent slot's owner context finishes moving to its spill record and the codelet starts. -/
  | spill (core slot : Nat)
  /-- FILL (R97): A woken spilled owner is read back into its slot and returns to RUN. -/
  | fill (core slot : Nat)
  /-- LOAD_REQUEST (R189): A load request is performed at its home's scratchpad port and a data reply is sent. -/
  | loadRequest (n : Nat)
  /-- STORE (R189): A posted store is performed at its home and acknowledged. -/
  | store (n : Nat)
  /-- DATA_REPLY (R191): A reply arrives and writes the value or acts on its status, retiring the blocked instruction. -/
  | dataReply (n : Nat)
  /-- ACKNOWLEDGEMENT (R194): An acknowledgement frees its posted entry or acts on its status. -/
  | acknowledgement (n : Nat)
  /-- REGISTER_PARITY_ERROR (R417): A parity error on reading a private register contains the thread. -/
  | registerParityError (core slot : Nat)
  /-- SHARED_BANK_PARITY_ERROR (R419): A parity error on a shared register contains every occupied slot of the core. -/
  | sharedBankParityError (core slot : Nat)
  /-- MAILBOX_MESSAGE (R224): An arriving mailbox message is placed, refused, closed or too large, and its status is returned. -/
  | mailboxMessage (n : Nat)
  /-- MBWAIT_TIMEOUT (R230): An MBWAIT's timeout expires with the mailbox empty and it writes an invalid handle. -/
  | mbwaitTimeout (core slot : Nat)
  /-- ACTIVE_MESSAGE (R232): An arriving active message claims a slot, is queued or is refused. -/
  | activeMessage (n : Nat)
  /-- MESSAGE_STATUS (R218): The status of a SEND or ACTM arrives and is written to d. -/
  | messageStatus (n : Nat)
  /-- WAKE_MESSAGE (R94): A wake reaches its slot and releases a wake-releasable park or marks a spilled owner woken. -/
  | wakeMessage (n : Nat)
  /-- CHAIN_STEP (R237): A chain step is loaded at its home, checked and forwarded, or replied to. -/
  | chainStep (n : Nat)
  /-- CHAIN_REPLY (R239): The chain reply reaches the requester and writes the result and CHST. -/
  | chainReply (n : Nat)
  /-- ATOMIC (R245): An atomic request is performed indivisibly at its home. -/
  | atomic (n : Nat)
  /-- SYNCHRONISATION (R264): A timeline or ticket operation is performed at its home, answered or entered as a waiter. -/
  | synchronisation (n : Nat)
  /-- WAIT_RETRY (R265): A wait answered retry is sent again after 256 fc. -/
  | waitRetry (core slot : Nat)
  /-- LOG_APPEND (R256): An arriving drip-log record is appended at the home's log area or refused. -/
  | logAppend (n : Nat)
  /-- CONTROL_SPACE_ACCESS (R412): A class-3 LDD or STD is served or refused at the target core. -/
  | controlSpaceAccess (n : Nat)
  /-- SLOTCTL_RESUME (R413): The RESUME command of SLOTCTL releases a parked slot as a wake does. -/
  | slotctlResume (core slot : Nat)
  /-- SKIP (R413): The SKIP command advances a parked slot's pc past its instruction and resumes it. -/
  | skip (core slot : Nat)
  /-- KILL (R413): The KILL command ends a parked, contained or lost context as CLEND and frees the slot. -/
  | kill (core slot : Nat)
  /-- RELEASE (R413): The RELEASE command returns a contained or lost slot to RUN from its record. -/
  | release (core slot : Nat)
  /-- HELD_MESSAGE_APPEND (R219): A message to a held virtual bulkhead is appended to the overflow queue and answered HELD. -/
  | heldMessageAppend (n : Nat)
  /-- OVERFLOW_QUEUE_DELIVERY (R202): Once a held entry is mapped and restored, the carafe injects that bulkhead's queued messages in order. -/
  | overflowQueueDelivery (part vbh : Nat)
  /-- OVERFLOW_RETRY (R219): A message refused at delivery is retried by the carafe every 256 fc. -/
  | overflowRetry (part vbh : Nat)
  /-- PAGE_TABLE_WALK (R206): A CTU walk completes its table reads and yields a translation or a fault. -/
  | pageTableWalk (core cls : Nat) (va : BitVec 48)
  /-- SCOREBOARD_GRANT (R324): A destination core grants a range-scoreboard entry once no active entry overlaps and one is free. -/
  | scoreboardGrant (core : Nat)
  /-- MERGE_WINDOW_END (R322): A combining-node merge group's window expires and its source read begins. -/
  | mergeWindowEnd (cmd : Nat)
  /-- BUFFER_HEADER_ACCESS (R319): A copy's reader or writer count is taken at a shadow buffer's header home, after any hold. -/
  | bufferHeaderAccess (cmd : Nat)
  /-- COPY_PIECE (R319): The engine reads one 8-byte source piece and writes it to its destination. -/
  | copyPiece (cmd : Nat)
  /-- ENGINE_COMPLETION (R329): A command's completion status reaches its entry and is written to the handle or stored for a token. -/
  | engineCompletion (cmd : Nat)
  /-- PUBLISH_FLIP (R326): Once earlier writers retire, the header home flips FRONT and advances VERSION. -/
  | publishFlip (cmd : Nat)
  /-- PRESS_FETCH (R306): The press finishes fetching a queue head's operands into the staging buffer. -/
  | pressFetch (core : Nat)
  /-- PRESS_START (R308): The press arbiter starts one ready head command. -/
  | pressStart (cluster : Nat)
  /-- PRESS_COMPLETE (R309): A press command finishes and writes its completion status. -/
  | pressComplete (cluster : Nat)
  /-- DISPATCHER_STAGE (R358): The dispatcher takes a ring entry or keyed entry into a free staging entry. -/
  | dispatcherStage (core : Nat)
  /-- HELD_RING_PUSH (R357): A push held because the ready ring was full completes when an entry frees. -/
  | heldRingPush (core : Nat)
  /-- KEY_REQUEST (R363): A key request reaches its slice and is granted, queued or answered retry. -/
  | keyRequest (n : Nat)
  /-- KEY_GRANT (R362): A key grant reaches a staging entry, which requests its next key or claims a slot. -/
  | keyGrant (n : Nat)
  /-- KEY_RETRY (R363): A key request answered retry is sent again after 256 fc. -/
  | keyRetry (core entry : Nat)
  /-- KEY_RELEASE (R364): A key release reaches its slice, which grants the key to its oldest waiter. -/
  | keyRelease (n : Nat)
  /-- QPOPW_TIMEOUT (R368): A QPOPW's timeout expires and the core withdraws its wait at the carafe. -/
  | qpopwTimeout (core slot : Nat)
  /-- BLEND_PAIR (R383): A cluster blend engine copies and perturbs one pair's elements into the child. -/
  | blendPair (cmd pair : Nat)
  /-- COLLECTIVE_CONTRIBUTION (R391): A collective contribution reaches the reduction network and is joined or dropped. -/
  | collectiveContribution (n : Nat)
  /-- ABORT_TOKEN (R394): An abort token advances a collective's attempt at a member or node and aborts older instances. -/
  | abortToken (n : Nat)
  /-- FAULT_QUEUE_APPEND (R416): A fault record whose handler mailbox cannot take it is appended to the partition fault queue or dropped. -/
  | faultQueueAppend (n : Nat)
  /-- RESERVED_KIND_PACKET (R214): A packet of reserved KIND is discarded by the first router and reported as a link error. -/
  | reservedKindPacket (link : Nat) (kind : BitVec 5)
  /-- GROUP_INGRESS (R451): An ingress gateway admits a packet from a peer package, rewrites PART and translates it, or answers absent. -/
  | groupIngress (peer part : Nat) (kind : BitVec 5) (target : BitVec 64) (payload : List (BitVec 64))
  /-- ROTATION_WRITE (R73): A write to ROTLO or ROTHI stores positions, mapping 16 to 30 to empty, from the next cycle. -/
  | rotationWrite (core : Nat) (hi : Bool) (v : BitVec 64)
  /-- SIGCTL_WRITE (R99): A write to SIGCTL changes MODE and sets or clears the checker state. -/
  | sigctlWrite (core slot : Nat) (v : BitVec 64)
  /-- MAILBOX_CONFIG_WRITE (R222): A write to MBBASE or MBSIZE empties the mailbox and validates its size. -/
  | mailboxConfigWrite (core : Nat) (size : Bool) (mb : BitVec 2) (v : BitVec 64)
  /-- LOG_CONFIG_WRITE (R252): A write to LOGBASE or LOGSIZE discards the log's records and validates its size. -/
  | logConfigWrite (core : Nat) (size : Bool) (v : BitVec 64)
  /-- PIN_RELEASE (R408): Writing 1 to CORECTL.PINREL unpins the banks pinned by HALTK. -/
  | pinRelease (core : Nat)
  /-- XLAT (R409): A write to XLAT translates a virtual core coordinate through the CTU's map for a later read. -/
  | xlat (core slot : Nat) (v : BitVec 64)
  /-- PARTITION_REGISTER_WRITE (R410): A write to a partition register is carried to every core and CTU of the partition before the MTC retires. -/
  | partitionRegisterWrite (part : Nat) (num : BitVec 14) (v : BitVec 64)
  /-- FAULT_QUEUE_CONFIG_WRITE (R416): A write to FQBASE or FQSIZE resets FQHEAD and FQTAIL and discards the queue. -/
  | faultQueueConfigWrite (part : Nat) (size : Bool) (v : BitVec 64)
  /-- FQTAIL_WRITE (R416): A write to FQTAIL stores the consumed count clamped between FQHEAD - size and FQHEAD. -/
  | fqtailWrite (part : Nat) (v : BitVec 64)
  /-- LINSIZE_WRITE (R406): A write to LINSIZE sets the lineage ring size and resets HEAD to 0. -/
  | linsizeWrite (part : Nat) (v : BitVec 64)
  /-- TLBINV (R209): Invalidates translations of a granule or class across the partition's CTUs and ingress gateways. -/
  | tlbinv (part : Nat) (w : BitVec 64)
  /-- QCFG (R411): Sets the capacity of a partition queue. -/
  | qcfg (part : Nat) (w : BitVec 64)
  /-- RCB_ADMIT (R343): Admits an RCB, resolving inheritance, or refuses it with a reason. -/
  | rcbAdmit (part : Nat) (w : BitVec 64)
  /-- RCB_WITHDRAW (R411): Withdraws an admitted RCB so that it starts nothing new. -/
  | rcbWithdraw (part : Nat) (w : BitVec 64)
  /-- PREEMPT (R421): Holds a region's virtual bulkheads, halts its cores and writes their images. -/
  | preempt (part : Nat) (w : BitVec 64)
  /-- RESUME (R427): Restores a region's images onto its mapped cores, replays commands and delivers overflow queues. -/
  | resume (part : Nat) (w : BitVec 64)
  /-- PMAPDAT_WRITE (R428): A partition-map write maps or remaps a virtual bulkhead, restoring a held one's images before use. -/
  | pmapdatWrite (part vbh : Nat) (v : BitVec 64)
  /-- CREATE (R433): Creates a partition over a bulkhead rectangle and starts its first strand. -/
  | create (w : BitVec 64)
  /-- DESTROY (R434): Halts every core of a partition without images and frees all its resources. -/
  | destroy (w : BitVec 64)
  /-- EXTEND (R434): Raises a partition's virtual height and width. -/
  | extend (w : BitVec 64)
  /-- RELEASE_VIRTUAL_BULKHEAD (R434): Pre-empts one virtual bulkhead and removes its physical bulkhead from the partition. -/
  | releaseVirtualBulkhead (w : BitVec 64)
  /-- MCBIND_BIND (R411): Binds a memory core's user slots to a partition. -/
  | mcbindBind (w : BitVec 64)
  /-- MCBIND_UNBIND (R411): Unbinds a memory core's user slots when none is occupied. -/
  | mcbindUnbind (w : BitVec 64)
  /-- BULKHEAD_RESET (R436): Resets a bulkhead, losing its contexts and keys and scrubbing its scratchpads. -/
  | bulkheadReset (bh : Nat)
  /-- BULKHEAD_RESET_COMPLETE (R436): A bulkhead reset finishes its scrub and the bulkhead returns to service. -/
  | bulkheadResetComplete (bh : Nat)
  /-- PARK_K1 (R431): Parks an idle bulkhead in K1 with its scratchpad retained. -/
  | parkK1 (bh : Nat)
  /-- PARK_K2 (R431): Parks an idle bulkhead in K2, losing its scratchpad. -/
  | parkK2 (bh : Nat)
  /-- UNPARK (R431): Unparks a bulkhead. -/
  | unpark (bh : Nat)
  /-- PARK_TRANSITION_COMPLETE (R438): A bulkhead's park entry or exit finishes after its latency. -/
  | parkTransitionComplete (bh : Nat)
  /-- PWRCEIL_WRITE (R439): A write to PWRCEIL stores the ceiling clamped to 250–1,100 W. -/
  | pwrceilWrite (v : BitVec 64)
  /-- GOVERNOR_SAMPLE (R440): Every 100 fc the governor samples the draw and steps, stops, restarts or raises one bulkhead. -/
  | governorSample (draw : BitVec 11) (low : Bool)
  /-- PSTATE_TRANSITION_COMPLETE (R438): The voltage for a higher performance state is ready and the clock switches. -/
  | pstateTransitionComplete (bh : Nat)
  /-- GRPDAT_WRITE (R450): A group-link write changes a peer's port after the old port drains. -/
  | grpdatWrite (peer : Nat) (v : BitVec 64)
  /-- DOORBELL (R452): A host write of PROD makes the gateway forward new window records as ACTM. -/
  | doorbell (vf : Nat) (prod : BitVec 16) (window : List (BitVec 64))
  /-- SCRATCHPAD_SCRUB (R441): The core scrubber reads a word, corrects a single-bit error or writes back poison. -/
  | scratchpadScrub (core word : Nat) (err : Nat)
  /-- PATROL_SCRUB (R442): The HBM4E patrol scrub visits a unit and corrects it or writes it back poisoned. -/
  | patrolScrub (mc unit : Nat) (err : Nat)
  /-- ROW_SPARE (R443): The memory core copies a failing row into a spare row and remaps it. -/
  | rowSpare (mc bank row : Nat) (bad : List Nat) (lost : List Nat)
  /-- CHANNEL_ACCESS (R340): The channel controller starts the oldest eligible waiting access on a free bank. -/
  | channelAccess (mc : Nat)
  /-- ROW_CLOSE (R340): A bank's open row closes after 512 cc without access and its refresh debt is repaid. -/
  | rowClose (mc bank : Nat)
  /-- REFRESH_SLOT (R341): A bank's refresh slot issues REFpb or postpones it and raises its debt. -/
  | refreshSlot (mc bank : Nat)
  /-- REFRESH_DRAIN (R341): After the access in service and issued refreshes finish, every row closes and REFab commands run. -/
  | refreshDrain (mc : Nat)
  /-- FLIT_CRC_ERROR (R444): A receiver discards a flit with a bad CRC and the sender replays from its retry buffer. -/
  | flitCrcError (link : Nat)
  /-- REPLAY_WINDOW (R445): A link's replay window of 2^21 fc ends and its count is judged. -/
  | replayWindow (link : Nat)
  /-- RETRAIN_COMPLETE (R445): A link's retraining finishes, or fails and after three failures the link is failed. -/
  | retrainComplete (link : Nat) (ok : Bool)
  /-- COLD_START (R446): Performs every bring-up step from firmware verification to opening the journal. With the gateway dies that failed comes whether
  die 16 bridges the group to a host. -/
  | coldStart (badCompute : BitVec 16) (badGateway : BitVec 4 × Bool) (badStack : BitVec 8)
  /-- WARM_START (R446): Performs bring-up skipping training and BIST and scrubbing only dirty bulkheads. -/
  | warmStart (badCompute : BitVec 16) (badGateway : BitVec 4) (badStack : BitVec 8)
  /-- CODELET_COUNTER_REQUEST (R351): A remote CLINIT, CLDEC or CLPUSH request is performed indivisibly at the descriptor's owner port, possibly pushing the codelet, and is answered or acknowledged. -/
  | codeletCounterRequest (n : Nat)
  /-- CARAFE_QUEUE_OPERATION (R367): A QPUSH, QPOP, QPOPW or CHNK request reaches the carafe and appends, pops, hands an entry to a waiter, waits, or takes or initialises a chunk. -/
  | carafeQueueOperation (n : Nat)
  /-- TOKEN_QUERY (R330): An HTST, HWAIT or HCAN on a token reaches the core holding the completion entry and is answered, waits there, or cancels the command. -/
  | tokenQuery (n : Nat)
  /-- FIT_READ (R375): A remote FITGET read or a cupping-unit sample of a member's VALUE is performed at the target core's port and answered. -/
  | fitRead (n : Nat)
  /-- CHANNEL_ACCESS_COMPLETE (R340): An HBM4E channel access finishes 40, 64 or 80 cc after it started, writes its data or completes its write, and frees its bank. -/
  | channelAccessComplete (mc bank : Nat)
  /-- REFRESH_COMPLETE (R341): A REFpb or REFab finishes after 192 or 448 cc, unblocking its banks and letting the next back-to-back refresh issue. -/
  | refreshComplete (mc bank : Nat)
  /-- GROUP_PORT_FAILURE (R450): A group link's primary Ultra Ethernet port fails and, with ALTEN set, traffic to the peer moves to the alternate port after the primary drains: the peer, and, once its port has drained, what was lost on it. -/
  | groupPortFailure (peer : Nat × Option (List Nat))
  /-- BHCTL_WRITE (R430): A write to BHCTL sets the requested performance state, clamped to 4, and bank power-down enable of the selected bulkhead. -/
  | bhctlWrite (bh : Nat) (v : BitVec 64)
deriving DecidableEq, Repr

end Sys2Proof
end

