-- ==== Sys2Proof/WellFormed.lean ====
section
/-! DEFINITION. Which terms of Instr are instructions: the field values that 02_encoding R49, R50 and the class chapters leave unassigned are refused (06_vector R159, 11_press R296, 09_sync R254, 07_access R197, 05 R48), and a device step names a slot 0-15. -/

namespace Sys2Proof

/-- INT of 06_vector R159: type codes 0-7. -/
def isInt (t : BitVec 4) : Bool := decide (t.toNat < 8)

/-- FL of R159: FP16, BF16, FP32, FP64. -/
def isFl (t : BitVec 4) : Bool := decide (10 ≤ t.toNat ∧ t.toNat ≤ 13)

/-- SI of R159: the signed integer codes 0, 2, 4, 6. -/
def isSigned (t : BitVec 4) : Bool := decide (t.toNat < 8 ∧ t.toNat % 2 = 0)

/-- ANY of R159: every code but 15. -/
def isAny (t : BitVec 4) : Bool := t != 15

/-- The types VDOT accepts (R159): I8, N8, I16, N16, E4M3, E5M2, FP16, BF16, FP4. -/
def isDot (t : BitVec 4) : Bool := decide (t.toNat < 4) || t == 8 || t == 9 || t == 10 || t == 11 || t == 14

/-- Well-formed terms. An encoded instruction that is not well-formed is an illegal instruction (R50). -/
def Instr.wf : Instr → Bool
  | .add _ _ _ => true
  | .sub _ _ _ => true
  | .and _ _ _ => true
  | .or _ _ _ => true
  | .xor _ _ _ => true
  | .andn _ _ _ => true
  | .sll _ _ _ => true
  | .srl _ _ _ => true
  | .sra _ _ _ => true
  | .rol _ _ _ => true
  | .mul _ _ _ => true
  | .mulh _ _ _ => true
  | .mulhu _ _ _ => true
  | .div _ _ _ => true
  | .divu _ _ _ => true
  | .rem _ _ _ => true
  | .remu _ _ _ => true
  | .slt _ _ _ => true
  | .sltu _ _ _ => true
  | .min _ _ _ => true
  | .max _ _ _ => true
  | .minu _ _ _ => true
  | .maxu _ _ _ => true
  | .addw _ _ _ => true
  | .subw _ _ _ => true
  | .clz _ _ => true
  | .ctz _ _ => true
  | .popc _ _ => true
  | .brev _ _ => true
  | .bswap _ _ => true
  | .sextb _ _ => true
  | .sexth _ _ => true
  | .sextw _ _ => true
  | .zextw _ _ => true
  | .selz _ _ _ => true
  | .selnz _ _ _ => true
  | .extv _ _ _ => true
  | .insv _ _ _ => true
  | .adds _ _ _ => true
  | .subs _ _ _ => true
  | .addi _ _ _ => true
  | .andi _ _ _ => true
  | .ori _ _ _ => true
  | .xori _ _ _ => true
  | .slti _ _ _ => true
  | .sltiu _ _ _ => true
  | .slli _ _ _ => true
  | .srli _ _ _ => true
  | .srai _ _ _ => true
  | .roli _ _ _ => true
  | .extu _ _ _ _ => true
  | .exts _ _ _ _ => true
  | .ins _ _ _ _ => true
  | .li _ _ => true
  | .lish _ _ => true
  | .addpc _ _ => true
  | .beq _ _ _ => true
  | .bne _ _ _ => true
  | .blt _ _ _ => true
  | .bge _ _ _ => true
  | .bltu _ _ _ => true
  | .bgeu _ _ _ => true
  | .jal _ _ => true
  | .jalr _ _ _ => true
  | .fork _ _ _ => true
  | .halt => true
  | .haltk _ _ => true
  | .yield _ => true
  | .wake _ => true
  | .bsig _ => true
  | .ldb _ _ _ => true
  | .ldbu _ _ _ => true
  | .ldh _ _ _ => true
  | .ldhu _ _ _ => true
  | .ldw _ _ _ => true
  | .ldwu _ _ _ => true
  | .ldd _ _ _ => true
  | .stb _ _ _ => true
  | .sth _ _ _ => true
  | .stw _ _ _ => true
  | .std _ _ _ => true
  | .ldacq _ _ _ => true
  | .strel _ _ _ => true
  | .fence s => decide (s.toNat ≤ 5)
  | .fenceI => true
  | .send _ _ _ => true
  | .actm _ _ _ => true
  | .mbpop _ _ _ => true
  | .mbpeek _ _ => true
  | .mbwait _ _ _ => true
  | .chld _ _ _ => true
  | .chldv _ _ _ => true
  | .amoadd _ _ _ _ => true
  | .amoand _ _ _ _ => true
  | .amoor _ _ _ _ => true
  | .amoxor _ _ _ _ => true
  | .amomin _ _ _ _ => true
  | .amomax _ _ _ _ => true
  | .amominu _ _ _ _ => true
  | .amomaxu _ _ _ _ => true
  | .amoswap _ _ _ _ => true
  | .amocas _ _ _ _ => true
  | .amofadd _ _ _ _ => true
  | .logapp o _ _ => decide (o.toNat ≤ 10)
  | .logseal _ => true
  | .barset _ _ _ => true
  | .barj _ _ => true
  | .barw _ _ _ => true
  | .barq _ _ => true
  | .tladd _ _ _ => true
  | .tlset _ _ _ => true
  | .tlrd _ _ => true
  | .tlwait _ _ _ => true
  | .tkt _ _ => true
  | .tkwait _ _ _ => true
  | .tkdone _ _ => true
  | .clinit _ _ _ => true
  | .cldec _ _ => true
  | .clpush _ _ => true
  | .clend _ => true
  | .qpush _ _ _ => true
  | .qpop _ _ => true
  | .qpopw _ _ _ => true
  | .chnk _ _ _ => true
  | .cpy _ _ => true
  | .cpyg _ _ => true
  | .cpys _ _ => true
  | .publish _ _ _ => true
  | .htst _ _ => true
  | .hwait _ _ => true
  | .hdet _ _ => true
  | .hcan _ _ => true
  | .mcrd _ _ => true
  | .mcwr _ _ => true
  | .pusht _ _ => true
  | .mma f _ _ _ => f != 7
  | .mmag f _ _ _ => f != 7
  | .mxzero _ b => decide (b.toNat < 4)
  | .mxlda _ _ b => decide (b.toNat < 4)
  | .mxst _ _ b => decide (b.toNat < 4)
  | .mxepi _ => true
  | .fitset _ _ => true
  | .fitget _ _ => true
  | .poprank _ _ => true
  | .blend _ _ => true
  | .blendx _ _ => true
  | .linrd _ _ _ => true
  | .coll _ _ => true
  | .cabort _ _ => true
  | .catt _ _ _ => true
  | .fadd _ _ _ _ => true
  | .fsub _ _ _ _ => true
  | .fmul _ _ _ _ => true
  | .fdiv _ _ _ _ => true
  | .fsqrt _ _ _ => true
  | .fmin _ _ _ _ => true
  | .fmax _ _ _ _ => true
  | .feq _ _ _ _ => true
  | .flt _ _ _ _ => true
  | .fle _ _ _ _ => true
  | .fclass _ _ _ => true
  | .fsgnj _ _ _ _ => true
  | .fsgnjn _ _ _ _ => true
  | .fcvtFi _ _ _ _ => true
  | .fcvtIf _ _ _ _ => true
  | .fcvtP _ _ _ => true
  | .fsin _ _ _ => true
  | .fcos _ _ _ => true
  | .fexp2 _ _ _ => true
  | .flog2 _ _ _ => true
  | .fma _ _ _ _ => true
  | .fms _ _ _ _ => true
  | .fnma _ _ _ _ => true
  | .mfc _ _ => true
  | .mtc _ _ => true
  | .trap _ => true
  | .eret => true
  | .segld _ _ _ => true
  | .segst _ _ _ => true
  | .bkpt => true
  | .vadd _ _ _ t => isInt t || isFl t
  | .vsub _ _ _ t => isInt t || isFl t
  | .vmul _ _ _ t => isInt t || isFl t
  | .vfma _ _ _ t => isInt t || isFl t
  | .vmin _ _ _ t => isInt t || isFl t
  | .vmax _ _ _ t => isInt t || isFl t
  | .vabs _ _ t => isSigned t || isFl t
  | .vneg _ _ t => isSigned t || isFl t
  | .vand _ _ _ t => isAny t
  | .vor _ _ _ t => isAny t
  | .vxor _ _ _ t => isAny t
  | .vshl _ _ _ t => isInt t || isFl t
  | .vshr _ _ _ t => isInt t
  | .vsra _ _ _ t => isInt t
  | .vadds _ _ _ t => isInt t
  | .vsubs _ _ _ t => isInt t
  | .vmulh _ _ _ t => isInt t
  | .vdiv _ _ _ t => isInt t || isFl t
  | .vcmpeq _ _ _ t => isInt t || isFl t
  | .vcmplt _ _ _ t => isInt t || isFl t
  | .vcmple _ _ _ t => isInt t || isFl t
  | .vsel _ _ _ t => isAny t
  | .vshuf _ _ _ t => isAny t && t != 14
  | .vbcast _ _ t => isAny t
  | .vextr _ _ _ t => isAny t
  | .vins _ _ _ t => isAny t
  | .vredadd _ _ t => isInt t || isFl t
  | .vredmax _ _ t => isInt t || isFl t
  | .vredmin _ _ t => isInt t || isFl t
  | .vdot _ _ _ t => isDot t
  | .vmov _ _ t => isAny t
  | .vcvt _ _ t s n => isAny t && isAny s && decide (n.toNat ≤ 6)
  | .vrcp _ _ t => isFl t
  | .vrsq _ _ t => isFl t
  | .vexp2 _ _ t => isFl t
  | .vlog2 _ _ t => isFl t
  | .vsin _ _ t => isFl t
  | .vcos _ _ t => isFl t
  | .vtanh _ _ t => isFl t
  | .vsigm _ _ t => isFl t
  | .vld _ _ _ => true
  | .vst _ _ _ => true
  | .movK d a => !(d == 0 && a == 0)
  | .addK _ _ _ => true
  | .subK _ _ _ => true
  | .andK _ _ _ => true
  | .orK _ _ _ => true
  | .xorK _ _ _ => true
  | .addiK _ _ _ => true
  | .slliK _ _ _ => true
  | .lddK _ _ _ => true
  | .stdK _ _ _ => true
  | .beqz _ _ => true
  | .bnez _ _ => true
  | .illegalInstruction _ _ _ => true
  | .slotGrant _ => true
  | .generationAdvance _ slot => decide (slot < 16)
  | .yieldIntervalEnd _ slot => decide (slot < 16)
  | .divideComplete _ slot => decide (slot < 16)
  | .fpIterativeComplete _ slot => decide (slot < 16)
  | .vectorIterativeComplete _ slot => decide (slot < 16)
  | .bankPowerDown _ _ => true
  | .bankPowerUp _ _ => true
  | .slotLend _ => true
  | .spill _ slot => decide (slot < 16)
  | .fill _ slot => decide (slot < 16)
  | .loadRequest _ => true
  | .store _ => true
  | .dataReply _ => true
  | .acknowledgement _ => true
  | .registerParityError _ slot => decide (slot < 16)
  | .sharedBankParityError _ slot => decide (slot < 16)
  | .mailboxMessage _ => true
  | .mbwaitTimeout _ slot => decide (slot < 16)
  | .activeMessage _ => true
  | .messageStatus _ => true
  | .wakeMessage _ => true
  | .chainStep _ => true
  | .chainReply _ => true
  | .atomic _ => true
  | .synchronisation _ => true
  | .waitRetry _ slot => decide (slot < 16)
  | .logAppend _ => true
  | .controlSpaceAccess _ => true
  | .slotctlResume _ slot => decide (slot < 16)
  | .skip _ slot => decide (slot < 16)
  | .kill _ slot => decide (slot < 16)
  | .release _ slot => decide (slot < 16)
  | .heldMessageAppend _ => true
  | .overflowQueueDelivery _ _ => true
  | .overflowRetry _ _ => true
  | .pageTableWalk _ _ _ => true
  | .scoreboardGrant _ => true
  | .mergeWindowEnd _ => true
  | .bufferHeaderAccess _ => true
  | .copyPiece _ => true
  | .engineCompletion _ => true
  | .publishFlip _ => true
  | .pressFetch _ => true
  | .pressStart _ => true
  | .pressComplete _ => true
  | .dispatcherStage _ => true
  | .heldRingPush _ => true
  | .keyRequest _ => true
  | .keyGrant _ => true
  | .keyRetry _ _ => true
  | .keyRelease _ => true
  | .qpopwTimeout _ slot => decide (slot < 16)
  | .blendPair _ _ => true
  | .collectiveContribution _ => true
  | .abortToken _ => true
  | .faultQueueAppend _ => true
  | .reservedKindPacket _ _ => true
  | .groupIngress _ _ _ _ _ => true
  | .rotationWrite _ _ _ => true
  | .sigctlWrite _ slot _ => decide (slot < 16)
  | .mailboxConfigWrite _ _ _ _ => true
  | .logConfigWrite _ _ _ => true
  | .pinRelease _ => true
  | .xlat _ slot _ => decide (slot < 16)
  | .partitionRegisterWrite _ _ _ => true
  | .faultQueueConfigWrite _ _ _ => true
  | .fqtailWrite _ _ => true
  | .linsizeWrite _ _ => true
  | .tlbinv _ _ => true
  | .qcfg _ _ => true
  | .rcbAdmit _ _ => true
  | .rcbWithdraw _ _ => true
  | .preempt _ _ => true
  | .resume _ _ => true
  | .pmapdatWrite _ _ _ => true
  | .create _ => true
  | .destroy _ => true
  | .extend _ => true
  | .releaseVirtualBulkhead _ => true
  | .mcbindBind _ => true
  | .mcbindUnbind _ => true
  | .bulkheadReset _ => true
  | .bulkheadResetComplete _ => true
  | .parkK1 _ => true
  | .parkK2 _ => true
  | .unpark _ => true
  | .parkTransitionComplete _ => true
  | .pwrceilWrite _ => true
  | .governorSample _ _ => true
  | .pstateTransitionComplete _ => true
  | .grpdatWrite _ _ => true
  | .doorbell _ _ _ => true
  | .scratchpadScrub _ _ _ => true
  | .patrolScrub _ _ _ => true
  | .rowSpare _ _ _ _ _ => true
  | .channelAccess _ => true
  | .rowClose _ _ => true
  | .refreshSlot _ _ => true
  | .refreshDrain _ => true
  | .flitCrcError _ => true
  | .replayWindow _ => true
  | .retrainComplete _ _ => true
  | .coldStart _ _ _ => true
  | .warmStart _ _ _ => true
  | .codeletCounterRequest _ => true
  | .carafeQueueOperation _ => true
  | .tokenQuery _ => true
  | .fitRead _ => true
  | .channelAccessComplete _ _ => true
  | .refreshComplete _ _ => true
  | .groupPortFailure _ => true
  | .bhctlWrite _ _ => true

/-- The device steps of the table: rows without an encoding. -/
def Instr.isDevice : Instr → Bool
  | .illegalInstruction .. => true
  | .slotGrant .. => true
  | .generationAdvance .. => true
  | .yieldIntervalEnd .. => true
  | .divideComplete .. => true
  | .fpIterativeComplete .. => true
  | .vectorIterativeComplete .. => true
  | .bankPowerDown .. => true
  | .bankPowerUp .. => true
  | .slotLend .. => true
  | .spill .. => true
  | .fill .. => true
  | .loadRequest .. => true
  | .store .. => true
  | .dataReply .. => true
  | .acknowledgement .. => true
  | .registerParityError .. => true
  | .sharedBankParityError .. => true
  | .mailboxMessage .. => true
  | .mbwaitTimeout .. => true
  | .activeMessage .. => true
  | .messageStatus .. => true
  | .wakeMessage .. => true
  | .chainStep .. => true
  | .chainReply .. => true
  | .atomic .. => true
  | .synchronisation .. => true
  | .waitRetry .. => true
  | .logAppend .. => true
  | .controlSpaceAccess .. => true
  | .slotctlResume .. => true
  | .skip .. => true
  | .kill .. => true
  | .release .. => true
  | .heldMessageAppend .. => true
  | .overflowQueueDelivery .. => true
  | .overflowRetry .. => true
  | .pageTableWalk .. => true
  | .scoreboardGrant .. => true
  | .mergeWindowEnd .. => true
  | .bufferHeaderAccess .. => true
  | .copyPiece .. => true
  | .engineCompletion .. => true
  | .publishFlip .. => true
  | .pressFetch .. => true
  | .pressStart .. => true
  | .pressComplete .. => true
  | .dispatcherStage .. => true
  | .heldRingPush .. => true
  | .keyRequest .. => true
  | .keyGrant .. => true
  | .keyRetry .. => true
  | .keyRelease .. => true
  | .qpopwTimeout .. => true
  | .blendPair .. => true
  | .collectiveContribution .. => true
  | .abortToken .. => true
  | .faultQueueAppend .. => true
  | .reservedKindPacket .. => true
  | .groupIngress .. => true
  | .rotationWrite .. => true
  | .sigctlWrite .. => true
  | .mailboxConfigWrite .. => true
  | .logConfigWrite .. => true
  | .pinRelease .. => true
  | .xlat .. => true
  | .partitionRegisterWrite .. => true
  | .faultQueueConfigWrite .. => true
  | .fqtailWrite .. => true
  | .linsizeWrite .. => true
  | .tlbinv .. => true
  | .qcfg .. => true
  | .rcbAdmit .. => true
  | .rcbWithdraw .. => true
  | .preempt .. => true
  | .resume .. => true
  | .pmapdatWrite .. => true
  | .create .. => true
  | .destroy .. => true
  | .extend .. => true
  | .releaseVirtualBulkhead .. => true
  | .mcbindBind .. => true
  | .mcbindUnbind .. => true
  | .bulkheadReset .. => true
  | .bulkheadResetComplete .. => true
  | .parkK1 .. => true
  | .parkK2 .. => true
  | .unpark .. => true
  | .parkTransitionComplete .. => true
  | .pwrceilWrite .. => true
  | .governorSample .. => true
  | .pstateTransitionComplete .. => true
  | .grpdatWrite .. => true
  | .doorbell .. => true
  | .scratchpadScrub .. => true
  | .patrolScrub .. => true
  | .rowSpare .. => true
  | .channelAccess .. => true
  | .rowClose .. => true
  | .refreshSlot .. => true
  | .refreshDrain .. => true
  | .flitCrcError .. => true
  | .replayWindow .. => true
  | .retrainComplete .. => true
  | .coldStart .. => true
  | .warmStart .. => true
  | .codeletCounterRequest .. => true
  | .carafeQueueOperation .. => true
  | .tokenQuery .. => true
  | .fitRead .. => true
  | .channelAccessComplete .. => true
  | .refreshComplete .. => true
  | .groupPortFailure .. => true
  | .bhctlWrite .. => true
  | _ => false

end Sys2Proof
end

