-- ==== Sys2Proof/Decode.lean ====
section
/-! DEFINITION. Decoding and encoding of instructions (02_encoding R36-R51), total on any bytes, rejecting by name.
W = parcel0 * 65536 + parcel1 (R37); fields are bit ranges of W, or of the one parcel of a compact instruction (R44). -/

namespace Sys2Proof

/-- Why bytes are no instruction (R50). -/
inductive Reject where
  /-- fewer bytes than the first parcel, or than the instruction, needs -/
  | short
  /-- the parcel 0x0000 in first position (R39) -/
  | zeroParcel
  /-- op6 is reserved (R46) -/
  | reservedOp
  /-- a function code is unassigned, or a reserved or unnamed field is not 0 (R47-R50) -/
  | unassigned
  /-- a selector field or an element type that the instruction does not list (R49, R50, R159) -/
  | badField
deriving DecidableEq, Repr

/-- Bits hi down to lo of w, as an unsigned value (00_scope R9, bits). -/
def fld (w hi lo : Nat) : Nat := w / 2 ^ lo % 2 ^ (hi + 1 - lo)

/-- Class IntA, W[31:24] = 0xC0. -/
def decIntA (w : Nat) : Option Instr :=
  match fld w 8 0 with
  | 0 => some (.add (BitVec.ofNat 5 (fld w 23 19)) (BitVec.ofNat 5 (fld w 18 14)) (BitVec.ofNat 5 (fld w 13 9)))
  | 1 => some (.sub (BitVec.ofNat 5 (fld w 23 19)) (BitVec.ofNat 5 (fld w 18 14)) (BitVec.ofNat 5 (fld w 13 9)))
  | 2 => some (.and (BitVec.ofNat 5 (fld w 23 19)) (BitVec.ofNat 5 (fld w 18 14)) (BitVec.ofNat 5 (fld w 13 9)))
  | 3 => some (.or (BitVec.ofNat 5 (fld w 23 19)) (BitVec.ofNat 5 (fld w 18 14)) (BitVec.ofNat 5 (fld w 13 9)))
  | 4 => some (.xor (BitVec.ofNat 5 (fld w 23 19)) (BitVec.ofNat 5 (fld w 18 14)) (BitVec.ofNat 5 (fld w 13 9)))
  | 5 => some (.andn (BitVec.ofNat 5 (fld w 23 19)) (BitVec.ofNat 5 (fld w 18 14)) (BitVec.ofNat 5 (fld w 13 9)))
  | 6 => some (.sll (BitVec.ofNat 5 (fld w 23 19)) (BitVec.ofNat 5 (fld w 18 14)) (BitVec.ofNat 5 (fld w 13 9)))
  | 7 => some (.srl (BitVec.ofNat 5 (fld w 23 19)) (BitVec.ofNat 5 (fld w 18 14)) (BitVec.ofNat 5 (fld w 13 9)))
  | 8 => some (.sra (BitVec.ofNat 5 (fld w 23 19)) (BitVec.ofNat 5 (fld w 18 14)) (BitVec.ofNat 5 (fld w 13 9)))
  | 9 => some (.rol (BitVec.ofNat 5 (fld w 23 19)) (BitVec.ofNat 5 (fld w 18 14)) (BitVec.ofNat 5 (fld w 13 9)))
  | 10 => some (.mul (BitVec.ofNat 5 (fld w 23 19)) (BitVec.ofNat 5 (fld w 18 14)) (BitVec.ofNat 5 (fld w 13 9)))
  | 11 => some (.mulh (BitVec.ofNat 5 (fld w 23 19)) (BitVec.ofNat 5 (fld w 18 14)) (BitVec.ofNat 5 (fld w 13 9)))
  | 12 => some (.mulhu (BitVec.ofNat 5 (fld w 23 19)) (BitVec.ofNat 5 (fld w 18 14)) (BitVec.ofNat 5 (fld w 13 9)))
  | 13 => some (.div (BitVec.ofNat 5 (fld w 23 19)) (BitVec.ofNat 5 (fld w 18 14)) (BitVec.ofNat 5 (fld w 13 9)))
  | 14 => some (.divu (BitVec.ofNat 5 (fld w 23 19)) (BitVec.ofNat 5 (fld w 18 14)) (BitVec.ofNat 5 (fld w 13 9)))
  | 15 => some (.rem (BitVec.ofNat 5 (fld w 23 19)) (BitVec.ofNat 5 (fld w 18 14)) (BitVec.ofNat 5 (fld w 13 9)))
  | 16 => some (.remu (BitVec.ofNat 5 (fld w 23 19)) (BitVec.ofNat 5 (fld w 18 14)) (BitVec.ofNat 5 (fld w 13 9)))
  | 17 => some (.slt (BitVec.ofNat 5 (fld w 23 19)) (BitVec.ofNat 5 (fld w 18 14)) (BitVec.ofNat 5 (fld w 13 9)))
  | 18 => some (.sltu (BitVec.ofNat 5 (fld w 23 19)) (BitVec.ofNat 5 (fld w 18 14)) (BitVec.ofNat 5 (fld w 13 9)))
  | 19 => some (.min (BitVec.ofNat 5 (fld w 23 19)) (BitVec.ofNat 5 (fld w 18 14)) (BitVec.ofNat 5 (fld w 13 9)))
  | 20 => some (.max (BitVec.ofNat 5 (fld w 23 19)) (BitVec.ofNat 5 (fld w 18 14)) (BitVec.ofNat 5 (fld w 13 9)))
  | 21 => some (.minu (BitVec.ofNat 5 (fld w 23 19)) (BitVec.ofNat 5 (fld w 18 14)) (BitVec.ofNat 5 (fld w 13 9)))
  | 22 => some (.maxu (BitVec.ofNat 5 (fld w 23 19)) (BitVec.ofNat 5 (fld w 18 14)) (BitVec.ofNat 5 (fld w 13 9)))
  | 23 => some (.addw (BitVec.ofNat 5 (fld w 23 19)) (BitVec.ofNat 5 (fld w 18 14)) (BitVec.ofNat 5 (fld w 13 9)))
  | 24 => some (.subw (BitVec.ofNat 5 (fld w 23 19)) (BitVec.ofNat 5 (fld w 18 14)) (BitVec.ofNat 5 (fld w 13 9)))
  | 25 => if fld w 13 9 = 0 then some (.clz (BitVec.ofNat 5 (fld w 23 19)) (BitVec.ofNat 5 (fld w 18 14))) else none
  | 26 => if fld w 13 9 = 0 then some (.ctz (BitVec.ofNat 5 (fld w 23 19)) (BitVec.ofNat 5 (fld w 18 14))) else none
  | 27 => if fld w 13 9 = 0 then some (.popc (BitVec.ofNat 5 (fld w 23 19)) (BitVec.ofNat 5 (fld w 18 14))) else none
  | 28 => if fld w 13 9 = 0 then some (.brev (BitVec.ofNat 5 (fld w 23 19)) (BitVec.ofNat 5 (fld w 18 14))) else none
  | 29 => if fld w 13 9 = 0 then some (.bswap (BitVec.ofNat 5 (fld w 23 19)) (BitVec.ofNat 5 (fld w 18 14))) else none
  | 30 => if fld w 13 9 = 0 then some (.sextb (BitVec.ofNat 5 (fld w 23 19)) (BitVec.ofNat 5 (fld w 18 14))) else none
  | 31 => if fld w 13 9 = 0 then some (.sexth (BitVec.ofNat 5 (fld w 23 19)) (BitVec.ofNat 5 (fld w 18 14))) else none
  | 32 => if fld w 13 9 = 0 then some (.sextw (BitVec.ofNat 5 (fld w 23 19)) (BitVec.ofNat 5 (fld w 18 14))) else none
  | 33 => if fld w 13 9 = 0 then some (.zextw (BitVec.ofNat 5 (fld w 23 19)) (BitVec.ofNat 5 (fld w 18 14))) else none
  | 34 => some (.selz (BitVec.ofNat 5 (fld w 23 19)) (BitVec.ofNat 5 (fld w 18 14)) (BitVec.ofNat 5 (fld w 13 9)))
  | 35 => some (.selnz (BitVec.ofNat 5 (fld w 23 19)) (BitVec.ofNat 5 (fld w 18 14)) (BitVec.ofNat 5 (fld w 13 9)))
  | 36 => some (.extv (BitVec.ofNat 5 (fld w 23 19)) (BitVec.ofNat 5 (fld w 18 14)) (BitVec.ofNat 5 (fld w 13 9)))
  | 37 => some (.insv (BitVec.ofNat 5 (fld w 23 19)) (BitVec.ofNat 5 (fld w 18 14)) (BitVec.ofNat 5 (fld w 13 9)))
  | 38 => some (.adds (BitVec.ofNat 5 (fld w 23 19)) (BitVec.ofNat 5 (fld w 18 14)) (BitVec.ofNat 5 (fld w 13 9)))
  | 39 => some (.subs (BitVec.ofNat 5 (fld w 23 19)) (BitVec.ofNat 5 (fld w 18 14)) (BitVec.ofNat 5 (fld w 13 9)))
  | _ => none

/-- Class ShiftI, W[31:24] = 0xC7. -/
def decShiftI (w : Nat) : Option Instr :=
  match fld w 13 12 with
  | 0 => if fld w 11 6 = 0 then some (.slli (BitVec.ofNat 5 (fld w 23 19)) (BitVec.ofNat 5 (fld w 18 14)) (BitVec.ofNat 6 (fld w 5 0))) else none
  | 1 => if fld w 11 6 = 0 then some (.srli (BitVec.ofNat 5 (fld w 23 19)) (BitVec.ofNat 5 (fld w 18 14)) (BitVec.ofNat 6 (fld w 5 0))) else none
  | 2 => if fld w 11 6 = 0 then some (.srai (BitVec.ofNat 5 (fld w 23 19)) (BitVec.ofNat 5 (fld w 18 14)) (BitVec.ofNat 6 (fld w 5 0))) else none
  | 3 => if fld w 11 6 = 0 then some (.roli (BitVec.ofNat 5 (fld w 23 19)) (BitVec.ofNat 5 (fld w 18 14)) (BitVec.ofNat 6 (fld w 5 0))) else none
  | _ => none

/-- Class Bitf, W[31:24] = 0xC8. -/
def decBitf (w : Nat) : Option Instr :=
  match fld w 7 6 with
  | 0 => some (.extu (BitVec.ofNat 5 (fld w 23 19)) (BitVec.ofNat 5 (fld w 18 14)) (BitVec.ofNat 6 (fld w 13 8)) (BitVec.ofNat 6 (fld w 5 0)))
  | 1 => some (.exts (BitVec.ofNat 5 (fld w 23 19)) (BitVec.ofNat 5 (fld w 18 14)) (BitVec.ofNat 6 (fld w 13 8)) (BitVec.ofNat 6 (fld w 5 0)))
  | 2 => some (.ins (BitVec.ofNat 5 (fld w 23 19)) (BitVec.ofNat 5 (fld w 18 14)) (BitVec.ofNat 6 (fld w 13 8)) (BitVec.ofNat 6 (fld w 5 0)))
  | _ => none

/-- Class StrandA, W[31:24] = 0xD8. -/
def decStrandA (w : Nat) : Option Instr :=
  match fld w 8 0 with
  | 0 => some (.fork (BitVec.ofNat 5 (fld w 23 19)) (BitVec.ofNat 5 (fld w 18 14)) (BitVec.ofNat 5 (fld w 13 9)))
  | 1 => if fld w 23 9 = 0 then some (.halt) else none
  | 2 => if fld w 23 19 = 0 then some (.haltk (BitVec.ofNat 5 (fld w 18 14)) (BitVec.ofNat 5 (fld w 13 9))) else none
  | 3 => if fld w 13 9 = 0 ∧ fld w 23 19 = 0 then some (.yield (BitVec.ofNat 5 (fld w 18 14))) else none
  | 4 => if fld w 13 9 = 0 ∧ fld w 23 19 = 0 then some (.wake (BitVec.ofNat 5 (fld w 18 14))) else none
  | _ => none

/-- Class MemA, W[31:24] = 0xE7. -/
def decMemA (w : Nat) : Option Instr :=
  match fld w 8 2 with
  | 0 => if fld w 13 9 = 0 then some (.ldacq (BitVec.ofNat 5 (fld w 23 19)) (BitVec.ofNat 5 (fld w 18 14)) (BitVec.ofNat 2 (fld w 1 0))) else none
  | 1 => if fld w 13 9 = 0 then some (.strel (BitVec.ofNat 5 (fld w 23 19)) (BitVec.ofNat 5 (fld w 18 14)) (BitVec.ofNat 2 (fld w 1 0))) else none
  | 2 => if fld w 1 0 = 0 ∧ fld w 23 14 = 0 then some (.fence (BitVec.ofNat 5 (fld w 13 9))) else if fld w 1 0 = 1 ∧ fld w 23 9 = 0 then some (.fenceI) else none
  | _ => none

/-- Class MsgA, W[31:24] = 0xE8. -/
def decMsgA (w : Nat) : Option Instr :=
  match fld w 8 0 with
  | 0 => some (.send (BitVec.ofNat 5 (fld w 23 19)) (BitVec.ofNat 5 (fld w 18 14)) (BitVec.ofNat 5 (fld w 13 9)))
  | 1 => some (.actm (BitVec.ofNat 5 (fld w 23 19)) (BitVec.ofNat 5 (fld w 18 14)) (BitVec.ofNat 5 (fld w 13 9)))
  | 2 => some (.mbpop (BitVec.ofNat 5 (fld w 23 19)) (BitVec.ofNat 5 (fld w 18 14)) (BitVec.ofNat 5 (fld w 13 9)))
  | 3 => if fld w 13 9 = 0 then some (.mbpeek (BitVec.ofNat 5 (fld w 23 19)) (BitVec.ofNat 5 (fld w 18 14))) else none
  | 4 => some (.mbwait (BitVec.ofNat 5 (fld w 23 19)) (BitVec.ofNat 5 (fld w 18 14)) (BitVec.ofNat 5 (fld w 13 9)))
  | 5 => some (.chld (BitVec.ofNat 5 (fld w 23 19)) (BitVec.ofNat 5 (fld w 18 14)) (BitVec.ofNat 5 (fld w 13 9)))
  | 6 => some (.chldv (BitVec.ofNat 5 (fld w 23 19)) (BitVec.ofNat 5 (fld w 18 14)) (BitVec.ofNat 5 (fld w 13 9)))
  | _ => none

/-- Class AmoA, W[31:24] = 0xE9. -/
def decAmoA (w : Nat) : Option Instr :=
  match fld w 3 0 with
  | 0 => if fld w 8 5 = 0 then some (.amoadd (BitVec.ofNat 5 (fld w 23 19)) (BitVec.ofNat 5 (fld w 18 14)) (BitVec.ofNat 5 (fld w 13 9)) (BitVec.ofNat 1 (fld w 4 4))) else none
  | 1 => if fld w 8 5 = 0 then some (.amoand (BitVec.ofNat 5 (fld w 23 19)) (BitVec.ofNat 5 (fld w 18 14)) (BitVec.ofNat 5 (fld w 13 9)) (BitVec.ofNat 1 (fld w 4 4))) else none
  | 2 => if fld w 8 5 = 0 then some (.amoor (BitVec.ofNat 5 (fld w 23 19)) (BitVec.ofNat 5 (fld w 18 14)) (BitVec.ofNat 5 (fld w 13 9)) (BitVec.ofNat 1 (fld w 4 4))) else none
  | 3 => if fld w 8 5 = 0 then some (.amoxor (BitVec.ofNat 5 (fld w 23 19)) (BitVec.ofNat 5 (fld w 18 14)) (BitVec.ofNat 5 (fld w 13 9)) (BitVec.ofNat 1 (fld w 4 4))) else none
  | 4 => if fld w 8 5 = 0 then some (.amomin (BitVec.ofNat 5 (fld w 23 19)) (BitVec.ofNat 5 (fld w 18 14)) (BitVec.ofNat 5 (fld w 13 9)) (BitVec.ofNat 1 (fld w 4 4))) else none
  | 5 => if fld w 8 5 = 0 then some (.amomax (BitVec.ofNat 5 (fld w 23 19)) (BitVec.ofNat 5 (fld w 18 14)) (BitVec.ofNat 5 (fld w 13 9)) (BitVec.ofNat 1 (fld w 4 4))) else none
  | 6 => if fld w 8 5 = 0 then some (.amominu (BitVec.ofNat 5 (fld w 23 19)) (BitVec.ofNat 5 (fld w 18 14)) (BitVec.ofNat 5 (fld w 13 9)) (BitVec.ofNat 1 (fld w 4 4))) else none
  | 7 => if fld w 8 5 = 0 then some (.amomaxu (BitVec.ofNat 5 (fld w 23 19)) (BitVec.ofNat 5 (fld w 18 14)) (BitVec.ofNat 5 (fld w 13 9)) (BitVec.ofNat 1 (fld w 4 4))) else none
  | 8 => if fld w 8 5 = 0 then some (.amoswap (BitVec.ofNat 5 (fld w 23 19)) (BitVec.ofNat 5 (fld w 18 14)) (BitVec.ofNat 5 (fld w 13 9)) (BitVec.ofNat 1 (fld w 4 4))) else none
  | 9 => if fld w 8 5 = 0 then some (.amocas (BitVec.ofNat 5 (fld w 23 19)) (BitVec.ofNat 5 (fld w 18 14)) (BitVec.ofNat 5 (fld w 13 9)) (BitVec.ofNat 1 (fld w 4 4))) else none
  | 10 => if fld w 8 5 = 0 then some (.amofadd (BitVec.ofNat 5 (fld w 23 19)) (BitVec.ofNat 5 (fld w 18 14)) (BitVec.ofNat 5 (fld w 13 9)) (BitVec.ofNat 1 (fld w 4 4))) else none
  | _ => none

/-- Class SyncA, W[31:24] = 0xEA. -/
def decSyncA (w : Nat) : Option Instr :=
  match fld w 8 0 with
  | 0 => some (.logapp (BitVec.ofNat 5 (fld w 23 19)) (BitVec.ofNat 5 (fld w 18 14)) (BitVec.ofNat 5 (fld w 13 9)))
  | 1 => if fld w 18 9 = 0 then some (.logseal (BitVec.ofNat 5 (fld w 23 19))) else none
  | 2 => some (.barset (BitVec.ofNat 5 (fld w 23 19)) (BitVec.ofNat 5 (fld w 18 14)) (BitVec.ofNat 5 (fld w 13 9)))
  | 3 => if fld w 13 9 = 0 then some (.barj (BitVec.ofNat 5 (fld w 23 19)) (BitVec.ofNat 5 (fld w 18 14))) else none
  | 4 => some (.barw (BitVec.ofNat 5 (fld w 23 19)) (BitVec.ofNat 5 (fld w 18 14)) (BitVec.ofNat 5 (fld w 13 9)))
  | 5 => if fld w 13 9 = 0 then some (.barq (BitVec.ofNat 5 (fld w 23 19)) (BitVec.ofNat 5 (fld w 18 14))) else none
  | 6 => some (.tladd (BitVec.ofNat 5 (fld w 23 19)) (BitVec.ofNat 5 (fld w 18 14)) (BitVec.ofNat 5 (fld w 13 9)))
  | 7 => some (.tlset (BitVec.ofNat 5 (fld w 23 19)) (BitVec.ofNat 5 (fld w 18 14)) (BitVec.ofNat 5 (fld w 13 9)))
  | 8 => if fld w 13 9 = 0 then some (.tlrd (BitVec.ofNat 5 (fld w 23 19)) (BitVec.ofNat 5 (fld w 18 14))) else none
  | 9 => some (.tlwait (BitVec.ofNat 5 (fld w 23 19)) (BitVec.ofNat 5 (fld w 18 14)) (BitVec.ofNat 5 (fld w 13 9)))
  | 10 => if fld w 13 9 = 0 then some (.tkt (BitVec.ofNat 5 (fld w 23 19)) (BitVec.ofNat 5 (fld w 18 14))) else none
  | 11 => some (.tkwait (BitVec.ofNat 5 (fld w 23 19)) (BitVec.ofNat 5 (fld w 18 14)) (BitVec.ofNat 5 (fld w 13 9)))
  | 12 => if fld w 13 9 = 0 then some (.tkdone (BitVec.ofNat 5 (fld w 23 19)) (BitVec.ofNat 5 (fld w 18 14))) else none
  | _ => none

/-- Class TaskA, W[31:24] = 0xEB. -/
def decTaskA (w : Nat) : Option Instr :=
  match fld w 8 0 with
  | 0 => some (.clinit (BitVec.ofNat 5 (fld w 23 19)) (BitVec.ofNat 5 (fld w 18 14)) (BitVec.ofNat 5 (fld w 13 9)))
  | 1 => if fld w 13 9 = 0 then some (.cldec (BitVec.ofNat 5 (fld w 23 19)) (BitVec.ofNat 5 (fld w 18 14))) else none
  | 2 => if fld w 13 9 = 0 then some (.clpush (BitVec.ofNat 5 (fld w 23 19)) (BitVec.ofNat 5 (fld w 18 14))) else none
  | 3 => if fld w 23 14 = 0 then some (.clend (BitVec.ofNat 5 (fld w 13 9))) else none
  | 4 => some (.qpush (BitVec.ofNat 5 (fld w 23 19)) (BitVec.ofNat 5 (fld w 18 14)) (BitVec.ofNat 5 (fld w 13 9)))
  | 5 => if fld w 13 9 = 0 then some (.qpop (BitVec.ofNat 5 (fld w 23 19)) (BitVec.ofNat 5 (fld w 18 14))) else none
  | 6 => some (.qpopw (BitVec.ofNat 5 (fld w 23 19)) (BitVec.ofNat 5 (fld w 18 14)) (BitVec.ofNat 5 (fld w 13 9)))
  | 7 => some (.chnk (BitVec.ofNat 5 (fld w 23 19)) (BitVec.ofNat 5 (fld w 18 14)) (BitVec.ofNat 5 (fld w 13 9)))
  | _ => none

/-- Class EngA, W[31:24] = 0xEC. -/
def decEngA (w : Nat) : Option Instr :=
  match fld w 8 0 with
  | 0 => if fld w 13 9 = 0 then some (.cpy (BitVec.ofNat 5 (fld w 23 19)) (BitVec.ofNat 5 (fld w 18 14))) else none
  | 1 => if fld w 13 9 = 0 then some (.cpyg (BitVec.ofNat 5 (fld w 23 19)) (BitVec.ofNat 5 (fld w 18 14))) else none
  | 2 => if fld w 13 9 = 0 then some (.cpys (BitVec.ofNat 5 (fld w 23 19)) (BitVec.ofNat 5 (fld w 18 14))) else none
  | 3 => some (.publish (BitVec.ofNat 5 (fld w 23 19)) (BitVec.ofNat 5 (fld w 18 14)) (BitVec.ofNat 5 (fld w 13 9)))
  | 4 => if fld w 13 9 = 0 then some (.htst (BitVec.ofNat 5 (fld w 23 19)) (BitVec.ofNat 5 (fld w 18 14))) else none
  | 5 => if fld w 13 9 = 0 then some (.hwait (BitVec.ofNat 5 (fld w 23 19)) (BitVec.ofNat 5 (fld w 18 14))) else none
  | 6 => if fld w 13 9 = 0 then some (.hdet (BitVec.ofNat 5 (fld w 23 19)) (BitVec.ofNat 5 (fld w 18 14))) else none
  | 7 => if fld w 13 9 = 0 then some (.hcan (BitVec.ofNat 5 (fld w 23 19)) (BitVec.ofNat 5 (fld w 18 14))) else none
  | 8 => if fld w 13 9 = 0 then some (.mcrd (BitVec.ofNat 5 (fld w 23 19)) (BitVec.ofNat 5 (fld w 18 14))) else none
  | 9 => if fld w 13 9 = 0 then some (.mcwr (BitVec.ofNat 5 (fld w 23 19)) (BitVec.ofNat 5 (fld w 18 14))) else none
  | 10 => if fld w 13 9 = 0 then some (.pusht (BitVec.ofNat 5 (fld w 23 19)) (BitVec.ofNat 5 (fld w 18 14))) else none
  | _ => none

/-- Class MxA, W[31:24] = 0xED. -/
def decMxA (w : Nat) : Option Instr :=
  match fld w 8 0 with
  | 0 => some (.mma (BitVec.ofNat 3 (fld w 23 21)) (BitVec.ofNat 2 (fld w 20 19)) (BitVec.ofNat 5 (fld w 18 14)) (BitVec.ofNat 5 (fld w 13 9)))
  | 1 => some (.mmag (BitVec.ofNat 3 (fld w 23 21)) (BitVec.ofNat 2 (fld w 20 19)) (BitVec.ofNat 5 (fld w 18 14)) (BitVec.ofNat 5 (fld w 13 9)))
  | 2 => if fld w 18 14 = 0 then some (.mxzero (BitVec.ofNat 5 (fld w 23 19)) (BitVec.ofNat 5 (fld w 13 9))) else none
  | 3 => some (.mxlda (BitVec.ofNat 5 (fld w 23 19)) (BitVec.ofNat 5 (fld w 18 14)) (BitVec.ofNat 5 (fld w 13 9)))
  | 4 => some (.mxst (BitVec.ofNat 5 (fld w 23 19)) (BitVec.ofNat 5 (fld w 18 14)) (BitVec.ofNat 5 (fld w 13 9)))
  | 5 => if fld w 13 9 = 0 ∧ fld w 23 19 = 0 then some (.mxepi (BitVec.ofNat 5 (fld w 18 14))) else none
  | _ => none

/-- Class PopA, W[31:24] = 0xEE. -/
def decPopA (w : Nat) : Option Instr :=
  match fld w 8 0 with
  | 0 => if fld w 13 9 = 0 then some (.fitset (BitVec.ofNat 5 (fld w 23 19)) (BitVec.ofNat 5 (fld w 18 14))) else none
  | 1 => if fld w 13 9 = 0 then some (.fitget (BitVec.ofNat 5 (fld w 23 19)) (BitVec.ofNat 5 (fld w 18 14))) else none
  | 2 => if fld w 13 9 = 0 then some (.poprank (BitVec.ofNat 5 (fld w 23 19)) (BitVec.ofNat 5 (fld w 18 14))) else none
  | 3 => if fld w 13 9 = 0 then some (.blend (BitVec.ofNat 5 (fld w 23 19)) (BitVec.ofNat 5 (fld w 18 14))) else none
  | 4 => if fld w 13 9 = 0 then some (.blendx (BitVec.ofNat 5 (fld w 23 19)) (BitVec.ofNat 5 (fld w 18 14))) else none
  | 5 => some (.linrd (BitVec.ofNat 5 (fld w 23 19)) (BitVec.ofNat 5 (fld w 18 14)) (BitVec.ofNat 5 (fld w 13 9)))
  | _ => none

/-- Class CollA, W[31:24] = 0xEF. -/
def decCollA (w : Nat) : Option Instr :=
  match fld w 8 0 with
  | 0 => if fld w 13 9 = 0 then some (.coll (BitVec.ofNat 5 (fld w 23 19)) (BitVec.ofNat 5 (fld w 18 14))) else none
  | 1 => if fld w 13 9 = 0 then some (.cabort (BitVec.ofNat 5 (fld w 23 19)) (BitVec.ofNat 5 (fld w 18 14))) else none
  | 2 => some (.catt (BitVec.ofNat 5 (fld w 23 19)) (BitVec.ofNat 5 (fld w 18 14)) (BitVec.ofNat 5 (fld w 13 9)))
  | _ => none

/-- Class FpA, W[31:24] = 0xF0. -/
def decFpA (w : Nat) : Option Instr :=
  match fld w 8 1 with
  | 0 => some (.fadd (BitVec.ofNat 5 (fld w 23 19)) (BitVec.ofNat 5 (fld w 18 14)) (BitVec.ofNat 5 (fld w 13 9)) (BitVec.ofNat 1 (fld w 0 0)))
  | 1 => some (.fsub (BitVec.ofNat 5 (fld w 23 19)) (BitVec.ofNat 5 (fld w 18 14)) (BitVec.ofNat 5 (fld w 13 9)) (BitVec.ofNat 1 (fld w 0 0)))
  | 2 => some (.fmul (BitVec.ofNat 5 (fld w 23 19)) (BitVec.ofNat 5 (fld w 18 14)) (BitVec.ofNat 5 (fld w 13 9)) (BitVec.ofNat 1 (fld w 0 0)))
  | 3 => some (.fdiv (BitVec.ofNat 5 (fld w 23 19)) (BitVec.ofNat 5 (fld w 18 14)) (BitVec.ofNat 5 (fld w 13 9)) (BitVec.ofNat 1 (fld w 0 0)))
  | 4 => if fld w 13 9 = 0 then some (.fsqrt (BitVec.ofNat 5 (fld w 23 19)) (BitVec.ofNat 5 (fld w 18 14)) (BitVec.ofNat 1 (fld w 0 0))) else none
  | 5 => some (.fmin (BitVec.ofNat 5 (fld w 23 19)) (BitVec.ofNat 5 (fld w 18 14)) (BitVec.ofNat 5 (fld w 13 9)) (BitVec.ofNat 1 (fld w 0 0)))
  | 6 => some (.fmax (BitVec.ofNat 5 (fld w 23 19)) (BitVec.ofNat 5 (fld w 18 14)) (BitVec.ofNat 5 (fld w 13 9)) (BitVec.ofNat 1 (fld w 0 0)))
  | 7 => some (.feq (BitVec.ofNat 5 (fld w 23 19)) (BitVec.ofNat 5 (fld w 18 14)) (BitVec.ofNat 5 (fld w 13 9)) (BitVec.ofNat 1 (fld w 0 0)))
  | 8 => some (.flt (BitVec.ofNat 5 (fld w 23 19)) (BitVec.ofNat 5 (fld w 18 14)) (BitVec.ofNat 5 (fld w 13 9)) (BitVec.ofNat 1 (fld w 0 0)))
  | 9 => some (.fle (BitVec.ofNat 5 (fld w 23 19)) (BitVec.ofNat 5 (fld w 18 14)) (BitVec.ofNat 5 (fld w 13 9)) (BitVec.ofNat 1 (fld w 0 0)))
  | 10 => if fld w 13 9 = 0 then some (.fclass (BitVec.ofNat 5 (fld w 23 19)) (BitVec.ofNat 5 (fld w 18 14)) (BitVec.ofNat 1 (fld w 0 0))) else none
  | 11 => some (.fsgnj (BitVec.ofNat 5 (fld w 23 19)) (BitVec.ofNat 5 (fld w 18 14)) (BitVec.ofNat 5 (fld w 13 9)) (BitVec.ofNat 1 (fld w 0 0)))
  | 12 => some (.fsgnjn (BitVec.ofNat 5 (fld w 23 19)) (BitVec.ofNat 5 (fld w 18 14)) (BitVec.ofNat 5 (fld w 13 9)) (BitVec.ofNat 1 (fld w 0 0)))
  | 13 => if fld w 13 12 = 0 then some (.fcvtFi (BitVec.ofNat 5 (fld w 23 19)) (BitVec.ofNat 5 (fld w 18 14)) (BitVec.ofNat 3 (fld w 11 9)) (BitVec.ofNat 1 (fld w 0 0))) else none
  | 14 => if fld w 13 11 = 0 then some (.fcvtIf (BitVec.ofNat 5 (fld w 23 19)) (BitVec.ofNat 5 (fld w 18 14)) (BitVec.ofNat 2 (fld w 10 9)) (BitVec.ofNat 1 (fld w 0 0))) else none
  | 15 => if fld w 13 9 = 0 then some (.fcvtP (BitVec.ofNat 5 (fld w 23 19)) (BitVec.ofNat 5 (fld w 18 14)) (BitVec.ofNat 1 (fld w 0 0))) else none
  | 16 => if fld w 13 9 = 0 then some (.fsin (BitVec.ofNat 5 (fld w 23 19)) (BitVec.ofNat 5 (fld w 18 14)) (BitVec.ofNat 1 (fld w 0 0))) else none
  | 17 => if fld w 13 9 = 0 then some (.fcos (BitVec.ofNat 5 (fld w 23 19)) (BitVec.ofNat 5 (fld w 18 14)) (BitVec.ofNat 1 (fld w 0 0))) else none
  | 18 => if fld w 13 9 = 0 then some (.fexp2 (BitVec.ofNat 5 (fld w 23 19)) (BitVec.ofNat 5 (fld w 18 14)) (BitVec.ofNat 1 (fld w 0 0))) else none
  | 19 => if fld w 13 9 = 0 then some (.flog2 (BitVec.ofNat 5 (fld w 23 19)) (BitVec.ofNat 5 (fld w 18 14)) (BitVec.ofNat 1 (fld w 0 0))) else none
  | _ => none

/-- Class FmaA, W[31:24] = 0xF1. -/
def decFmaA (w : Nat) : Option Instr :=
  match fld w 8 1 with
  | 0 => some (.fma (BitVec.ofNat 5 (fld w 23 19)) (BitVec.ofNat 5 (fld w 18 14)) (BitVec.ofNat 5 (fld w 13 9)) (BitVec.ofNat 1 (fld w 0 0)))
  | 1 => some (.fms (BitVec.ofNat 5 (fld w 23 19)) (BitVec.ofNat 5 (fld w 18 14)) (BitVec.ofNat 5 (fld w 13 9)) (BitVec.ofNat 1 (fld w 0 0)))
  | 2 => some (.fnma (BitVec.ofNat 5 (fld w 23 19)) (BitVec.ofNat 5 (fld w 18 14)) (BitVec.ofNat 5 (fld w 13 9)) (BitVec.ofNat 1 (fld w 0 0)))
  | _ => none

/-- Class SysA, W[31:24] = 0xF2. -/
def decSysA (w : Nat) : Option Instr :=
  match fld w 8 0 with
  | 0 => if fld w 13 9 = 0 then some (.mfc (BitVec.ofNat 5 (fld w 23 19)) (BitVec.ofNat 5 (fld w 18 14))) else none
  | 1 => if fld w 23 19 = 0 then some (.mtc (BitVec.ofNat 5 (fld w 18 14)) (BitVec.ofNat 5 (fld w 13 9))) else none
  | 2 => if fld w 13 9 = 0 ∧ fld w 23 19 = 0 then some (.trap (BitVec.ofNat 5 (fld w 18 14))) else none
  | 3 => if fld w 23 9 = 0 then some (.eret) else none
  | 4 => some (.segld (BitVec.ofNat 5 (fld w 23 19)) (BitVec.ofNat 5 (fld w 18 14)) (BitVec.ofNat 5 (fld w 13 9)))
  | 5 => some (.segst (BitVec.ofNat 5 (fld w 23 19)) (BitVec.ofNat 5 (fld w 18 14)) (BitVec.ofNat 5 (fld w 13 9)))
  | 6 => if fld w 23 9 = 0 then some (.bkpt) else none
  | _ => none

/-- Class VArith, W[31:24] = 0xF4. -/
def decVArith (w : Nat) : Option Instr :=
  match fld w 4 0 with
  | 0 => some (.vadd (BitVec.ofNat 5 (fld w 23 19)) (BitVec.ofNat 5 (fld w 18 14)) (BitVec.ofNat 5 (fld w 13 9)) (BitVec.ofNat 4 (fld w 8 5)))
  | 1 => some (.vsub (BitVec.ofNat 5 (fld w 23 19)) (BitVec.ofNat 5 (fld w 18 14)) (BitVec.ofNat 5 (fld w 13 9)) (BitVec.ofNat 4 (fld w 8 5)))
  | 2 => some (.vmul (BitVec.ofNat 5 (fld w 23 19)) (BitVec.ofNat 5 (fld w 18 14)) (BitVec.ofNat 5 (fld w 13 9)) (BitVec.ofNat 4 (fld w 8 5)))
  | 3 => some (.vfma (BitVec.ofNat 5 (fld w 23 19)) (BitVec.ofNat 5 (fld w 18 14)) (BitVec.ofNat 5 (fld w 13 9)) (BitVec.ofNat 4 (fld w 8 5)))
  | 4 => some (.vmin (BitVec.ofNat 5 (fld w 23 19)) (BitVec.ofNat 5 (fld w 18 14)) (BitVec.ofNat 5 (fld w 13 9)) (BitVec.ofNat 4 (fld w 8 5)))
  | 5 => some (.vmax (BitVec.ofNat 5 (fld w 23 19)) (BitVec.ofNat 5 (fld w 18 14)) (BitVec.ofNat 5 (fld w 13 9)) (BitVec.ofNat 4 (fld w 8 5)))
  | 6 => if fld w 13 9 = 0 then some (.vabs (BitVec.ofNat 5 (fld w 23 19)) (BitVec.ofNat 5 (fld w 18 14)) (BitVec.ofNat 4 (fld w 8 5))) else none
  | 7 => if fld w 13 9 = 0 then some (.vneg (BitVec.ofNat 5 (fld w 23 19)) (BitVec.ofNat 5 (fld w 18 14)) (BitVec.ofNat 4 (fld w 8 5))) else none
  | 8 => some (.vand (BitVec.ofNat 5 (fld w 23 19)) (BitVec.ofNat 5 (fld w 18 14)) (BitVec.ofNat 5 (fld w 13 9)) (BitVec.ofNat 4 (fld w 8 5)))
  | 9 => some (.vor (BitVec.ofNat 5 (fld w 23 19)) (BitVec.ofNat 5 (fld w 18 14)) (BitVec.ofNat 5 (fld w 13 9)) (BitVec.ofNat 4 (fld w 8 5)))
  | 10 => some (.vxor (BitVec.ofNat 5 (fld w 23 19)) (BitVec.ofNat 5 (fld w 18 14)) (BitVec.ofNat 5 (fld w 13 9)) (BitVec.ofNat 4 (fld w 8 5)))
  | 11 => some (.vshl (BitVec.ofNat 5 (fld w 23 19)) (BitVec.ofNat 5 (fld w 18 14)) (BitVec.ofNat 5 (fld w 13 9)) (BitVec.ofNat 4 (fld w 8 5)))
  | 12 => some (.vshr (BitVec.ofNat 5 (fld w 23 19)) (BitVec.ofNat 5 (fld w 18 14)) (BitVec.ofNat 5 (fld w 13 9)) (BitVec.ofNat 4 (fld w 8 5)))
  | 13 => some (.vsra (BitVec.ofNat 5 (fld w 23 19)) (BitVec.ofNat 5 (fld w 18 14)) (BitVec.ofNat 5 (fld w 13 9)) (BitVec.ofNat 4 (fld w 8 5)))
  | 14 => some (.vadds (BitVec.ofNat 5 (fld w 23 19)) (BitVec.ofNat 5 (fld w 18 14)) (BitVec.ofNat 5 (fld w 13 9)) (BitVec.ofNat 4 (fld w 8 5)))
  | 15 => some (.vsubs (BitVec.ofNat 5 (fld w 23 19)) (BitVec.ofNat 5 (fld w 18 14)) (BitVec.ofNat 5 (fld w 13 9)) (BitVec.ofNat 4 (fld w 8 5)))
  | 16 => some (.vmulh (BitVec.ofNat 5 (fld w 23 19)) (BitVec.ofNat 5 (fld w 18 14)) (BitVec.ofNat 5 (fld w 13 9)) (BitVec.ofNat 4 (fld w 8 5)))
  | 17 => some (.vdiv (BitVec.ofNat 5 (fld w 23 19)) (BitVec.ofNat 5 (fld w 18 14)) (BitVec.ofNat 5 (fld w 13 9)) (BitVec.ofNat 4 (fld w 8 5)))
  | _ => none

/-- Class VMisc, W[31:24] = 0xF5. -/
def decVMisc (w : Nat) : Option Instr :=
  match fld w 4 0 with
  | 0 => some (.vcmpeq (BitVec.ofNat 5 (fld w 23 19)) (BitVec.ofNat 5 (fld w 18 14)) (BitVec.ofNat 5 (fld w 13 9)) (BitVec.ofNat 4 (fld w 8 5)))
  | 1 => some (.vcmplt (BitVec.ofNat 5 (fld w 23 19)) (BitVec.ofNat 5 (fld w 18 14)) (BitVec.ofNat 5 (fld w 13 9)) (BitVec.ofNat 4 (fld w 8 5)))
  | 2 => some (.vcmple (BitVec.ofNat 5 (fld w 23 19)) (BitVec.ofNat 5 (fld w 18 14)) (BitVec.ofNat 5 (fld w 13 9)) (BitVec.ofNat 4 (fld w 8 5)))
  | 3 => some (.vsel (BitVec.ofNat 5 (fld w 23 19)) (BitVec.ofNat 5 (fld w 18 14)) (BitVec.ofNat 5 (fld w 13 9)) (BitVec.ofNat 4 (fld w 8 5)))
  | 4 => some (.vshuf (BitVec.ofNat 5 (fld w 23 19)) (BitVec.ofNat 5 (fld w 18 14)) (BitVec.ofNat 5 (fld w 13 9)) (BitVec.ofNat 4 (fld w 8 5)))
  | 5 => if fld w 13 9 = 0 then some (.vbcast (BitVec.ofNat 5 (fld w 23 19)) (BitVec.ofNat 5 (fld w 18 14)) (BitVec.ofNat 4 (fld w 8 5))) else none
  | 6 => some (.vextr (BitVec.ofNat 5 (fld w 23 19)) (BitVec.ofNat 5 (fld w 18 14)) (BitVec.ofNat 5 (fld w 13 9)) (BitVec.ofNat 4 (fld w 8 5)))
  | 7 => some (.vins (BitVec.ofNat 5 (fld w 23 19)) (BitVec.ofNat 5 (fld w 18 14)) (BitVec.ofNat 5 (fld w 13 9)) (BitVec.ofNat 4 (fld w 8 5)))
  | 8 => if fld w 13 9 = 0 then some (.vredadd (BitVec.ofNat 5 (fld w 23 19)) (BitVec.ofNat 5 (fld w 18 14)) (BitVec.ofNat 4 (fld w 8 5))) else none
  | 9 => if fld w 13 9 = 0 then some (.vredmax (BitVec.ofNat 5 (fld w 23 19)) (BitVec.ofNat 5 (fld w 18 14)) (BitVec.ofNat 4 (fld w 8 5))) else none
  | 10 => if fld w 13 9 = 0 then some (.vredmin (BitVec.ofNat 5 (fld w 23 19)) (BitVec.ofNat 5 (fld w 18 14)) (BitVec.ofNat 4 (fld w 8 5))) else none
  | 11 => some (.vdot (BitVec.ofNat 5 (fld w 23 19)) (BitVec.ofNat 5 (fld w 18 14)) (BitVec.ofNat 5 (fld w 13 9)) (BitVec.ofNat 4 (fld w 8 5)))
  | 12 => if fld w 13 9 = 0 then some (.vmov (BitVec.ofNat 5 (fld w 23 19)) (BitVec.ofNat 5 (fld w 18 14)) (BitVec.ofNat 4 (fld w 8 5))) else none
  | _ => none

/-- Class VSfu, W[31:24] = 0xF7. -/
def decVSfu (w : Nat) : Option Instr :=
  match fld w 4 0 with
  | 0 => if fld w 13 9 = 0 then some (.vrcp (BitVec.ofNat 5 (fld w 23 19)) (BitVec.ofNat 5 (fld w 18 14)) (BitVec.ofNat 4 (fld w 8 5))) else none
  | 1 => if fld w 13 9 = 0 then some (.vrsq (BitVec.ofNat 5 (fld w 23 19)) (BitVec.ofNat 5 (fld w 18 14)) (BitVec.ofNat 4 (fld w 8 5))) else none
  | 2 => if fld w 13 9 = 0 then some (.vexp2 (BitVec.ofNat 5 (fld w 23 19)) (BitVec.ofNat 5 (fld w 18 14)) (BitVec.ofNat 4 (fld w 8 5))) else none
  | 3 => if fld w 13 9 = 0 then some (.vlog2 (BitVec.ofNat 5 (fld w 23 19)) (BitVec.ofNat 5 (fld w 18 14)) (BitVec.ofNat 4 (fld w 8 5))) else none
  | 4 => if fld w 13 9 = 0 then some (.vsin (BitVec.ofNat 5 (fld w 23 19)) (BitVec.ofNat 5 (fld w 18 14)) (BitVec.ofNat 4 (fld w 8 5))) else none
  | 5 => if fld w 13 9 = 0 then some (.vcos (BitVec.ofNat 5 (fld w 23 19)) (BitVec.ofNat 5 (fld w 18 14)) (BitVec.ofNat 4 (fld w 8 5))) else none
  | 6 => if fld w 13 9 = 0 then some (.vtanh (BitVec.ofNat 5 (fld w 23 19)) (BitVec.ofNat 5 (fld w 18 14)) (BitVec.ofNat 4 (fld w 8 5))) else none
  | 7 => if fld w 13 9 = 0 then some (.vsigm (BitVec.ofNat 5 (fld w 23 19)) (BitVec.ofNat 5 (fld w 18 14)) (BitVec.ofNat 4 (fld w 8 5))) else none
  | _ => none

/-- The 32-bit instruction word W: the major opcode map of R46. `none` in the first place: a reserved op6. -/
def decWord (w : Nat) : Option (Option Instr) :=
  match fld w 31 24 with
  | 0xC0 => some (decIntA w)
  | 0xC1 => some (some (.addi (BitVec.ofNat 5 (fld w 23 19)) (BitVec.ofNat 5 (fld w 18 14)) (BitVec.ofNat 14 (fld w 13 0))))
  | 0xC2 => some (some (.andi (BitVec.ofNat 5 (fld w 23 19)) (BitVec.ofNat 5 (fld w 18 14)) (BitVec.ofNat 14 (fld w 13 0))))
  | 0xC3 => some (some (.ori (BitVec.ofNat 5 (fld w 23 19)) (BitVec.ofNat 5 (fld w 18 14)) (BitVec.ofNat 14 (fld w 13 0))))
  | 0xC4 => some (some (.xori (BitVec.ofNat 5 (fld w 23 19)) (BitVec.ofNat 5 (fld w 18 14)) (BitVec.ofNat 14 (fld w 13 0))))
  | 0xC5 => some (some (.slti (BitVec.ofNat 5 (fld w 23 19)) (BitVec.ofNat 5 (fld w 18 14)) (BitVec.ofNat 14 (fld w 13 0))))
  | 0xC6 => some (some (.sltiu (BitVec.ofNat 5 (fld w 23 19)) (BitVec.ofNat 5 (fld w 18 14)) (BitVec.ofNat 14 (fld w 13 0))))
  | 0xC7 => some (decShiftI w)
  | 0xC8 => some (decBitf w)
  | 0xC9 => some (some (.li (BitVec.ofNat 5 (fld w 23 19)) (BitVec.ofNat 19 (fld w 18 0))))
  | 0xCA => some (if fld w 18 16 = 0 then some (.lish (BitVec.ofNat 5 (fld w 23 19)) (BitVec.ofNat 16 (fld w 15 0))) else none)
  | 0xCB => some (some (.addpc (BitVec.ofNat 5 (fld w 23 19)) (BitVec.ofNat 19 (fld w 18 0))))
  | 0xD0 => some (some (.beq (BitVec.ofNat 5 (fld w 23 19)) (BitVec.ofNat 5 (fld w 18 14)) (BitVec.ofNat 14 (fld w 13 0))))
  | 0xD1 => some (some (.bne (BitVec.ofNat 5 (fld w 23 19)) (BitVec.ofNat 5 (fld w 18 14)) (BitVec.ofNat 14 (fld w 13 0))))
  | 0xD2 => some (some (.blt (BitVec.ofNat 5 (fld w 23 19)) (BitVec.ofNat 5 (fld w 18 14)) (BitVec.ofNat 14 (fld w 13 0))))
  | 0xD3 => some (some (.bge (BitVec.ofNat 5 (fld w 23 19)) (BitVec.ofNat 5 (fld w 18 14)) (BitVec.ofNat 14 (fld w 13 0))))
  | 0xD4 => some (some (.bltu (BitVec.ofNat 5 (fld w 23 19)) (BitVec.ofNat 5 (fld w 18 14)) (BitVec.ofNat 14 (fld w 13 0))))
  | 0xD5 => some (some (.bgeu (BitVec.ofNat 5 (fld w 23 19)) (BitVec.ofNat 5 (fld w 18 14)) (BitVec.ofNat 14 (fld w 13 0))))
  | 0xD6 => some (some (.jal (BitVec.ofNat 5 (fld w 23 19)) (BitVec.ofNat 19 (fld w 18 0))))
  | 0xD7 => some (some (.jalr (BitVec.ofNat 5 (fld w 23 19)) (BitVec.ofNat 5 (fld w 18 14)) (BitVec.ofNat 14 (fld w 13 0))))
  | 0xD8 => some (decStrandA w)
  | 0xD9 => some (some (.bsig (BitVec.ofNat 24 (fld w 23 0))))
  | 0xDC => some (some (.ldb (BitVec.ofNat 5 (fld w 23 19)) (BitVec.ofNat 5 (fld w 18 14)) (BitVec.ofNat 14 (fld w 13 0))))
  | 0xDD => some (some (.ldbu (BitVec.ofNat 5 (fld w 23 19)) (BitVec.ofNat 5 (fld w 18 14)) (BitVec.ofNat 14 (fld w 13 0))))
  | 0xDE => some (some (.ldh (BitVec.ofNat 5 (fld w 23 19)) (BitVec.ofNat 5 (fld w 18 14)) (BitVec.ofNat 14 (fld w 13 0))))
  | 0xDF => some (some (.ldhu (BitVec.ofNat 5 (fld w 23 19)) (BitVec.ofNat 5 (fld w 18 14)) (BitVec.ofNat 14 (fld w 13 0))))
  | 0xE0 => some (some (.ldw (BitVec.ofNat 5 (fld w 23 19)) (BitVec.ofNat 5 (fld w 18 14)) (BitVec.ofNat 14 (fld w 13 0))))
  | 0xE1 => some (some (.ldwu (BitVec.ofNat 5 (fld w 23 19)) (BitVec.ofNat 5 (fld w 18 14)) (BitVec.ofNat 14 (fld w 13 0))))
  | 0xE2 => some (some (.ldd (BitVec.ofNat 5 (fld w 23 19)) (BitVec.ofNat 5 (fld w 18 14)) (BitVec.ofNat 14 (fld w 13 0))))
  | 0xE3 => some (some (.stb (BitVec.ofNat 5 (fld w 23 19)) (BitVec.ofNat 5 (fld w 18 14)) (BitVec.ofNat 14 (fld w 13 0))))
  | 0xE4 => some (some (.sth (BitVec.ofNat 5 (fld w 23 19)) (BitVec.ofNat 5 (fld w 18 14)) (BitVec.ofNat 14 (fld w 13 0))))
  | 0xE5 => some (some (.stw (BitVec.ofNat 5 (fld w 23 19)) (BitVec.ofNat 5 (fld w 18 14)) (BitVec.ofNat 14 (fld w 13 0))))
  | 0xE6 => some (some (.std (BitVec.ofNat 5 (fld w 23 19)) (BitVec.ofNat 5 (fld w 18 14)) (BitVec.ofNat 14 (fld w 13 0))))
  | 0xE7 => some (decMemA w)
  | 0xE8 => some (decMsgA w)
  | 0xE9 => some (decAmoA w)
  | 0xEA => some (decSyncA w)
  | 0xEB => some (decTaskA w)
  | 0xEC => some (decEngA w)
  | 0xED => some (decMxA w)
  | 0xEE => some (decPopA w)
  | 0xEF => some (decCollA w)
  | 0xF0 => some (decFpA w)
  | 0xF1 => some (decFmaA w)
  | 0xF2 => some (decSysA w)
  | 0xF4 => some (decVArith w)
  | 0xF5 => some (decVMisc w)
  | 0xF6 => some (if fld w 13 13 = 0 then some (.vcvt (BitVec.ofNat 5 (fld w 23 19)) (BitVec.ofNat 5 (fld w 18 14)) (BitVec.ofNat 4 (fld w 12 9)) (BitVec.ofNat 4 (fld w 8 5)) (BitVec.ofNat 5 (fld w 4 0))) else none)
  | 0xF7 => some (decVSfu w)
  | 0xF8 => some (some (.vld (BitVec.ofNat 5 (fld w 23 19)) (BitVec.ofNat 5 (fld w 18 14)) (BitVec.ofNat 14 (fld w 13 0))))
  | 0xF9 => some (some (.vst (BitVec.ofNat 5 (fld w 23 19)) (BitVec.ofNat 5 (fld w 18 14)) (BitVec.ofNat 14 (fld w 13 0))))
  | _ => none

/-- One compact parcel P (R44): op4 = P[15:12]. -/
def decParcel (w : Nat) : Option Instr :=
  match fld w 15 12 with
  | 0 => if fld w 3 0 = 0 then some (.movK (BitVec.ofNat 4 (fld w 11 8)) (BitVec.ofNat 4 (fld w 7 4))) else none
  | 1 => some (.addK (BitVec.ofNat 4 (fld w 11 8)) (BitVec.ofNat 4 (fld w 7 4)) (BitVec.ofNat 4 (fld w 3 0)))
  | 2 => some (.subK (BitVec.ofNat 4 (fld w 11 8)) (BitVec.ofNat 4 (fld w 7 4)) (BitVec.ofNat 4 (fld w 3 0)))
  | 3 => some (.andK (BitVec.ofNat 4 (fld w 11 8)) (BitVec.ofNat 4 (fld w 7 4)) (BitVec.ofNat 4 (fld w 3 0)))
  | 4 => some (.orK (BitVec.ofNat 4 (fld w 11 8)) (BitVec.ofNat 4 (fld w 7 4)) (BitVec.ofNat 4 (fld w 3 0)))
  | 5 => some (.xorK (BitVec.ofNat 4 (fld w 11 8)) (BitVec.ofNat 4 (fld w 7 4)) (BitVec.ofNat 4 (fld w 3 0)))
  | 6 => some (.addiK (BitVec.ofNat 4 (fld w 11 8)) (BitVec.ofNat 4 (fld w 7 4)) (BitVec.ofNat 4 (fld w 3 0)))
  | 7 => some (.slliK (BitVec.ofNat 4 (fld w 11 8)) (BitVec.ofNat 4 (fld w 7 4)) (BitVec.ofNat 4 (fld w 3 0)))
  | 8 => some (.lddK (BitVec.ofNat 4 (fld w 11 8)) (BitVec.ofNat 4 (fld w 7 4)) (BitVec.ofNat 4 (fld w 3 0)))
  | 9 => some (.stdK (BitVec.ofNat 4 (fld w 11 8)) (BitVec.ofNat 4 (fld w 7 4)) (BitVec.ofNat 4 (fld w 3 0)))
  | 10 => some (.beqz (BitVec.ofNat 4 (fld w 11 8)) (BitVec.ofNat 8 (fld w 7 0)))
  | 11 => some (.bnez (BitVec.ofNat 4 (fld w 11 8)) (BitVec.ofNat 8 (fld w 7 0)))
  | _ => none

/-- Keep a decoded instruction only if it is well-formed (R50). -/
def checkWf (i : Instr) : Except Reject Instr := if i.wf then .ok i else .error .badField

/-- Decode a 32-bit instruction from its word W. -/
def decode32 (w : Nat) : Except Reject Instr :=
  match decWord w with
  | none => .error .reservedOp
  | some none => .error .unassigned
  | some (some i) => checkWf i

/-- Decode a compact instruction from its parcel. -/
def decode16 (p : Nat) : Except Reject Instr :=
  if p = 0 then .error .zeroParcel
  else match decParcel p with
    | none => .error .unassigned
    | some i => checkWf i

/-- Whether a first parcel begins a 32-bit instruction: bits [15:14] = 0b11 (R36). -/
def isLong (p : Nat) : Bool := fld p 15 14 == 3

/-- The parcel in two bytes, little-endian (00_scope R3). -/
def parcelOf (b0 b1 : BitVec 8) : Nat := b1.toNat * 256 + b0.toNat

/-- Decode the instruction at the head of a byte list, with the bytes after it; total on any bytes. -/
def decode : List (BitVec 8) → Except Reject (Instr × List (BitVec 8))
  | b0 :: b1 :: rest =>
    let p0 := parcelOf b0 b1
    if isLong p0 then
      match rest with
      | b2 :: b3 :: rest' =>
        match decode32 (p0 * 65536 + parcelOf b2 b3) with
        | .ok i => .ok (i, rest')
        | .error e => .error e
      | _ => .error .short
    else
      match decode16 p0 with
      | .ok i => .ok (i, rest)
      | .error e => .error e
  | _ => .error .short

/-- The number of parcels of an instruction's encoding; 0 for a device step. -/
def Instr.parcels : Instr → Nat
  | .movK .. => 1
  | .addK .. => 1
  | .subK .. => 1
  | .andK .. => 1
  | .orK .. => 1
  | .xorK .. => 1
  | .addiK .. => 1
  | .slliK .. => 1
  | .lddK .. => 1
  | .stdK .. => 1
  | .beqz .. => 1
  | .bnez .. => 1
  | .illegalInstruction .. => 0
  | .slotGrant .. => 0
  | .generationAdvance .. => 0
  | .yieldIntervalEnd .. => 0
  | .divideComplete .. => 0
  | .fpIterativeComplete .. => 0
  | .vectorIterativeComplete .. => 0
  | .bankPowerDown .. => 0
  | .bankPowerUp .. => 0
  | .slotLend .. => 0
  | .spill .. => 0
  | .fill .. => 0
  | .loadRequest .. => 0
  | .store .. => 0
  | .dataReply .. => 0
  | .acknowledgement .. => 0
  | .registerParityError .. => 0
  | .sharedBankParityError .. => 0
  | .mailboxMessage .. => 0
  | .mbwaitTimeout .. => 0
  | .activeMessage .. => 0
  | .messageStatus .. => 0
  | .wakeMessage .. => 0
  | .chainStep .. => 0
  | .chainReply .. => 0
  | .atomic .. => 0
  | .synchronisation .. => 0
  | .waitRetry .. => 0
  | .logAppend .. => 0
  | .controlSpaceAccess .. => 0
  | .slotctlResume .. => 0
  | .skip .. => 0
  | .kill .. => 0
  | .release .. => 0
  | .heldMessageAppend .. => 0
  | .overflowQueueDelivery .. => 0
  | .overflowRetry .. => 0
  | .pageTableWalk .. => 0
  | .scoreboardGrant .. => 0
  | .mergeWindowEnd .. => 0
  | .bufferHeaderAccess .. => 0
  | .copyPiece .. => 0
  | .engineCompletion .. => 0
  | .publishFlip .. => 0
  | .pressFetch .. => 0
  | .pressStart .. => 0
  | .pressComplete .. => 0
  | .dispatcherStage .. => 0
  | .heldRingPush .. => 0
  | .keyRequest .. => 0
  | .keyGrant .. => 0
  | .keyRetry .. => 0
  | .keyRelease .. => 0
  | .qpopwTimeout .. => 0
  | .blendPair .. => 0
  | .collectiveContribution .. => 0
  | .abortToken .. => 0
  | .faultQueueAppend .. => 0
  | .reservedKindPacket .. => 0
  | .groupIngress .. => 0
  | .rotationWrite .. => 0
  | .sigctlWrite .. => 0
  | .mailboxConfigWrite .. => 0
  | .logConfigWrite .. => 0
  | .pinRelease .. => 0
  | .xlat .. => 0
  | .partitionRegisterWrite .. => 0
  | .faultQueueConfigWrite .. => 0
  | .fqtailWrite .. => 0
  | .linsizeWrite .. => 0
  | .tlbinv .. => 0
  | .qcfg .. => 0
  | .rcbAdmit .. => 0
  | .rcbWithdraw .. => 0
  | .preempt .. => 0
  | .resume .. => 0
  | .pmapdatWrite .. => 0
  | .create .. => 0
  | .destroy .. => 0
  | .extend .. => 0
  | .releaseVirtualBulkhead .. => 0
  | .mcbindBind .. => 0
  | .mcbindUnbind .. => 0
  | .bulkheadReset .. => 0
  | .bulkheadResetComplete .. => 0
  | .parkK1 .. => 0
  | .parkK2 .. => 0
  | .unpark .. => 0
  | .parkTransitionComplete .. => 0
  | .pwrceilWrite .. => 0
  | .governorSample .. => 0
  | .pstateTransitionComplete .. => 0
  | .grpdatWrite .. => 0
  | .doorbell .. => 0
  | .scratchpadScrub .. => 0
  | .patrolScrub .. => 0
  | .rowSpare .. => 0
  | .channelAccess .. => 0
  | .rowClose .. => 0
  | .refreshSlot .. => 0
  | .refreshDrain .. => 0
  | .flitCrcError .. => 0
  | .replayWindow .. => 0
  | .retrainComplete .. => 0
  | .coldStart .. => 0
  | .warmStart .. => 0
  | .codeletCounterRequest .. => 0
  | .carafeQueueOperation .. => 0
  | .tokenQuery .. => 0
  | .fitRead .. => 0
  | .channelAccessComplete .. => 0
  | .refreshComplete .. => 0
  | .groupPortFailure .. => 0
  | .bhctlWrite .. => 0
  | _ => 2

/-- The instruction word W, or the parcel of a compact instruction, as a number (R42-R49); 0 for a device step. -/
def encodeWord : Instr → Nat
  | .add d a b => 0xC0000000 + d.toNat * 524288 + a.toNat * 16384 + b.toNat * 512
  | .sub d a b => 0xC0000001 + d.toNat * 524288 + a.toNat * 16384 + b.toNat * 512
  | .and d a b => 0xC0000002 + d.toNat * 524288 + a.toNat * 16384 + b.toNat * 512
  | .or d a b => 0xC0000003 + d.toNat * 524288 + a.toNat * 16384 + b.toNat * 512
  | .xor d a b => 0xC0000004 + d.toNat * 524288 + a.toNat * 16384 + b.toNat * 512
  | .andn d a b => 0xC0000005 + d.toNat * 524288 + a.toNat * 16384 + b.toNat * 512
  | .sll d a b => 0xC0000006 + d.toNat * 524288 + a.toNat * 16384 + b.toNat * 512
  | .srl d a b => 0xC0000007 + d.toNat * 524288 + a.toNat * 16384 + b.toNat * 512
  | .sra d a b => 0xC0000008 + d.toNat * 524288 + a.toNat * 16384 + b.toNat * 512
  | .rol d a b => 0xC0000009 + d.toNat * 524288 + a.toNat * 16384 + b.toNat * 512
  | .mul d a b => 0xC000000A + d.toNat * 524288 + a.toNat * 16384 + b.toNat * 512
  | .mulh d a b => 0xC000000B + d.toNat * 524288 + a.toNat * 16384 + b.toNat * 512
  | .mulhu d a b => 0xC000000C + d.toNat * 524288 + a.toNat * 16384 + b.toNat * 512
  | .div d a b => 0xC000000D + d.toNat * 524288 + a.toNat * 16384 + b.toNat * 512
  | .divu d a b => 0xC000000E + d.toNat * 524288 + a.toNat * 16384 + b.toNat * 512
  | .rem d a b => 0xC000000F + d.toNat * 524288 + a.toNat * 16384 + b.toNat * 512
  | .remu d a b => 0xC0000010 + d.toNat * 524288 + a.toNat * 16384 + b.toNat * 512
  | .slt d a b => 0xC0000011 + d.toNat * 524288 + a.toNat * 16384 + b.toNat * 512
  | .sltu d a b => 0xC0000012 + d.toNat * 524288 + a.toNat * 16384 + b.toNat * 512
  | .min d a b => 0xC0000013 + d.toNat * 524288 + a.toNat * 16384 + b.toNat * 512
  | .max d a b => 0xC0000014 + d.toNat * 524288 + a.toNat * 16384 + b.toNat * 512
  | .minu d a b => 0xC0000015 + d.toNat * 524288 + a.toNat * 16384 + b.toNat * 512
  | .maxu d a b => 0xC0000016 + d.toNat * 524288 + a.toNat * 16384 + b.toNat * 512
  | .addw d a b => 0xC0000017 + d.toNat * 524288 + a.toNat * 16384 + b.toNat * 512
  | .subw d a b => 0xC0000018 + d.toNat * 524288 + a.toNat * 16384 + b.toNat * 512
  | .clz d a => 0xC0000019 + d.toNat * 524288 + a.toNat * 16384
  | .ctz d a => 0xC000001A + d.toNat * 524288 + a.toNat * 16384
  | .popc d a => 0xC000001B + d.toNat * 524288 + a.toNat * 16384
  | .brev d a => 0xC000001C + d.toNat * 524288 + a.toNat * 16384
  | .bswap d a => 0xC000001D + d.toNat * 524288 + a.toNat * 16384
  | .sextb d a => 0xC000001E + d.toNat * 524288 + a.toNat * 16384
  | .sexth d a => 0xC000001F + d.toNat * 524288 + a.toNat * 16384
  | .sextw d a => 0xC0000020 + d.toNat * 524288 + a.toNat * 16384
  | .zextw d a => 0xC0000021 + d.toNat * 524288 + a.toNat * 16384
  | .selz d a b => 0xC0000022 + d.toNat * 524288 + a.toNat * 16384 + b.toNat * 512
  | .selnz d a b => 0xC0000023 + d.toNat * 524288 + a.toNat * 16384 + b.toNat * 512
  | .extv d a b => 0xC0000024 + d.toNat * 524288 + a.toNat * 16384 + b.toNat * 512
  | .insv d a b => 0xC0000025 + d.toNat * 524288 + a.toNat * 16384 + b.toNat * 512
  | .adds d a b => 0xC0000026 + d.toNat * 524288 + a.toNat * 16384 + b.toNat * 512
  | .subs d a b => 0xC0000027 + d.toNat * 524288 + a.toNat * 16384 + b.toNat * 512
  | .addi d a i => 0xC1000000 + d.toNat * 524288 + a.toNat * 16384 + i.toNat
  | .andi d a i => 0xC2000000 + d.toNat * 524288 + a.toNat * 16384 + i.toNat
  | .ori d a i => 0xC3000000 + d.toNat * 524288 + a.toNat * 16384 + i.toNat
  | .xori d a i => 0xC4000000 + d.toNat * 524288 + a.toNat * 16384 + i.toNat
  | .slti d a i => 0xC5000000 + d.toNat * 524288 + a.toNat * 16384 + i.toNat
  | .sltiu d a i => 0xC6000000 + d.toNat * 524288 + a.toNat * 16384 + i.toNat
  | .slli d a n => 0xC7000000 + d.toNat * 524288 + a.toNat * 16384 + n.toNat
  | .srli d a n => 0xC7001000 + d.toNat * 524288 + a.toNat * 16384 + n.toNat
  | .srai d a n => 0xC7002000 + d.toNat * 524288 + a.toNat * 16384 + n.toNat
  | .roli d a n => 0xC7003000 + d.toNat * 524288 + a.toNat * 16384 + n.toNat
  | .extu d a o w => 0xC8000000 + d.toNat * 524288 + a.toNat * 16384 + o.toNat * 256 + w.toNat
  | .exts d a o w => 0xC8000040 + d.toNat * 524288 + a.toNat * 16384 + o.toNat * 256 + w.toNat
  | .ins d a o w => 0xC8000080 + d.toNat * 524288 + a.toNat * 16384 + o.toNat * 256 + w.toNat
  | .li d i => 0xC9000000 + d.toNat * 524288 + i.toNat
  | .lish d i => 0xCA000000 + d.toNat * 524288 + i.toNat
  | .addpc d i => 0xCB000000 + d.toNat * 524288 + i.toNat
  | .beq a b o => 0xD0000000 + a.toNat * 524288 + b.toNat * 16384 + o.toNat
  | .bne a b o => 0xD1000000 + a.toNat * 524288 + b.toNat * 16384 + o.toNat
  | .blt a b o => 0xD2000000 + a.toNat * 524288 + b.toNat * 16384 + o.toNat
  | .bge a b o => 0xD3000000 + a.toNat * 524288 + b.toNat * 16384 + o.toNat
  | .bltu a b o => 0xD4000000 + a.toNat * 524288 + b.toNat * 16384 + o.toNat
  | .bgeu a b o => 0xD5000000 + a.toNat * 524288 + b.toNat * 16384 + o.toNat
  | .jal d i => 0xD6000000 + d.toNat * 524288 + i.toNat
  | .jalr d a i => 0xD7000000 + d.toNat * 524288 + a.toNat * 16384 + i.toNat
  | .fork d a b => 0xD8000000 + d.toNat * 524288 + a.toNat * 16384 + b.toNat * 512
  | .halt => 0xD8000001
  | .haltk a b => 0xD8000002 + a.toNat * 16384 + b.toNat * 512
  | .yield a => 0xD8000003 + a.toNat * 16384
  | .wake a => 0xD8000004 + a.toNat * 16384
  | .bsig s => 0xD9000000 + s.toNat
  | .ldb d a i => 0xDC000000 + d.toNat * 524288 + a.toNat * 16384 + i.toNat
  | .ldbu d a i => 0xDD000000 + d.toNat * 524288 + a.toNat * 16384 + i.toNat
  | .ldh d a i => 0xDE000000 + d.toNat * 524288 + a.toNat * 16384 + i.toNat
  | .ldhu d a i => 0xDF000000 + d.toNat * 524288 + a.toNat * 16384 + i.toNat
  | .ldw d a i => 0xE0000000 + d.toNat * 524288 + a.toNat * 16384 + i.toNat
  | .ldwu d a i => 0xE1000000 + d.toNat * 524288 + a.toNat * 16384 + i.toNat
  | .ldd d a i => 0xE2000000 + d.toNat * 524288 + a.toNat * 16384 + i.toNat
  | .stb d a i => 0xE3000000 + d.toNat * 524288 + a.toNat * 16384 + i.toNat
  | .sth d a i => 0xE4000000 + d.toNat * 524288 + a.toNat * 16384 + i.toNat
  | .stw d a i => 0xE5000000 + d.toNat * 524288 + a.toNat * 16384 + i.toNat
  | .std d a i => 0xE6000000 + d.toNat * 524288 + a.toNat * 16384 + i.toNat
  | .ldacq d a z => 0xE7000000 + d.toNat * 524288 + a.toNat * 16384 + z.toNat
  | .strel d a z => 0xE7000004 + d.toNat * 524288 + a.toNat * 16384 + z.toNat
  | .fence s => 0xE7000008 + s.toNat * 512
  | .fenceI => 0xE7000009
  | .send d a b => 0xE8000000 + d.toNat * 524288 + a.toNat * 16384 + b.toNat * 512
  | .actm d a b => 0xE8000001 + d.toNat * 524288 + a.toNat * 16384 + b.toNat * 512
  | .mbpop d a b => 0xE8000002 + d.toNat * 524288 + a.toNat * 16384 + b.toNat * 512
  | .mbpeek d a => 0xE8000003 + d.toNat * 524288 + a.toNat * 16384
  | .mbwait d a b => 0xE8000004 + d.toNat * 524288 + a.toNat * 16384 + b.toNat * 512
  | .chld d a b => 0xE8000005 + d.toNat * 524288 + a.toNat * 16384 + b.toNat * 512
  | .chldv d a b => 0xE8000006 + d.toNat * 524288 + a.toNat * 16384 + b.toNat * 512
  | .amoadd d a b s => 0xE9000000 + d.toNat * 524288 + a.toNat * 16384 + b.toNat * 512 + s.toNat * 16
  | .amoand d a b s => 0xE9000001 + d.toNat * 524288 + a.toNat * 16384 + b.toNat * 512 + s.toNat * 16
  | .amoor d a b s => 0xE9000002 + d.toNat * 524288 + a.toNat * 16384 + b.toNat * 512 + s.toNat * 16
  | .amoxor d a b s => 0xE9000003 + d.toNat * 524288 + a.toNat * 16384 + b.toNat * 512 + s.toNat * 16
  | .amomin d a b s => 0xE9000004 + d.toNat * 524288 + a.toNat * 16384 + b.toNat * 512 + s.toNat * 16
  | .amomax d a b s => 0xE9000005 + d.toNat * 524288 + a.toNat * 16384 + b.toNat * 512 + s.toNat * 16
  | .amominu d a b s => 0xE9000006 + d.toNat * 524288 + a.toNat * 16384 + b.toNat * 512 + s.toNat * 16
  | .amomaxu d a b s => 0xE9000007 + d.toNat * 524288 + a.toNat * 16384 + b.toNat * 512 + s.toNat * 16
  | .amoswap d a b s => 0xE9000008 + d.toNat * 524288 + a.toNat * 16384 + b.toNat * 512 + s.toNat * 16
  | .amocas d a b s => 0xE9000009 + d.toNat * 524288 + a.toNat * 16384 + b.toNat * 512 + s.toNat * 16
  | .amofadd d a b s => 0xE900000A + d.toNat * 524288 + a.toNat * 16384 + b.toNat * 512 + s.toNat * 16
  | .logapp o a b => 0xEA000000 + o.toNat * 524288 + a.toNat * 16384 + b.toNat * 512
  | .logseal d => 0xEA000001 + d.toNat * 524288
  | .barset d a b => 0xEA000002 + d.toNat * 524288 + a.toNat * 16384 + b.toNat * 512
  | .barj d a => 0xEA000003 + d.toNat * 524288 + a.toNat * 16384
  | .barw d a b => 0xEA000004 + d.toNat * 524288 + a.toNat * 16384 + b.toNat * 512
  | .barq d a => 0xEA000005 + d.toNat * 524288 + a.toNat * 16384
  | .tladd d a b => 0xEA000006 + d.toNat * 524288 + a.toNat * 16384 + b.toNat * 512
  | .tlset d a b => 0xEA000007 + d.toNat * 524288 + a.toNat * 16384 + b.toNat * 512
  | .tlrd d a => 0xEA000008 + d.toNat * 524288 + a.toNat * 16384
  | .tlwait d a b => 0xEA000009 + d.toNat * 524288 + a.toNat * 16384 + b.toNat * 512
  | .tkt d a => 0xEA00000A + d.toNat * 524288 + a.toNat * 16384
  | .tkwait d a b => 0xEA00000B + d.toNat * 524288 + a.toNat * 16384 + b.toNat * 512
  | .tkdone d a => 0xEA00000C + d.toNat * 524288 + a.toNat * 16384
  | .clinit d a b => 0xEB000000 + d.toNat * 524288 + a.toNat * 16384 + b.toNat * 512
  | .cldec d a => 0xEB000001 + d.toNat * 524288 + a.toNat * 16384
  | .clpush d a => 0xEB000002 + d.toNat * 524288 + a.toNat * 16384
  | .clend b => 0xEB000003 + b.toNat * 512
  | .qpush d a b => 0xEB000004 + d.toNat * 524288 + a.toNat * 16384 + b.toNat * 512
  | .qpop d a => 0xEB000005 + d.toNat * 524288 + a.toNat * 16384
  | .qpopw d a b => 0xEB000006 + d.toNat * 524288 + a.toNat * 16384 + b.toNat * 512
  | .chnk d a b => 0xEB000007 + d.toNat * 524288 + a.toNat * 16384 + b.toNat * 512
  | .cpy d a => 0xEC000000 + d.toNat * 524288 + a.toNat * 16384
  | .cpyg d a => 0xEC000001 + d.toNat * 524288 + a.toNat * 16384
  | .cpys d a => 0xEC000002 + d.toNat * 524288 + a.toNat * 16384
  | .publish d a b => 0xEC000003 + d.toNat * 524288 + a.toNat * 16384 + b.toNat * 512
  | .htst d a => 0xEC000004 + d.toNat * 524288 + a.toNat * 16384
  | .hwait d a => 0xEC000005 + d.toNat * 524288 + a.toNat * 16384
  | .hdet d a => 0xEC000006 + d.toNat * 524288 + a.toNat * 16384
  | .hcan d a => 0xEC000007 + d.toNat * 524288 + a.toNat * 16384
  | .mcrd d a => 0xEC000008 + d.toNat * 524288 + a.toNat * 16384
  | .mcwr d a => 0xEC000009 + d.toNat * 524288 + a.toNat * 16384
  | .pusht d a => 0xEC00000A + d.toNat * 524288 + a.toNat * 16384
  | .mma f n a b => 0xED000000 + f.toNat * 2097152 + n.toNat * 524288 + a.toNat * 16384 + b.toNat * 512
  | .mmag f n a b => 0xED000001 + f.toNat * 2097152 + n.toNat * 524288 + a.toNat * 16384 + b.toNat * 512
  | .mxzero d b => 0xED000002 + d.toNat * 524288 + b.toNat * 512
  | .mxlda d a b => 0xED000003 + d.toNat * 524288 + a.toNat * 16384 + b.toNat * 512
  | .mxst d a b => 0xED000004 + d.toNat * 524288 + a.toNat * 16384 + b.toNat * 512
  | .mxepi a => 0xED000005 + a.toNat * 16384
  | .fitset d a => 0xEE000000 + d.toNat * 524288 + a.toNat * 16384
  | .fitget d a => 0xEE000001 + d.toNat * 524288 + a.toNat * 16384
  | .poprank d a => 0xEE000002 + d.toNat * 524288 + a.toNat * 16384
  | .blend d a => 0xEE000003 + d.toNat * 524288 + a.toNat * 16384
  | .blendx d a => 0xEE000004 + d.toNat * 524288 + a.toNat * 16384
  | .linrd d a b => 0xEE000005 + d.toNat * 524288 + a.toNat * 16384 + b.toNat * 512
  | .coll d a => 0xEF000000 + d.toNat * 524288 + a.toNat * 16384
  | .cabort d a => 0xEF000001 + d.toNat * 524288 + a.toNat * 16384
  | .catt d a b => 0xEF000002 + d.toNat * 524288 + a.toNat * 16384 + b.toNat * 512
  | .fadd d a b p => 0xF0000000 + d.toNat * 524288 + a.toNat * 16384 + b.toNat * 512 + p.toNat
  | .fsub d a b p => 0xF0000002 + d.toNat * 524288 + a.toNat * 16384 + b.toNat * 512 + p.toNat
  | .fmul d a b p => 0xF0000004 + d.toNat * 524288 + a.toNat * 16384 + b.toNat * 512 + p.toNat
  | .fdiv d a b p => 0xF0000006 + d.toNat * 524288 + a.toNat * 16384 + b.toNat * 512 + p.toNat
  | .fsqrt d a p => 0xF0000008 + d.toNat * 524288 + a.toNat * 16384 + p.toNat
  | .fmin d a b p => 0xF000000A + d.toNat * 524288 + a.toNat * 16384 + b.toNat * 512 + p.toNat
  | .fmax d a b p => 0xF000000C + d.toNat * 524288 + a.toNat * 16384 + b.toNat * 512 + p.toNat
  | .feq d a b p => 0xF000000E + d.toNat * 524288 + a.toNat * 16384 + b.toNat * 512 + p.toNat
  | .flt d a b p => 0xF0000010 + d.toNat * 524288 + a.toNat * 16384 + b.toNat * 512 + p.toNat
  | .fle d a b p => 0xF0000012 + d.toNat * 524288 + a.toNat * 16384 + b.toNat * 512 + p.toNat
  | .fclass d a p => 0xF0000014 + d.toNat * 524288 + a.toNat * 16384 + p.toNat
  | .fsgnj d a b p => 0xF0000016 + d.toNat * 524288 + a.toNat * 16384 + b.toNat * 512 + p.toNat
  | .fsgnjn d a b p => 0xF0000018 + d.toNat * 524288 + a.toNat * 16384 + b.toNat * 512 + p.toNat
  | .fcvtFi d a k p => 0xF000001A + d.toNat * 524288 + a.toNat * 16384 + k.toNat * 512 + p.toNat
  | .fcvtIf d a k p => 0xF000001C + d.toNat * 524288 + a.toNat * 16384 + k.toNat * 512 + p.toNat
  | .fcvtP d a p => 0xF000001E + d.toNat * 524288 + a.toNat * 16384 + p.toNat
  | .fsin d a p => 0xF0000020 + d.toNat * 524288 + a.toNat * 16384 + p.toNat
  | .fcos d a p => 0xF0000022 + d.toNat * 524288 + a.toNat * 16384 + p.toNat
  | .fexp2 d a p => 0xF0000024 + d.toNat * 524288 + a.toNat * 16384 + p.toNat
  | .flog2 d a p => 0xF0000026 + d.toNat * 524288 + a.toNat * 16384 + p.toNat
  | .fma d a b p => 0xF1000000 + d.toNat * 524288 + a.toNat * 16384 + b.toNat * 512 + p.toNat
  | .fms d a b p => 0xF1000002 + d.toNat * 524288 + a.toNat * 16384 + b.toNat * 512 + p.toNat
  | .fnma d a b p => 0xF1000004 + d.toNat * 524288 + a.toNat * 16384 + b.toNat * 512 + p.toNat
  | .mfc d a => 0xF2000000 + d.toNat * 524288 + a.toNat * 16384
  | .mtc a b => 0xF2000001 + a.toNat * 16384 + b.toNat * 512
  | .trap a => 0xF2000002 + a.toNat * 16384
  | .eret => 0xF2000003
  | .segld d a b => 0xF2000004 + d.toNat * 524288 + a.toNat * 16384 + b.toNat * 512
  | .segst d a b => 0xF2000005 + d.toNat * 524288 + a.toNat * 16384 + b.toNat * 512
  | .bkpt => 0xF2000006
  | .vadd d a b t => 0xF4000000 + d.toNat * 524288 + a.toNat * 16384 + b.toNat * 512 + t.toNat * 32
  | .vsub d a b t => 0xF4000001 + d.toNat * 524288 + a.toNat * 16384 + b.toNat * 512 + t.toNat * 32
  | .vmul d a b t => 0xF4000002 + d.toNat * 524288 + a.toNat * 16384 + b.toNat * 512 + t.toNat * 32
  | .vfma d a b t => 0xF4000003 + d.toNat * 524288 + a.toNat * 16384 + b.toNat * 512 + t.toNat * 32
  | .vmin d a b t => 0xF4000004 + d.toNat * 524288 + a.toNat * 16384 + b.toNat * 512 + t.toNat * 32
  | .vmax d a b t => 0xF4000005 + d.toNat * 524288 + a.toNat * 16384 + b.toNat * 512 + t.toNat * 32
  | .vabs d a t => 0xF4000006 + d.toNat * 524288 + a.toNat * 16384 + t.toNat * 32
  | .vneg d a t => 0xF4000007 + d.toNat * 524288 + a.toNat * 16384 + t.toNat * 32
  | .vand d a b t => 0xF4000008 + d.toNat * 524288 + a.toNat * 16384 + b.toNat * 512 + t.toNat * 32
  | .vor d a b t => 0xF4000009 + d.toNat * 524288 + a.toNat * 16384 + b.toNat * 512 + t.toNat * 32
  | .vxor d a b t => 0xF400000A + d.toNat * 524288 + a.toNat * 16384 + b.toNat * 512 + t.toNat * 32
  | .vshl d a b t => 0xF400000B + d.toNat * 524288 + a.toNat * 16384 + b.toNat * 512 + t.toNat * 32
  | .vshr d a b t => 0xF400000C + d.toNat * 524288 + a.toNat * 16384 + b.toNat * 512 + t.toNat * 32
  | .vsra d a b t => 0xF400000D + d.toNat * 524288 + a.toNat * 16384 + b.toNat * 512 + t.toNat * 32
  | .vadds d a b t => 0xF400000E + d.toNat * 524288 + a.toNat * 16384 + b.toNat * 512 + t.toNat * 32
  | .vsubs d a b t => 0xF400000F + d.toNat * 524288 + a.toNat * 16384 + b.toNat * 512 + t.toNat * 32
  | .vmulh d a b t => 0xF4000010 + d.toNat * 524288 + a.toNat * 16384 + b.toNat * 512 + t.toNat * 32
  | .vdiv d a b t => 0xF4000011 + d.toNat * 524288 + a.toNat * 16384 + b.toNat * 512 + t.toNat * 32
  | .vcmpeq d a b t => 0xF5000000 + d.toNat * 524288 + a.toNat * 16384 + b.toNat * 512 + t.toNat * 32
  | .vcmplt d a b t => 0xF5000001 + d.toNat * 524288 + a.toNat * 16384 + b.toNat * 512 + t.toNat * 32
  | .vcmple d a b t => 0xF5000002 + d.toNat * 524288 + a.toNat * 16384 + b.toNat * 512 + t.toNat * 32
  | .vsel d a b t => 0xF5000003 + d.toNat * 524288 + a.toNat * 16384 + b.toNat * 512 + t.toNat * 32
  | .vshuf d a b t => 0xF5000004 + d.toNat * 524288 + a.toNat * 16384 + b.toNat * 512 + t.toNat * 32
  | .vbcast d a t => 0xF5000005 + d.toNat * 524288 + a.toNat * 16384 + t.toNat * 32
  | .vextr d a b t => 0xF5000006 + d.toNat * 524288 + a.toNat * 16384 + b.toNat * 512 + t.toNat * 32
  | .vins d a b t => 0xF5000007 + d.toNat * 524288 + a.toNat * 16384 + b.toNat * 512 + t.toNat * 32
  | .vredadd d a t => 0xF5000008 + d.toNat * 524288 + a.toNat * 16384 + t.toNat * 32
  | .vredmax d a t => 0xF5000009 + d.toNat * 524288 + a.toNat * 16384 + t.toNat * 32
  | .vredmin d a t => 0xF500000A + d.toNat * 524288 + a.toNat * 16384 + t.toNat * 32
  | .vdot d a b t => 0xF500000B + d.toNat * 524288 + a.toNat * 16384 + b.toNat * 512 + t.toNat * 32
  | .vmov d a t => 0xF500000C + d.toNat * 524288 + a.toNat * 16384 + t.toNat * 32
  | .vcvt d a t s n => 0xF6000000 + d.toNat * 524288 + a.toNat * 16384 + t.toNat * 512 + s.toNat * 32 + n.toNat
  | .vrcp d a t => 0xF7000000 + d.toNat * 524288 + a.toNat * 16384 + t.toNat * 32
  | .vrsq d a t => 0xF7000001 + d.toNat * 524288 + a.toNat * 16384 + t.toNat * 32
  | .vexp2 d a t => 0xF7000002 + d.toNat * 524288 + a.toNat * 16384 + t.toNat * 32
  | .vlog2 d a t => 0xF7000003 + d.toNat * 524288 + a.toNat * 16384 + t.toNat * 32
  | .vsin d a t => 0xF7000004 + d.toNat * 524288 + a.toNat * 16384 + t.toNat * 32
  | .vcos d a t => 0xF7000005 + d.toNat * 524288 + a.toNat * 16384 + t.toNat * 32
  | .vtanh d a t => 0xF7000006 + d.toNat * 524288 + a.toNat * 16384 + t.toNat * 32
  | .vsigm d a t => 0xF7000007 + d.toNat * 524288 + a.toNat * 16384 + t.toNat * 32
  | .vld d a i => 0xF8000000 + d.toNat * 524288 + a.toNat * 16384 + i.toNat
  | .vst d a i => 0xF9000000 + d.toNat * 524288 + a.toNat * 16384 + i.toNat
  | .movK d a => 0x0 + d.toNat * 256 + a.toNat * 16
  | .addK d a b => 0x1000 + d.toNat * 256 + a.toNat * 16 + b.toNat
  | .subK d a b => 0x2000 + d.toNat * 256 + a.toNat * 16 + b.toNat
  | .andK d a b => 0x3000 + d.toNat * 256 + a.toNat * 16 + b.toNat
  | .orK d a b => 0x4000 + d.toNat * 256 + a.toNat * 16 + b.toNat
  | .xorK d a b => 0x5000 + d.toNat * 256 + a.toNat * 16 + b.toNat
  | .addiK d a i => 0x6000 + d.toNat * 256 + a.toNat * 16 + i.toNat
  | .slliK d a i => 0x7000 + d.toNat * 256 + a.toNat * 16 + i.toNat
  | .lddK d a i => 0x8000 + d.toNat * 256 + a.toNat * 16 + i.toNat
  | .stdK d a i => 0x9000 + d.toNat * 256 + a.toNat * 16 + i.toNat
  | .beqz a o => 0xA000 + a.toNat * 256 + o.toNat
  | .bnez a o => 0xB000 + a.toNat * 256 + o.toNat
  | .illegalInstruction .. => 0
  | .slotGrant .. => 0
  | .generationAdvance .. => 0
  | .yieldIntervalEnd .. => 0
  | .divideComplete .. => 0
  | .fpIterativeComplete .. => 0
  | .vectorIterativeComplete .. => 0
  | .bankPowerDown .. => 0
  | .bankPowerUp .. => 0
  | .slotLend .. => 0
  | .spill .. => 0
  | .fill .. => 0
  | .loadRequest .. => 0
  | .store .. => 0
  | .dataReply .. => 0
  | .acknowledgement .. => 0
  | .registerParityError .. => 0
  | .sharedBankParityError .. => 0
  | .mailboxMessage .. => 0
  | .mbwaitTimeout .. => 0
  | .activeMessage .. => 0
  | .messageStatus .. => 0
  | .wakeMessage .. => 0
  | .chainStep .. => 0
  | .chainReply .. => 0
  | .atomic .. => 0
  | .synchronisation .. => 0
  | .waitRetry .. => 0
  | .logAppend .. => 0
  | .controlSpaceAccess .. => 0
  | .slotctlResume .. => 0
  | .skip .. => 0
  | .kill .. => 0
  | .release .. => 0
  | .heldMessageAppend .. => 0
  | .overflowQueueDelivery .. => 0
  | .overflowRetry .. => 0
  | .pageTableWalk .. => 0
  | .scoreboardGrant .. => 0
  | .mergeWindowEnd .. => 0
  | .bufferHeaderAccess .. => 0
  | .copyPiece .. => 0
  | .engineCompletion .. => 0
  | .publishFlip .. => 0
  | .pressFetch .. => 0
  | .pressStart .. => 0
  | .pressComplete .. => 0
  | .dispatcherStage .. => 0
  | .heldRingPush .. => 0
  | .keyRequest .. => 0
  | .keyGrant .. => 0
  | .keyRetry .. => 0
  | .keyRelease .. => 0
  | .qpopwTimeout .. => 0
  | .blendPair .. => 0
  | .collectiveContribution .. => 0
  | .abortToken .. => 0
  | .faultQueueAppend .. => 0
  | .reservedKindPacket .. => 0
  | .groupIngress .. => 0
  | .rotationWrite .. => 0
  | .sigctlWrite .. => 0
  | .mailboxConfigWrite .. => 0
  | .logConfigWrite .. => 0
  | .pinRelease .. => 0
  | .xlat .. => 0
  | .partitionRegisterWrite .. => 0
  | .faultQueueConfigWrite .. => 0
  | .fqtailWrite .. => 0
  | .linsizeWrite .. => 0
  | .tlbinv .. => 0
  | .qcfg .. => 0
  | .rcbAdmit .. => 0
  | .rcbWithdraw .. => 0
  | .preempt .. => 0
  | .resume .. => 0
  | .pmapdatWrite .. => 0
  | .create .. => 0
  | .destroy .. => 0
  | .extend .. => 0
  | .releaseVirtualBulkhead .. => 0
  | .mcbindBind .. => 0
  | .mcbindUnbind .. => 0
  | .bulkheadReset .. => 0
  | .bulkheadResetComplete .. => 0
  | .parkK1 .. => 0
  | .parkK2 .. => 0
  | .unpark .. => 0
  | .parkTransitionComplete .. => 0
  | .pwrceilWrite .. => 0
  | .governorSample .. => 0
  | .pstateTransitionComplete .. => 0
  | .grpdatWrite .. => 0
  | .doorbell .. => 0
  | .scratchpadScrub .. => 0
  | .patrolScrub .. => 0
  | .rowSpare .. => 0
  | .channelAccess .. => 0
  | .rowClose .. => 0
  | .refreshSlot .. => 0
  | .refreshDrain .. => 0
  | .flitCrcError .. => 0
  | .replayWindow .. => 0
  | .retrainComplete .. => 0
  | .coldStart .. => 0
  | .warmStart .. => 0
  | .codeletCounterRequest .. => 0
  | .carafeQueueOperation .. => 0
  | .tokenQuery .. => 0
  | .fitRead .. => 0
  | .channelAccessComplete .. => 0
  | .refreshComplete .. => 0
  | .groupPortFailure .. => 0
  | .bhctlWrite .. => 0

/-- The two bytes of a parcel, low byte first. -/
def parcelBytes (p : Nat) : List (BitVec 8) := [BitVec.ofNat 8 p, BitVec.ofNat 8 (p / 256)]

/-- The bytes of an instruction as memory holds them (R37): for W, bytes W[23:16], W[31:24], W[7:0], W[15:8]. -/
def encode (i : Instr) : List (BitVec 8) :=
  let w := encodeWord i
  match i.parcels with
  | 0 => []
  | 1 => parcelBytes w
  | _ => parcelBytes (w / 65536) ++ parcelBytes (w % 65536)

/-- The bytes of a table word: nbits 16 is one parcel, anything wider is W, first parcel first (R37). -/
def tableBytes (nbits w : Nat) : List (BitVec 8) :=
  if nbits ≤ 16 then parcelBytes w ++ parcelBytes 0
  else parcelBytes (w / 65536) ++ parcelBytes (w % 65536)

/-- What this decoder reads from an opcode-table word of nbits bits. -/
def decodeTableWord (nbits w : Nat) : Option Instr :=
  match decode (tableBytes nbits w) with
  | .ok (i, _) => some i
  | .error _ => none

end Sys2Proof
end

