-- ==== Sys2Proof/Machine/Assoc.lean ====
section
/-! DEFINITION. Finite maps as plain data: lists of (key, value) pairs with rising keys. A sparse map leaves out every entry that equals its default, so that equal contents are equal lists. -/

namespace Sys2Proof.Machine

/-- A finite map from numbers: pairs in rising order of key. -/
abbrev Assoc (α : Type) := List (Nat × α)

/-- The value at a key, if one is listed. -/
def Assoc.find {α : Type} (m : Assoc α) (k : Nat) : Option α :=
  match m with
  | [] => none
  | (j, v) :: rest => if j = k then some v else Assoc.find rest k

/-- The value at a key, or the default of an unlisted key. -/
def Assoc.getD {α : Type} (m : Assoc α) (k : Nat) (d : α) : α :=
  match m with
  | [] => d
  | (j, v) :: rest => if j = k then v else Assoc.getD rest k d

/-- Set the value at a key, keeping the keys rising. -/
def Assoc.put {α : Type} (m : Assoc α) (k : Nat) (v : α) : Assoc α :=
  match m with
  | [] => [(k, v)]
  | (j, w) :: rest =>
    if k < j then (k, v) :: (j, w) :: rest
    else if j = k then (k, v) :: rest
    else (j, w) :: Assoc.put rest k v

/-- Remove a key. -/
def Assoc.erase {α : Type} (m : Assoc α) (k : Nat) : Assoc α :=
  match m with
  | [] => []
  | (j, w) :: rest => if j = k then rest else (j, w) :: Assoc.erase rest k

/-- Set a value in a sparse map: an entry equal to the default is not listed. -/
def Assoc.putSparse {α : Type} [DecidableEq α] (d : α) (m : Assoc α) (k : Nat) (v : α) : Assoc α :=
  if v = d then Assoc.erase m k else Assoc.put m k v

/-- Every key is above `lo` and the keys rise. -/
def Assoc.risesFrom {α : Type} (lo : Nat) : Assoc α → Bool
  | [] => true
  | (j, _) :: rest => decide (lo ≤ j) && Assoc.risesFrom (j + 1) rest

/-- The canonical form of a sparse map: keys strictly rising, no entry equal to the default. -/
def Assoc.sparseWf {α : Type} [DecidableEq α] (d : α) (m : Assoc α) : Bool :=
  Assoc.risesFrom 0 m && m.all (fun e => decide (e.2 ≠ d))

end Sys2Proof.Machine
end

