-- ==== Sys2Proof/Machine/State.lean ====
section
/-! DEFINITION. The state of a Celpen package as plain data, and the state after reset.
Field by field it follows the state list of INVENTORY.md; a docstring names the rule that gives the piece of state.
Reset values the manual does not give are 0, false or empty (log 2, DESIGN CHOICE). -/

namespace Sys2Proof.Machine

/-- A physical or virtual core as R15 bits [18:4]: die, row and column, five bits each (01_machine R14, R15). -/
abbrev CoreId := Nat

/-- The nine slot conditions: R67's eight, and a slot kept for a spilled owner with no borrower in it (03_strands R67, R97). -/
inductive SlotState where
  | free | run | blocked | parked | spill | fill | contained | lost | reserved
deriving DecidableEq, Repr

/-- Where a result goes: nowhere, a scalar register field, or a vector register field (02_encoding R40). -/
inductive Dest where
  | nowhere
  | scalar (r : Reg)
  | vector (r : Reg)
deriving DecidableEq, Repr

/-- What the WB of an instruction needs once it retires: its length in bytes, the register fields in assembly order that
the signature checker folds, and its block kind: 0 none, 1-4 as R100, 8 not counted (03_strands R99-R101). -/
structure Retire where
  len : Nat
  fold : List Reg
  kind : Nat
deriving DecidableEq, Repr

/-- The status a reply or an acknowledgement carries (07_access R191, 09_sync R256, R265). -/
inductive Status where
  | done | absent | refused | poisoned | retry | logRefused | foreign | queueFull | queueClosed
  /-- done, and the value is the status of a collective (14_population R393) -/
  | collective
deriving DecidableEq, Repr

/-- One step of a chained load: offset and mask (08_messages R234). -/
structure ChainStepWord where
  off : Word
  mask : Word
deriving DecidableEq, Repr

/-- What a packet of the fabric carries, by the kinds of 08_messages R214. -/
inductive Body where
  /-- KIND 0: size bytes at a physical address -/
  | load (addr size : Nat)
  /-- KIND 0 at its home, between the pieces of a VLD: the next byte, bytes left, and the bytes read (10_ordering R278) -/
  | pieces (addr left : Nat) (got : List Byte)
  /-- KIND 1 -/
  | store (addr size : Nat) (data : Vec)
  /-- KIND 1 at its home, between the pieces of a VST: the next byte, bytes left, what they receive, and the first byte of all -/
  | storing (addr left : Nat) (data : Vec) (base : Nat)
  /-- KIND 2, to the slot of the packet: value, flags of an AMOFADD, status -/
  | dataReply (status : Status) (value : Vec) (flags : BitVec 6)
  /-- KIND 3, frees a posted entry -/
  | ack (status : Status) (entry : Nat) (addr : Word) (info : Word)
  /-- KIND 4: mailbox number, payload doublewords, whether it is a fault record (R243), and which payload doublewords are poison -/
  | mail (mb : Nat) (payload : List Word) (fault : Bool) (bad : List Nat)
  /-- KIND 5: the record of R231 and the sender's RCBPTR -/
  | active (entry arg0 arg1 : Word) (rcb : Word)
  /-- KIND 6: status of R218 -/
  | msgStatus (status : Nat)
  /-- KIND 7 -/
  | wake
  /-- KIND 8: current pointer and the physical byte it was translated to, current step, the step list, the CHLDV flag, the requester
  and its slot -/
  | chain (ga : Word) (pa : Nat) (k : Nat) (steps : List ChainStepWord) (vec : Bool) (reqCore reqSlot : Nat)
  /-- KIND 9: result, CHST and whether it is poisoned -/
  | chainReply (value : Vec) (chst : Word) (poison : Bool)
  /-- KIND 10: AMO code 0-10 of R248, doubleword form, address, operand, compare value -/
  | atomic (op : Nat) (dbl : Bool) (addr : Nat) (x c : Word)
  /-- KIND 11: SYNC-A code 6-12 of R264, address, operand -/
  | sync (op : Nat) (addr : Nat) (x : Word)
  /-- KIND 11: withdrawal of a waiter of this thread (09_sync R269) -/
  | withdraw
  /-- KIND 11: a drip-log record, its target address, and its four doublewords (09_sync R255) -/
  | logApp (rec : List Word)
  /-- KIND 11: CLINIT 0, CLDEC 1, CLPUSH 2 on a descriptor; count and issuer's RCBPTR (13_tasks R351) -/
  | codelet (op : Nat) (addr : Nat) (n : Nat) (rcb : Word)
  /-- KIND 12: HTST 4, HWAIT 5, HCAN 7 on a token (12_engines R330) -/
  | query (op : Nat) (tag entry : Nat)
  /-- KIND 12 to another package: an engine command reads n bytes of a source 0; at a buffer header it counts a reader 1 or a writer 2,
  publishes 3, formats 4, gives back a reader 5 or a writer 6 (12_engines R319, R326) -/
  | engine (op : Nat) (ga : Word) (n : Nat)
  /-- KIND 0: read of a core's FIT (14_population R375); for a sample of the cupping unit (R379), the member's place in the ranking
  set and the core that ranks -/
  | fitRead (sample : Option (Nat × CoreId))
  /-- KIND 2 to the cupping unit: the sample, none where the member is absent -/
  | sample (index : Nat) (value : Option Word) (req : CoreId)
  /-- KIND 13: a piece of an operand that the press reads at another core: address and bytes (11_press R306) -/
  | operand (addr n : Nat)
  /-- KIND 14: a collective contribution: identifier, attempt, sequence, descriptor, members' keys, the physical SRC from which the
  network reads the data, physical DST, completion entry -/
  | contribution (id : Nat) (att seq : BitVec 16) (desc : List Word) (members : List Nat) (src dst entry : Nat)
  /-- KIND 14: a contribution whose data has been read in part, or in whole: the same, the doublewords read, and which of them are poison -/
  | gathering (id : Nat) (att seq : BitVec 16) (desc : List Word) (members : List Nat) (src dst entry : Nat) (got : List Word) (bad : List Nat)
  /-- KIND 12 between packages: a pair of a BLENDX: descriptor, entry of the pair table, the parent's bytes, poisoned pieces, number of the
  command, place of the pair in its table, pairs of the table (14_population R388) -/
  | migrate (desc : List Word) (pair : Word) (data : List Byte) (bad : List Nat) (cmd index count : Nat)
  /-- KIND 14: an abort token: identifier, attempt, and whether CABORT waits for it (14_population R394) -/
  | abort (id : Nat) (att : BitVec 16) (reply : Bool)
  /-- KIND 15: class-3 access: write or read, offset, value, the thread's level (15_system R412) -/
  | control (write : Bool) (off : Nat) (value : Word) (level : Nat)
  /-- KIND 16: QPUSH 4, QPOP 5, QPOPW 6, CHNK 7 take, 8 CHNK initialise, 9 QPOPW withdrawal (13_tasks R366-R369) -/
  | queue (op q : Nat) (x : Word)
  /-- KIND 16: lock keys (13_tasks R361-R364): request of a staging entry, its grant, a release -/
  | keyRequest (ns : Nat) (key : BitVec 32) (stage : Nat)
  | keyGrant (stage : Nat)
  | keyRelease (ns : Nat) (key : BitVec 32)
deriving DecidableEq, Repr

/-- A packet in flight (08_messages R213): source and destination core, the slot and generation the packet names (of the
source for a request, of the destination for a reply), partition, the posted entry it belongs to, the sender's
partition-virtual thread identifier, RCBPTR and pc, the sender's package, and the virtual core of a target whose virtual bulkhead
was held when the packet was translated (07_access R202); whether its thread is privileged (03_strands R96); and for a request that the carafe
injects, the core from whose attach router it goes on (R202). -/
structure Msg where
  src : CoreId
  dst : CoreId
  slot : Nat
  gen : Nat
  part : Option Nat
  post : Option Nat
  vtid : Nat
  rcb : Word
  pc : Word
  pkg : Nat
  held : Option CoreId
  priv : Bool
  via : Option CoreId
  body : Body
deriving DecidableEq, Repr

/-- A packet that has left for another package, and the group port that it took (16_package R450). -/
structure Sent where
  port : Nat
  msg : Msg
deriving DecidableEq, Repr

/-- What a thread does with the reply it waits for. -/
inductive ReplyUse where
  /-- a load into a scalar register: bytes, sign extension, acquire (07_access R193, R195) -/
  | load (d : Reg) (size : Nat) (signed : Bool) (acquire : Bool)
  /-- a VLD (06_vector R176) -/
  | vload (d : Reg)
  /-- an atomic: AMO code and doubleword form decide the extension (09_sync R248) -/
  | amo (d : Reg) (op : Nat) (dbl : Bool)
  /-- a word written as it is; acquire; false says that a status `retry` is sent again (09_sync R265) -/
  | word (d : Reg) (acquire : Bool)
  /-- SEND and ACTM (08_messages R218) -/
  | status (d : Reg)
  /-- CHLD and CHLDV (08_messages R235, R240) -/
  | chain (d : Reg) (vec : Bool)
  /-- MCRD: the cycle of MA1, for LATCNT (12_engines R338) -/
  | mcrd (d : Reg) (at_ : Nat)
deriving DecidableEq, Repr

/-- Why an instruction was cancelled with no effect and will issue again (03_strands R78, R79). -/
inductive Why where
  /-- the register whose mark stands in the way (R78) -/
  | pendingRegister (d : Dest)
  | postedFull | scoreboard | bankPower | completionFull | pressFull | mailboxBusy | collPending
  | epilogueBank | walk | sealBusy | ringFull
deriving DecidableEq, Repr

/-- The iterative units (04 R105, 05 R148, 06 R179). -/
inductive IterUnit where
  | divider | fp | vector
deriving DecidableEq, Repr

/-- What a BLOCKED thread waits for (03_strands R79). -/
inductive Wait where
  | none
  | reissue (why : Why)
  /-- a reply; the request, kept so that a retry can send it again -/
  | reply (use : ReplyUse) (ret : Retire) (req : Body) (tgt : CoreId)
  /-- a wait answered retry: sent again at a transit-clock count (09_sync R265) -/
  | retry (use : ReplyUse) (ret : Retire) (req : Body) (tgt : CoreId) (due : Nat)
  | iter (unit : IterUnit) (d : Dest) (value : Vec) (flags : BitVec 6) (due : Nat) (ret : Retire)
  | yield_ (due : Nat)
  /-- the release wait: the packet to send once no posted entry within the scope is left; scope none means every entry -/
  | release (scope : Option Nat) (packet : Msg) (use : Option ReplyUse) (ret : Retire)
  /-- the release wait of a local STREL: address, size, data -/
  | releaseStore (addr size : Nat) (data : Word) (ret : Retire)
  /-- the release wait of an operation performed at this core itself; op as its request body -/
  | releaseLocal (scope : Option Nat) (body : Body) (d : Reg) (ret : Retire)
  /-- the release wait of BARJ -/
  | releaseBar (obj : Nat) (d : Reg) (ret : Retire)
  /-- the release wait of COLL: the contribution to send; the COLL itself has retired (14_population R391) -/
  | releaseColl (packet : Msg)
  | fence (scope : Nat) (ret : Retire)
  | fenceI (entries : List Nat) (ret : Retire)
  | mbwait (mb : Nat) (d : Reg) (deadline : Option Nat) (ret : Retire)
  | barrier (obj : Nat) (phase : Bool) (d : Reg) (ret : Retire)
  | qpopw (d : Reg) (deadline : Option Nat) (q : Nat) (tgt : CoreId) (withdrawn : Bool) (retryAt : Option Nat) (ret : Retire)
  /-- a command or partition register write not yet applied (15_system R410) -/
  | command (ret : Retire)
  /-- CABORT until every member has applied the token -/
  | abortWait (d : Reg) (att : BitVec 16) (left : Nat) (ret : Retire)
  /-- POPRANK until every member is sampled: pair table, descriptor, members' keys, samples so far (14_population R380) -/
  | poprank (d : Reg) (out : Nat) (desc : List Word) (vkeys : List Nat) (got : List (Nat × Option Word)) (ret : Retire)
  /-- MCRD until its channel access completes: register and cycle of MA1 (12_engines R336) -/
  | channel (d : Reg) (at_ : Nat) (ret : Retire)
  /-- SEND while it reads its payload, or waits for the core's message port, and ACTM while it waits for it (08_messages R217, R231, R241): the cycle
  of its issue, destination and the virtual core it names, mailbox, none for an ACTM, next byte, doublewords left, those read, and which are
  poison -/
  | sending (since : Nat) (d : Reg) (dst : CoreId) (held : Option CoreId) (mb : Option Nat) (addr left : Nat) (got : List Word) (bad : List Nat)
      (ret : Retire)
  /-- MBPOP that copies more than 32 bytes of the record it has chosen (08_messages R229): mailbox, next bytes, doublewords left, the core cycle
  before whose issue its handle lands (R241), and the handle -/
  | popping (mb : Nat) (d : Reg) (src dst left due : Nat) (handle : Word) (ret : Retire)
  /-- LOGSEAL between its steps (09_sync R257, R259): the cycle of the next one, records that its sort has placed, C, and those skipped as corrupt and
  for poison -/
  | seal (due placed count : Nat) (d : Reg) (corrupt poisoned : Nat) (ret : Retire)
  /-- a local load or store that waits for banks that power up (07_access R186): what a load writes, none for a store; address and bytes, and what a
  store writes -/
  | bank (use : Option ReplyUse) (addr size : Nat) (data : Vec) (ret : Retire)
  /-- LINRD until its last record is written (14_population R387): its result, partition, next record, its place, and records left -/
  | lineage (d : Reg) (value : Word) (part rec_ dst left : Nat) (ret : Retire)
  /-- BLEND or BLENDX that reads more than 32 bytes of its pair table (14_population R382): its descriptor, the next byte of the table, pairs left,
  and those read -/
  | blend (d : Reg) (group : Bool) (desc : List Word) (table left : Nat) (got : List Word) (ret : Retire)
deriving DecidableEq, Repr

/-- Why and when a thread parked: CLASS of R415, PARK of R414, core cycle (03_strands R80, R95). -/
structure Park where
  cls : Nat
  kind : Nat
  since : Nat
deriving DecidableEq, Repr

/-- How a context was started, and what it holds as a codelet (15_system R423, offsets 0x380-0x390). -/
structure Origin where
  disp : Bool
  ring : Bool
  desc : Nat
  keys : List (BitVec 32)
  keyns : Nat
deriving DecidableEq, Repr

/-- One posted entry: its number, and the physical home it records, if any (07_access R194, R198). -/
structure Posted where
  id : Nat
  home : Option CoreId
deriving DecidableEq, Repr

/-- The spilled owner of a slot (03_strands R94-R97): generation and woken mark, why it parked, how it was started, and its posted
table and acquire point, which are no part of the record. -/
structure Spilled where
  gen : Nat
  woken : Bool
  park : Option Park
  origin : Origin
  posted : List Posted
  acq : Nat
deriving DecidableEq, Repr

/-- One slot and the context in it. `readyAt` is the first core cycle in which the context may issue (03_strands R72, R74, R79, R87); in a FREE
or reserved slot it is the cycle in which the slot allocator first sees it so (R69, R88, R95). `wokenAt` is the core cycle in which a wake last
reached it while it was not PARKED (R81). -/
structure Slot where
  st : SlotState
  pc : Word
  p : Vector Word 16
  vp : Vector Vec 16
  segBase : Vector Word 8
  segLim : Vector Word 8
  fpctl : Word
  fpst : Word
  cvtcnt : Word
  sigctl : Word
  chst : Word
  geom : Word
  logseq : Word
  latcnt : Word
  rcbptr : Word
  privst : Word
  epc : Word
  ecause : Word
  esegbase : Word
  eseglim : Word
  xlat : Word
  gen : Nat
  outst : Assoc Nat
  owes : Bool
  pendP : BitVec 16
  pendV : BitVec 16
  posted : List Posted
  nextPost : Nat
  acq : Nat
  readyAt : Nat
  wait : Wait
  park : Option Park
  origin : Origin
  spilled : Option Spilled
  wokenAt : Option Nat
deriving DecidableEq, Repr

/-- What instructions that issue before core cycle `till` still read from a shared register that an instruction of a slot writes at its WB:
the register, its value and its pending mark (03_strands R71, R77; 04_integer R104, 06_vector R180). -/
structure Stale where
  reg : Dest
  slot : Nat
  till : Nat
  value : Vec
  pend : Bool
deriving DecidableEq, Repr

/-- A write of a shared register by an agent other than a WB, and the core cycle before whose issue it landed: the slot it belongs to
(03_strands R77). -/
structure Landed where
  reg : Dest
  slot : Nat
  at_ : Nat
deriving DecidableEq, Repr

/-- What an instruction does at its WB to what the slots of its core share (03_strands R71). -/
inductive WriteBack where
  /-- a local store (07_access R186, 10_ordering R270) -/
  | store (addr : Nat) (bytes : List Byte)
  /-- the write of a control register of the core or of the package -/
  | control (num : Nat) (value : Word)
  /-- the removal of a record from a mailbox (08_messages R229) -/
  | pop (mb rsize : Nat)
  /-- the end of the context in the landing's slot (R88): CLEND's count, and HALTK's mask and successor -/
  | ending (ret : Retire) (count : Option Nat) (mask : BitVec 16) (succ : Nat)
  /-- the segment registers that SEGLD moves to a slot (15_system R404) -/
  | segments (slot : Nat) (words : List Word)
  /-- FITSET, FITGET and an MTC to FIT: the register that takes the old value, and the new one (14_population R374, R375) -/
  | fit (d : Reg) (value : Option Word)
  /-- a register of the landing's slot -/
  | register (d : Reg) (value : Word)
  /-- MXEPI: the descriptor that the idle epilogue bank takes (11_press R305) -/
  | epilogue (words : List Word)
deriving DecidableEq, Repr

/-- A write-back that is not done yet: the cycle in which its instruction asked for it, the slot, and the core cycle before whose issue it is done. -/
structure Landing where
  issued : Nat
  slot : Nat
  due : Nat
  effect : WriteBack
deriving DecidableEq, Repr

/-- An instruction in flight (15_system R419): the cycle of its issue, its slot as it stood before, the slot that a FORK took, and whether it
has committed (R71). -/
structure Flight where
  issued : Nat
  slot : Nat
  before : Slot
  child : Option Nat
  committed : Bool
deriving DecidableEq, Repr

/-- What an MFC that issues before core cycle `till` still reads of a control register of the core that an instruction writes at its WB
(03_strands R71; 08_messages R225; 14_population R374). -/
structure CtlOld where
  till : Nat
  num : Nat
  value : Word
deriving DecidableEq, Repr

/-- One scratchpad bank (03_strands R90, R91): powered, when last in use, when a power-up in progress ends, pinned. -/
structure Bank where
  powered : Bool
  lastUse : Nat
  upAt : Option Nat
  pinned : Bool
deriving DecidableEq, Repr

/-- One retention entry (R91). -/
structure Retention where
  mask : BitVec 16
  succ : Nat
deriving DecidableEq, Repr

/-- What a waiter entry of a home watches: a timeline or a ticket's SERVING with a threshold (09_sync R265), or a
completion-table entry (12_engines R330). -/
inductive Watch where
  | word (addr : Nat) (threshold : Word)
  | entry (entry tag : Nat)
deriving DecidableEq, Repr

/-- One waiter entry: what it watches, and the thread to answer. -/
structure Waiter where
  watch : Watch
  core : CoreId
  slot : Nat
  gen : Nat
deriving DecidableEq, Repr

/-- One active message at its target (08_messages R232, R233): entry word, arguments, sender identifier, package, the RCB it
runs under, and its arrival stamp. -/
structure Active where
  entry : Word
  arg0 : Word
  arg1 : Word
  vtid : Nat
  pkg : Nat
  rcb : Word
  stamp : Nat
deriving DecidableEq, Repr

/-- One staging entry of the dispatcher (13_tasks R358): its number, the descriptor offset, PC and ARG as read from it, the keyed
active message if any, the keys in use, how many are granted, whether a request is out or waits to be sent again, the namespace, the
RCB, and once every key is granted the step in which that was so. -/
structure Stage where
  id : Nat
  desc : Nat
  pc : Word
  arg : Word
  keyed : Option Active
  keys : List (BitVec 32)
  granted : Nat
  asked : Bool
  retryAt : Option Nat
  keyns : Nat
  rcb : Word
  done : Option Nat
deriving DecidableEq, Repr

/-- The four states of a completion entry (12_engines R327). -/
inductive EntryState where
  | free
  | attached (slot gen : Nat) (r : Reg)
  | running
  | finished (status : Word)
deriving DecidableEq, Repr

/-- One completion-table entry. -/
structure Completion where
  tag : BitVec 16
  st : EntryState
deriving DecidableEq, Repr

/-- What owns a range-scoreboard entry (12_engines R324): an engine command, a pair of a BLEND, or the press. -/
inductive SbOwner where
  | engine (cmd : Nat)
  | pair (cmd pair : Nat)
  | press
deriving DecidableEq, Repr

/-- One range-scoreboard entry or request: the span [lo, hi) and its owner; the number identifies it. -/
structure Span where
  id : Nat
  lo : Nat
  hi : Nat
  owner : SbOwner
deriving DecidableEq, Repr

/-- One press command as accepted (11_press R299-R302): function code of R48, format, tile, physical operand addresses with
their scale flags, valid rows and columns, whether the core lies in its group, bound bank, completion entry, the issuer,
the issuer's identifier, CVTCNT and seed, and the GAs of the operands. -/
structure PressCmd where
  fn : Nat
  fmt : Nat
  tile : Nat
  aAddr : Nat
  aScale : Bool
  bAddr : Nat
  bScale : Bool
  mrows : Nat
  ncols : Nat
  inside : Bool
  bank : Nat
  entry : Nat
  slot : Nat
  gen : Nat
  vtid : Nat
  cvt : Word
  seed : Word
  aGa : Word
  bGa : Word
deriving DecidableEq, Repr

/-- The press state that belongs to one core (11_press R287): queue, accumulator tiles as sparse words, poison marks, the two
epilogue banks as twenty doublewords each, the current bank. -/
structure PressCore where
  queue : List PressCmd
  acc : Vector (Assoc (BitVec 32)) 4
  marks : BitVec 4
  bank0 : List Word
  bank1 : List Word
  current : Nat
deriving DecidableEq, Repr

/-- One collective identifier's counters on a core (14_population R391), and the completion entry of a pending COLL. -/
structure CollCore where
  att : BitVec 16
  seq : BitVec 16
  pending : Option Nat
deriving DecidableEq, Repr

/-- Key releases of an ended codelet that wait for the acknowledgements of the posted entries its slot held (10_ordering R284). -/
structure OwedRelease where
  slot : Nat
  ids : List Nat
  packets : List Msg
deriving DecidableEq, Repr

/-- One core. `s`, `vs`, `pendS` and `pendVs` hold what every write that has issued leaves behind, and `stale`, oldest first, what is read
while one is in flight; `landed` are the writes from other agents of one cycle, `landing` the write-backs still to be done, `flight` the instructions
of the last two cycles, `ctlOld` what MFC still reads, and `granted`
the cycle before whose issue the slot allocator last granted a claim (03_strands R69), `ending` the steps of ended codelets that wait at their
descriptors, with CLEND's count (10_ordering R280), `arrived` the one before which a mailbox last took a record (08_messages R225); `rotOld` holds ROTLO and ROTHI as they apply until a core cycle (03_strands R76). -/
structure Core where
  slots : Vector Slot 16
  s : Vector Word 16
  vs : Vector Vec 16
  pendS : BitVec 16
  pendVs : BitVec 16
  stale : List Stale
  landed : List Landed
  landing : List Landing
  flight : List Flight
  ctlOld : List CtlOld
  granted : Option Nat
  arrived : Option Nat
  cycle : Nat
  rotlo : Word
  rothi : Word
  rotOld : List (Nat × Word × Word)
  pxw : Word
  mrgwin : Word
  logbase : Word
  logsize : Word
  fit : Word
  tvec : Word
  ksegbase : Word
  kseglim : Word
  lend : Bool
  mbbase : Vector Word 4
  mbsize : Vector Word 4
  mbarr : Vector Nat 4
  banks : Assoc Bank
  retention : List Retention
  waiters : List Waiter
  amq : List Active
  amClaim : Option Active
  ringHead : Nat
  ringCount : Nat
  ringStamps : List Nat
  heldPush : List (Nat × Option Msg)
  ending : List (Nat × Option Nat)
  staging : List Stage
  nextStage : Nat
  comp : Assoc Completion
  collDone : List Nat
  sb : List Span
  sbWait : List Span
  nextSpan : Nat
  press : PressCore
  colls : Assoc CollCore
  owed : List OwedRelease
  dirty : BitVec 256
  halted : Bool
deriving DecidableEq, Repr

/-- One barrier object (09_sync R260): its word, and the threads that wait in BARW. -/
structure Barrier where
  phase : Bool
  arrived : BitVec 8
  members : BitVec 8
deriving DecidableEq, Repr

/-- One leaf translation of a CTU (07_access R207): class, page number in 64 KiB units of its base, 2 MiB or 64 KiB, physical
base, W and A, and the step in which it was last used. -/
structure TlbEntry where
  cls : Nat
  vbase : Nat
  big : Bool
  pbase : Nat
  w : Bool
  a : Bool
  used : Nat
deriving DecidableEq, Repr

/-- One entry of a CTU's pointer cache (07_access R207): class, the root table from which it was reached, the level of the table it points to
(2, 3 or 4), the bits of the address above that table's span, and the table's base. -/
structure Pointer where
  cls : Nat
  root : Nat
  level : Nat
  top : Nat
  base : Nat
deriving DecidableEq, Repr

/-- A request that waits for a page walk (07_access R207, R211): its thread, the kind of its access, and its address. -/
structure WalkReq where
  core : CoreId
  slot : Nat
  gen : Nat
  access : Nat
  ga : Word
deriving DecidableEq, Repr

/-- A page walk (07_access R206, R207): the address of its first miss, the level whose table it reads next, 0 before it starts, and that
table, the pointers read so far, whether its result may be stored (R209), and its requests in their order of arrival. -/
structure Walk where
  cls : Nat
  va : BitVec 48
  level : Nat
  table : Nat
  seen : List Pointer
  keep : Bool
  reqs : List WalkReq
deriving DecidableEq, Repr

/-- A translation that no set of the TLB could take: it serves the request that caused the walk (07_access R207). -/
structure SpareLeaf where
  leaf : TlbEntry
  core : CoreId
  slot : Nat
  gen : Nat
deriving DecidableEq, Repr

/-- A fault-pending entry of a CTU (07_access R212): the page, by the number of a 64 KiB unit of it and its size, and the threads listed
(physical core and slot). -/
structure FaultPage where
  cls : Nat
  page : Nat
  big : Bool
  threads : List (Nat × Nat)
deriving DecidableEq, Repr

/-- The press command in progress: the position of its core, its scoreboard entry (12_engines R324), its status. -/
structure PressRun where
  pos : Nat
  cmd : PressCmd
  span : Option Nat
  status : Word
deriving DecidableEq, Repr

/-- The read of one operand of a core's oldest press command into its staging buffer (11_press R306, R307): the position of the core, the
command's completion entry, operand 0 (A, or the source of an MXLDA) or 1 (B), the tile by its GA, format (8 for an MXLDA), scale flag and
rows, its physical address, when the read began, pieces read, bytes, whether one was poison, whether no byte of the range has been written
since, and whether the data came from another fetch. -/
structure TileFetch where
  pos : Nat
  entry : Nat
  op : Nat
  ga : Word
  fmt : Nat
  scaled : Bool
  rows : Nat
  base : Nat
  began : Nat
  next : Nat
  bytes : List Byte
  bad : Bool
  clean : Bool
  joined : Bool
deriving DecidableEq, Repr

/-- One cluster: barrier objects, CTU and press arbiter (11_press R308). -/
structure Cluster where
  bars : Assoc Barrier
  tlb : List TlbEntry
  spares : List SpareLeaf
  ptrs : List Pointer
  walks : List Walk
  faults : List FaultPage
  arbPos : Nat
  arbCount : Nat
  running : Option PressRun
  fetches : List TileFetch
deriving DecidableEq, Repr

/-- What an access at a memory core's channel serves (12_engines R336, R337, R340): an MCRD or MCWR of a thread, with its write data; a packet
at the port; an engine command; a page walk. -/
inductive AccessFor where
  | thread (slot gen : Nat) (data : Option Word)
  | packet (m : Msg)
  | engine (cmd : Nat)
  | walk (cluster cls : Nat) (va : BitVec 48)
deriving DecidableEq, Repr

/-- An access at a memory core's channel: its source core, its address, and what it serves. -/
structure Access where
  core : CoreId
  addr : Nat
  for_ : AccessFor
deriving DecidableEq, Repr

/-- One HBM4E bank (12_engines R340, R341; 16_package R443): open row, when its last access ended, the access in service and
when it ends, the end of a refresh, refreshes of a repayment still to issue, debt, good spare rows left, remapped and retired rows, units
corrected in this patrol pass, and rows to be spared. -/
structure HbmBank where
  row : Option Nat
  lastEnd : Nat
  serving : Option (Access × Nat)
  refreshEnd : Option Nat
  repay : Nat
  debt : Nat
  spares : Nat
  spared : List (Nat × Nat)
  retired : List Nat
  fixed : List Nat
  sparing : List Nat
deriving DecidableEq, Repr

/-- One channel: its banks, waiting accesses, the cycle of its last access and of its last refresh slot, REFab commands of a drain that are
not complete and the end of the one in progress, the partition bound to its user slots, and the partition of the last request to each row,
by row * 16 + bank. -/
structure Channel where
  banks : Assoc HbmBank
  waiting : List Access
  began : Option Nat
  slotAt : Option Nat
  drain : Option Nat
  refab : Option Nat
  bound : Option Nat
  rowParts : Assoc Nat
deriving DecidableEq, Repr

/-- The effective fields of an admitted RCB (13_tasks R342, R343). -/
structure Rcb where
  level : Nat
  prio : Nat
  sigmode : Nat
  parent : Word
  bhmask : BitVec 64
  cores : Nat
  share : Nat
  keyns : Nat
  hcore : CoreId
  hmb : Nat
  tbase : List Word
  tlim : List Word
  withdrawn : Bool
deriving DecidableEq, Repr

/-- A waiter of a hardware queue (13_tasks R368). -/
structure QWaiter where
  core : CoreId
  slot : Nat
  gen : Nat
deriving DecidableEq, Repr

/-- One hardware queue (13_tasks R366). -/
structure HwQueue where
  capacity : Nat
  entries : List Word
  waiters : List QWaiter
deriving DecidableEq, Repr

/-- One chunk counter (13_tasks R369). -/
structure Chunk where
  next : Nat
  end_ : Nat
  minch : Nat
  divs : Nat
deriving DecidableEq, Repr

/-- One key record (13_tasks R361-R364): namespace, value, and the staging entries that wait (core, staging number). -/
structure KeyRec where
  ns : Nat
  key : BitVec 32
  waiters : List (Nat × Nat)
deriving DecidableEq, Repr

/-- What a saved core's image holds in device formats (15_system R424): the core with its press state, queues and tables, the barrier
objects of its cluster if it is at position 0, the number from which the bytes of those parts were drawn, and the physical core saved. -/
structure Image where
  core : Core
  bars : Assoc Barrier
  stamp : Nat
  home : CoreId
deriving DecidableEq, Repr

/-- A block of lineage records reserved for the pairs of a BLENDX that arrive from another package (14_population R388): that package, its
command number, first sequence number, and pairs still to arrive. -/
structure ArrivalBlock where
  peer : Nat
  cmd : Nat
  base : Nat
  left : Nat
deriving DecidableEq, Repr

/-- One partition. -/
structure Part where
  used : Bool
  map : Assoc (BitVec 8)
  height : Nat
  width : Nat
  srseed : Word
  ptroot1 : Word
  ptroot2 : Word
  fqbase : Word
  fqsize : Word
  fqhead : Word
  fqtail : Word
  fqdrop : Word
  linbase : Word
  linsize : Word
  linhead : Word
  ctxarea : Word
  tlbinvR : Word
  qcfgR : Word
  rcbadmR : Word
  preemptR : Word
  resumeR : Word
  rcbs : List (Word × Rcb)
  root : Word
  overflow : List Msg
  retryAt : Assoc Nat
  queues : Assoc HwQueue
  chunks : Assoc Chunk
  keys : List KeyRec
  linOpen : List Nat
  arrivals : List ArrivalBlock
  images : Assoc Image
deriving DecidableEq, Repr

/-- One bulkhead (16_package R430, R438, R440): BHCTL's fields, stopped by the governor, the partition that owns it, and what it
is changing to. -/
structure Bulkhead where
  bankpd : Bool
  dirty : Bool
  absent : Bool
  park : Nat
  pcur : Nat
  preq : Nat
  stopped : Bool
  owner : Option Nat
  target : Nat
  raising : Bool
deriving DecidableEq, Repr

/-- One virtual function's window and binding (16_package R452, R453). -/
structure VFun where
  bind : Word
  prod : BitVec 16
  cons : BitVec 16
  records : Assoc Word
  status : Assoc (BitVec 8)
deriving DecidableEq, Repr

/-- One fabric link (16_package R444, R445): replays in the window, failed retrainings in succession, retraining, failed. -/
structure Link where
  replays : Nat
  fails : Nat
  retraining : Bool
  failed : Bool
deriving DecidableEq, Repr

/-- Package-wide registers and units (15_system R406, 16_package R429). `groupAlt` are the peers whose traffic uses their alternate port,
`groupDown` those whose port in use has failed (R450), and `bridge` says that this package bridges its group to a host (R452). -/
structure Pkg where
  pmapsel : Word
  partctlR : Word
  mcbindR : Word
  bhsel : Word
  bhcmdR : Word
  pwrceil : Word
  steps : BitVec 16
  overDraw : Bool
  draw : BitVec 11
  winsel : Word
  windows : Assoc Word
  grpsel : Word
  groups : Assoc Word
  groupAlt : List Nat
  groupDown : List Nat
  bridge : Bool
  gbsel : Word
  bindings : Assoc Word
  rascnt : Word
  jrnlHead : Word
  jrnlsel : Word
  journal : Assoc (List Word)
  vfsel : Word
  vfs : Assoc VFun
  pkgid : Word
  fencedDies : BitVec 32
  altStacks : BitVec 8
  links : Assoc Link
  inReset : Bool
deriving DecidableEq, Repr

/-- Where bytes of a copy lie: a physical byte, a scratchpad by its partition-virtual coordinate, which the map translates when a
piece moves (07_access R202), or another package. -/
inductive Place where
  | at_ (a : Nat)
  | virt (v : CoreId) (off : Nat)
  | foreign (ga : Word)
deriving DecidableEq, Repr

/-- One row of a copy by its global addresses (12_engines R317); on a buffer side the address in backing 0. -/
structure CopyRow where
  src : Word
  dst : Word
  len : Nat
deriving DecidableEq, Repr

/-- A contiguous stretch of a copy: source, destination, where the buffer side lies in backing 1, bytes. -/
structure Stretch where
  src : Place
  dst : Place
  alt : Place
  len : Nat
deriving DecidableEq, Repr

/-- One member of an engine command: with merging, several cores share one source read (12_engines R322). `issued` is the core cycle in which
its instruction issued, and `granted` says that an entry has been granted at one of its destinations (R331). -/
structure Member where
  core : CoreId
  slot : Nat
  gen : Nat
  entry : Nat
  vtid : Nat
  rcb : Word
  part : Option Nat
  pc : Word
  issued : Nat
  rows : List CopyRow
  stretches : List Stretch
  cancelled : Bool
  granted : Bool
deriving DecidableEq, Repr

/-- A pair of a BLEND or BLENDX in service (14_population R383): its number, the offset of the next piece, none while it waits for its
scoreboard entry, the parent's bytes and poisoned pieces so far, and its flags. -/
structure PairWork where
  pair : Nat
  next : Option Nat
  data : List Byte
  bad : List Nat
  flags : BitVec 6
deriving DecidableEq, Repr

/-- Where an engine command is (12_engines R319, R326, R383; 14_population R391). -/
inductive Phase where
  /-- the merge window, open until this core cycle of the opener -/
  | window (due : Nat)
  /-- before the header access of a buffer, or of a PUBLISH -/
  | header
  /-- waiting for the range-scoreboard entries of these destination cores -/
  | grant (left : List CoreId)
  /-- moving pieces: offset of the next piece in the bytes of the copy -/
  | moving (next : Nat)
  /-- a PUBLISH that waits for earlier writers at its header, and the step in which it reached it -/
  | publishing (arrived : Nat)
  /-- pairs of a BLEND not yet done -/
  | pairs (left : List Nat)
  /-- complete, its status still to be delivered -/
  | complete
  /-- cancelled by pre-emption and kept for the replay; its members' cores are then virtual (12_engines R333) -/
  | saved
deriving DecidableEq, Repr

/-- One engine command in progress. kind: 0 copy, 1 publish, 3 push, 4 blend, 5 collective (12_engines R328 ENGKIND). `header` is the
place of a buffer's header and `hga` its GA; `buf` is the piece that has been read and not yet written, and whether it is poison;
`granted` says that an entry has been granted to a pair (R331), `work` are the pairs in service, and `peer` is the package of the children of a
BLENDX; `inbound` is the packet of a pair that has come in from another package, whose child this engine writes (14_population R388). -/
structure EngCmd where
  kind : Nat
  phase : Phase
  members : List Member
  desc : List Word
  sbuf : Bool
  dbuf : Bool
  header : Place
  front : Nat
  units : Nat
  nomerge : Bool
  pairsTable : List Word
  seqBase : Option Nat
  flags : BitVec 6
  code : Nat
  codes : Assoc Nat
  level : Nat
  hga : Word
  buf : Option (List Byte × Bool)
  granted : Bool
  work : List PairWork
  peer : Option Nat
  inbound : Option Msg
deriving DecidableEq, Repr

/-- A command-register write that has been sent and not yet carried out (15_system R410): register number, partition, word,
the core it came from, the thread that waits, and once a pre-emption has begun the virtual bulkheads it halts. -/
structure PendingCmd where
  reg : Nat
  part : Option Nat
  word : Word
  core : CoreId
  slot : Nat
  gen : Nat
  region : Option (List Nat)
deriving DecidableEq, Repr

/-- A fault record that its handler mailbox has not taken (15_system R416): partition, mailbox header, payload. -/
structure FaultRec where
  part : Option Nat
  header : Word
  payload : List Word
deriving DecidableEq, Repr

/-- One member's contribution in the reduction network: package and key, descriptor, members, data, poisoned doublewords, core,
physical DST, completion entry; none of the last three for a member of another package. -/
structure Contribution where
  key : Nat
  desc : List Word
  members : List Nat
  data : List Word
  bad : List Nat
  home : Option (CoreId × Nat × Nat)
deriving DecidableEq, Repr

/-- One collective instance in the reduction network (14_population R391): what has arrived so far, and whether it has failed. -/
structure CollInst where
  part : Nat
  id : Nat
  att : BitVec 16
  seq : BitVec 16
  got : List Contribution
  failed : Bool
deriving DecidableEq, Repr

/-- What moves next: a core runs one of its cycles, the transit clock counts, or a device step takes place (log 4, DESIGN CHOICE). -/
inductive Turn where
  | cycle (core : CoreId)
  | fabric
  | device (i : Instr)
deriving DecidableEq, Repr

/-- The state of the package.
`curCore`, `curSlot`: the thread whose instruction is executed; `schedule`: what moves next, oldest first; `turn`: the core that
runs when the schedule is empty; `free`: the counter of free values drawn; `tick`: the number of steps, for arrival stamps. -/
structure State where
  cores : Assoc Core
  clusters : Assoc Cluster
  channels : Assoc Channel
  parts : Assoc Part
  bulkheads : Assoc Bulkhead
  pkg : Pkg
  mem : List Host.Cell
  poison : Assoc Bool
  net : List Msg
  engine : Assoc EngCmd
  nextCmd : Nat
  commands : List PendingCmd
  faultRecs : List FaultRec
  fseq : Assoc (BitVec 32)
  colls : List CollInst
  egress : List Sent
  portHeld : List Msg
  fc : Nat
  tick : Nat
  free : Nat
  curCore : CoreId
  curSlot : Nat
  turn : CoreId
  schedule : List Turn
deriving DecidableEq, Repr

/-- The machine stops. -/
inductive Fault where
  /-- Raised by step when gateway die 16 failed its verification: the package stays in reset (16_package R447). Safe: the
  manual gives no further step. -/
  | packageInReset
deriving DecidableEq, Repr

/-- The model has no answer. -/
inductive Refusal where
  /-- An instruction that has no meaning in the model yet, by its mnemonic; raised by exec's arm. Safe. -/
  | notModelled (mnemonic : String)
deriving DecidableEq, Repr

/-- A context started by nothing: no codelet, no keys. -/
def Origin.none : Origin := ⟨false, false, 0, [], 0⟩

/-- A FREE slot after bulkhead reset (03_strands R68). -/
def Slot.reset : Slot where
  st := .free
  pc := 0
  p := Vector.replicate 16 0
  vp := Vector.replicate 16 0
  segBase := Vector.replicate 8 0
  segLim := Vector.replicate 8 0
  fpctl := 0
  fpst := 0
  cvtcnt := 0
  sigctl := 0
  chst := 0
  geom := 0
  logseq := 0
  latcnt := 0
  rcbptr := 0
  privst := 0
  epc := 0
  ecause := 0
  esegbase := 0
  eseglim := 0
  xlat := 0
  gen := 0
  outst := []
  owes := false
  pendP := 0
  pendV := 0
  posted := []
  nextPost := 0
  acq := 0
  readyAt := 0
  wait := .none
  park := none
  origin := Origin.none
  spilled := none
  wokenAt := none

/-- A powered, unpinned bank (R68). -/
def Bank.reset : Bank := ⟨true, 0, none, false⟩

/-- A FREE completion entry. -/
def Completion.reset : Completion := ⟨0, .free⟩

/-- The identity epilogue (11_press R303): control 0xC, SCALE 1.0, every BIAS 0. -/
def identityEpilogue : List Word := 0xC#64 :: 0x3F800000#64 :: List.replicate 18 0

/-- The press state of a core after bulkhead reset (R287). -/
def PressCore.reset : PressCore := ⟨[], Vector.replicate 4 [], 0, identityEpilogue, identityEpilogue, 0⟩

/-- A core after bulkhead reset. -/
def Core.reset : Core where
  slots := Vector.replicate 16 Slot.reset
  s := Vector.replicate 16 0
  vs := Vector.replicate 16 0
  pendS := 0
  pendVs := 0
  stale := []
  landed := []
  landing := []
  flight := []
  ctlOld := []
  granted := none
  arrived := none
  cycle := 0
  rotlo := 0x000000398A418820#64
  rothi := 0x0000007B9AC5A928#64
  rotOld := []
  pxw := 1
  mrgwin := 16
  logbase := 0
  logsize := 0
  fit := 0x7FC00000#64
  tvec := 0
  ksegbase := 0
  kseglim := 0
  lend := false
  mbbase := Vector.replicate 4 0
  mbsize := Vector.replicate 4 0
  mbarr := Vector.replicate 4 0
  banks := []
  retention := []
  waiters := []
  amq := []
  amClaim := none
  ringHead := 0
  ringCount := 0
  ringStamps := []
  heldPush := []
  ending := []
  staging := []
  nextStage := 0
  comp := []
  collDone := []
  sb := []
  sbWait := []
  nextSpan := 0
  press := PressCore.reset
  colls := []
  owed := []
  dirty := 0
  halted := false

/-- A barrier object after bulkhead reset (09_sync R260). -/
def Barrier.reset : Barrier := ⟨false, 0, 0⟩

/-- A cluster after bulkhead reset. -/
def Cluster.reset : Cluster := ⟨[], [], [], [], [], [], 0, 0, none, []⟩

/-- A bank with no open row and its eight spare rows. -/
def HbmBank.reset : HbmBank := ⟨none, 0, none, none, 0, 0, 8, [], [], [], []⟩

/-- A channel after start. -/
def Channel.reset : Channel := ⟨[], [], none, none, none, none, none, []⟩

/-- A closed queue. -/
def HwQueue.reset : HwQueue := ⟨0, [], []⟩

/-- A chunk counter after partition creation (13_tasks R369). -/
def Chunk.reset : Chunk := ⟨0, 0, 0, 0⟩

/-- A partition number not in use. -/
def Part.reset : Part where
  used := false
  map := []
  height := 0
  width := 0
  srseed := 0
  ptroot1 := 0
  ptroot2 := 0
  fqbase := 0
  fqsize := 0
  fqhead := 0
  fqtail := 0
  fqdrop := 0
  linbase := 0
  linsize := 0
  linhead := 0
  ctxarea := 0
  tlbinvR := 0
  qcfgR := 0
  rcbadmR := 0
  preemptR := 0
  resumeR := 0
  rcbs := []
  root := 0
  overflow := []
  retryAt := []
  queues := []
  chunks := []
  keys := []
  linOpen := []
  arrivals := []
  images := []

/-- A bulkhead after start (16_package R430): running at P1. -/
def Bulkhead.reset : Bulkhead := ⟨false, false, false, 0, 1, 1, false, none, 0, false⟩

/-- A virtual function with nothing posted. -/
def VFun.reset : VFun := ⟨0, 0, 0, [], []⟩

/-- A link in service. -/
def Link.reset : Link := ⟨0, 0, false, false⟩

/-- The package registers after bring-up (16_package R429, R439). -/
def Pkg.reset : Pkg where
  pmapsel := 0
  partctlR := 0
  mcbindR := 0
  bhsel := 0
  bhcmdR := 0
  pwrceil := 1100
  steps := 0
  overDraw := false
  draw := 0
  winsel := 0
  windows := []
  grpsel := 0
  groups := []
  groupAlt := []
  groupDown := []
  bridge := false
  gbsel := 0
  bindings := []
  rascnt := 0
  jrnlHead := 0
  jrnlsel := 0
  journal := []
  vfsel := 0
  vfs := []
  pkgid := 0
  fencedDies := 0
  altStacks := 0
  links := []
  inReset := false

/-- The package right after bring-up (16_package R446): every register at its reset value, every scratchpad zero, no
partition, no die fenced. -/
def State.reset : State where
  cores := []
  clusters := []
  channels := []
  parts := []
  bulkheads := []
  pkg := Pkg.reset
  mem := []
  poison := []
  net := []
  engine := []
  nextCmd := 0
  commands := []
  faultRecs := []
  fseq := []
  colls := []
  egress := []
  portHeld := []
  fc := 0
  tick := 0
  free := 0
  curCore := 0
  curSlot := 0
  turn := 0
  schedule := []

end Sys2Proof.Machine
end

