-- ==== Sys2Proof/Machine/Bits.lean ====
section
/-! DEFINITION. Bit fields, sign extension and byte order (00_scope R3, R9). -/

namespace Sys2Proof.Machine

/-- bits(x, hi, lo) of R9. -/
def bf {n : Nat} (x : BitVec n) (hi lo : Nat) : Nat := fld x.toNat hi lo

/-- Bit i of x. -/
def bit {n : Nat} (x : BitVec n) (i : Nat) : Bool := x.getLsbD i

/-- x with bits hi down to lo replaced by the low bits of v. -/
def setf (x : Word) (hi lo v : Nat) : Word :=
  let m : Word := BitVec.ofNat 64 ((2 ^ (hi + 1 - lo) - 1) * 2 ^ lo)
  (x &&& ~~~m) ||| (BitVec.ofNat 64 (v * 2 ^ lo) &&& m)

/-- Keep only bits hi down to lo of x. -/
def keepf (x : Word) (hi lo : Nat) : Word := BitVec.ofNat 64 (bf x hi lo * 2 ^ lo)

/-- sext(x, n) of R9: the low n bits of x, sign-extended to 64 bits. -/
def sextN (x n : Nat) : Word :=
  let y := x % 2 ^ n
  if n ≠ 0 ∧ 2 ^ (n - 1) ≤ y then BitVec.ofInt 64 ((y : Int) - (2 : Int) ^ n) else BitVec.ofNat 64 y

/-- The value of a bit string of n bits as a signed integer. -/
def sintN (x n : Nat) : Int :=
  let y := x % 2 ^ n
  if n ≠ 0 ∧ 2 ^ (n - 1) ≤ y then (y : Int) - (2 : Int) ^ n else y

/-- n bytes of a value, lowest address first. -/
def bytesOf (v : Nat) : Nat → List Byte
  | 0 => []
  | n + 1 => BitVec.ofNat 8 v :: bytesOf (v / 256) n

/-- The value of bytes, lowest address first. -/
def ofBytes : List Byte → Nat
  | [] => 0
  | b :: rest => b.toNat + 256 * ofBytes rest

/-- A pc or address moved by a byte displacement in its offset, bits [60:0]; the segment number stays (03_strands R82). -/
def addOffset (pc : Word) (delta : Word) : Word :=
  BitVec.ofNat 64 (bf pc 63 61 * 2 ^ 61 + (bf pc 60 0 + bf delta 60 0) % 2 ^ 61)

/-- (int64) of a doubleword lies below another. -/
def slt (a b : Word) : Bool := decide (a.toInt < b.toInt)

/-- mix of 05_numbers R152. -/
def mix (z : Word) : Word :=
  let z := (z ^^^ (z >>> 32)) * 0xC4F36A1D5B92E877#64
  let z := (z ^^^ (z >>> 29)) * 0x8D2B91E537A64C3D#64
  z ^^^ (z >>> 32)

end Sys2Proof.Machine
end

