-- ==== Sys2Proof/Machine/Geometry.lean ====
section
/-! DEFINITION. Where cores, clusters, bulkheads and bytes lie (01_machine R10-R29). -/

namespace Sys2Proof.Machine

/-- Die, row and column of a core number (R15). -/
def dieOf (c : CoreId) : Nat := c / 1024
def rowOf (c : CoreId) : Nat := c / 32 % 32
def colOf (c : CoreId) : Nat := c % 32

/-- The core number of a coordinate. -/
def coreAt (die row col : Nat) : CoreId := die * 1024 + row * 32 + col

/-- A compute core: dies 0-15 (R14). -/
def isCompute (c : CoreId) : Bool := decide (dieOf c < 16)

/-- A gateway core: die 16-19, row 0, columns 0-15 (R14). -/
def isGateway (c : CoreId) : Bool := decide (16 ≤ dieOf c ∧ dieOf c ≤ 19 ∧ rowOf c = 0 ∧ colOf c < 16)

/-- A memory core: die 24-31, row 0 (R14). -/
def isMemoryCore (c : CoreId) : Bool := decide (24 ≤ dieOf c ∧ dieOf c ≤ 31 ∧ rowOf c = 0)

/-- The coordinate names a core (R14). -/
def isCore (c : CoreId) : Bool := isCompute c || isGateway c || isMemoryCore c

/-- Bytes of the core's scratchpad (R27). -/
def scratchSize (c : CoreId) : Nat := if isCompute c then 0x80000 else 0x10000

/-- Package-wide number of the core's cluster (R17): compute clusters are die * 128 + index. Any other core is its own, with a translation unit of
its own (log 87, DESIGN CHOICE). -/
def clusterOf (c : CoreId) : Nat :=
  if isCompute c then dieOf c * 128 + rowOf c / 2 * 8 + colOf c / 4 else 65536 + c

/-- Position 0-7 in the cluster (R17). -/
def posOf (c : CoreId) : Nat := if isCompute c then rowOf c % 2 * 4 + colOf c % 4 else 0

/-- The core at a position of the cluster of c. -/
def clusterCore (cl pos : Nat) : CoreId :=
  if cl < 65536 then coreAt (cl / 128) (cl % 128 / 8 * 2 + pos / 4) (cl % 8 * 4 + pos % 4) else cl - 65536

/-- Mesh position (R20) of a compute core. -/
def meshX (c : CoreId) : Nat := dieOf c % 4 * 32 + colOf c
def meshY (c : CoreId) : Nat := dieOf c / 4 * 32 + rowOf c

/-- The compute core at a mesh position. -/
def coreAtXY (x y : Nat) : CoreId := coreAt (y / 32 * 4 + x / 32) (y % 32) (x % 32)

/-- Bulkhead number 0-63 of a compute core (R18). -/
def bulkheadOf (c : CoreId) : Nat := meshY c / 16 * 8 + meshX c / 16

/-- The primary and the alternate die of a stack (R11). -/
def primaryDie (stack : Nat) : Nat := if stack < 4 then stack else 8 + stack
def alternateDie (stack : Nat) : Nat :=
  let p := primaryDie stack
  if p % 2 = 0 then p + 1 else p - 1

/-- The attach router of a core (R20): mesh position at which its packets enter and leave; alt says which stacks use their
alternate port (R12). -/
def attachXY (alt : BitVec 8) (c : CoreId) : Nat × Nat :=
  if isCompute c then (meshX c, meshY c)
  else if isMemoryCore c then
    let stack := dieOf c - 24
    let p := if bit alt stack then alternateDie stack else primaryDie stack
    (p % 4 * 32 + colOf c, if stack < 4 then 0 else 127)
  else
    let g := dieOf c - 16
    (if g < 2 then 0 else 127, g % 2 * 64 + 4 * colOf c)

/-- The numbers from a to b, in either direction, both included. -/
def between (a b : Nat) : List Nat :=
  let lo := min a b
  (List.range (max a b - lo + 1)).map (fun i => lo + i)

/-- The compute dies a packet between two mesh positions passes: first along its row, then along its column (R21). -/
def routeDies (src dst : Nat × Nat) : List Nat :=
  (between (src.1 / 32) (dst.1 / 32)).map (fun x => src.2 / 32 * 4 + x)
    ++ (between (src.2 / 32) (dst.2 / 32)).map (fun y => y * 4 + dst.1 / 32)

/-- The number the model gives the mesh link that leaves router (x, y) east 0, west 1, south 2 or north 3 (log 12, DESIGN CHOICE). -/
def linkNo (x y dir : Nat) : Nat := (y * 128 + x) * 4 + dir

/-- The links a packet between two mesh positions takes (R21). -/
def routeLinks (src dst : Nat × Nat) : List Nat :=
  (if src.1 < dst.1 then (List.range (dst.1 - src.1)).map (fun i => linkNo (src.1 + i) src.2 0)
    else (List.range (src.1 - dst.1)).map (fun i => linkNo (src.1 - i) src.2 1))
  ++ (if src.2 < dst.2 then (List.range (dst.2 - src.2)).map (fun i => linkNo dst.1 (src.2 + i) 2)
    else (List.range (src.2 - dst.2)).map (fun i => linkNo dst.1 (src.2 - i) 3))

/-- A physical byte address: class * 2^48 + bits [47:0] of the physical GA (R26, R27). -/
def scratchAddr (c : CoreId) (off : Nat) : Nat := c * 2 ^ 33 + off

/-- The class of a physical byte address. -/
def addrClass (a : Nat) : Nat := a / 2 ^ 48

/-- The one home of a byte (R28). -/
def homeOf (a : Nat) : CoreId :=
  let o := a % 2 ^ 48
  match addrClass a with
  | 1 => coreAt (24 + o / 2 ^ 45) 0 (fld o 12 8)
  | 2 => coreAt (16 + o / 2 ^ 46) 0 (fld o 11 8)
  | _ => o / 2 ^ 33

/-- Offset in the home's scratchpad of a class-0 address. -/
def scratchOff (a : Nat) : Nat := a % 2 ^ 33

/-- The memory core at whose attach router a carafe structure of a stack is entered. -/
def carafeCore (stack channel : Nat) : CoreId := coreAt (24 + stack) 0 channel

/-- The memory core at whose attach router a partition's overflow queue is entered (07_access R202). -/
def overflowCore (p : Nat) : CoreId := carafeCore (p % 8) (4 * (p / 8 % 8))

/-- The self coordinate of 07_access R187: die, row and column all 31. -/
def selfCoord : CoreId := 32767

/-- The physical address of a 48-bit class-1 or class-2 physical GA, if it lies within capacity (R27). -/
def capacityOk (cls pa : Nat) : Bool :=
  if cls = 1 then decide (pa % 2 ^ 45 < 0xC00000000) else if cls = 2 then decide (pa % 2 ^ 46 < 0x2000000000) else false

end Sys2Proof.Machine
end

