-- ==== Sys2Proof/Machine/Store.lean ====
section
/-! DEFINITION. Reading and writing the state: cores, slots, registers (02_encoding R40) and memory with its poison marks
(01_machine R28, 16_package R441). Every byte has one home and one place in the canonical list. -/

namespace Sys2Proof.Machine

/-- A firmware slot: every slot of a gateway core, slots 0-7 of a memory core (12_engines R335, 15_system R398). -/
def firmwareSlot (c : CoreId) (k : Nat) : Bool := isGateway c || (isMemoryCore c && decide (k < 8))

/-- A core after start: its firmware slots hold level 2 (15_system R398; 12_engines R335). -/
def Core.initial (c : CoreId) : Core :=
  if isCompute c then Core.reset
  else { Core.reset with slots := Vector.ofFn (fun (k : Fin 16) => if firmwareSlot c k.val then { Slot.reset with privst := 2 } else Slot.reset) }

/-- A core as the state lists it, or as it is after reset. -/
def State.core (s : State) (c : CoreId) : Core := s.cores.getD c (Core.initial c)

def State.setCore (s : State) (c : CoreId) (x : Core) : State := { s with cores := s.cores.put c x }

def State.modCore (s : State) (c : CoreId) (f : Core → Core) : State := s.setCore c (f (s.core c))

def State.cluster (s : State) (cl : Nat) : Cluster := s.clusters.getD cl Cluster.reset

def State.modCluster (s : State) (cl : Nat) (f : Cluster → Cluster) : State :=
  { s with clusters := s.clusters.put cl (f (s.cluster cl)) }

def State.channel (s : State) (mc : CoreId) : Channel := s.channels.getD mc Channel.reset

def State.modChannel (s : State) (mc : CoreId) (f : Channel → Channel) : State :=
  { s with channels := s.channels.put mc (f (s.channel mc)) }

def State.part (s : State) (p : Nat) : Part := s.parts.getD p Part.reset

def State.modPart (s : State) (p : Nat) (f : Part → Part) : State :=
  { s with parts := s.parts.put p (f (s.part p)) }

def State.bulkhead (s : State) (b : Nat) : Bulkhead := s.bulkheads.getD b Bulkhead.reset

def State.modBulkhead (s : State) (b : Nat) (f : Bulkhead → Bulkhead) : State :=
  { s with bulkheads := s.bulkheads.put b (f (s.bulkhead b)) }

/-- A slot number as an index: 0-15. -/
def slotIx (k : Nat) : Fin 16 := ⟨k % 16, Nat.mod_lt _ (by decide)⟩

def Core.slot (x : Core) (k : Nat) : Slot := x.slots[slotIx k]

def Core.setSlot (x : Core) (k : Nat) (y : Slot) : Core := { x with slots := x.slots.set (slotIx k) y }

def Core.modSlot (x : Core) (k : Nat) (f : Slot → Slot) : Core := x.setSlot k (f (x.slot k))

def State.slot (s : State) (c : CoreId) (k : Nat) : Slot := (s.core c).slot k

def State.setSlot (s : State) (c : CoreId) (k : Nat) (y : Slot) : State := s.modCore c (fun x => x.setSlot k y)

def State.modSlot (s : State) (c : CoreId) (k : Nat) (f : Slot → Slot) : State := s.modCore c (fun x => x.modSlot k f)

/-- The issuing thread's slot. -/
def State.cur (s : State) : Slot := s.slot s.curCore s.curSlot

def State.modCur (s : State) (f : Slot → Slot) : State := s.modSlot s.curCore s.curSlot f

/-- Bank index of a register field: the low four bits. -/
def regIx (r : Reg) : Fin 16 := ⟨r.toNat % 16, Nat.mod_lt _ (by decide)⟩

/-- The older value of a shared register that an instruction issuing in this cycle reads (03_strands R71, R77). -/
def Core.staleOf (x : Core) (d : Dest) : Option Stale := x.stale.find? (fun e => decide (e.reg = d ∧ x.cycle < e.till))

/-- Keep what a shared register holds, and its pending mark, for the instructions that read it before the WB of this one, of slot k: it issues
in this cycle i, writes in i + 7, and one that issues in j reads in j + 3 (R71). -/
def Core.keepOld (x : Core) (k : Nat) (d : Dest) (v : Vec) (p : Bool) : Core :=
  { x with stale := x.stale.filter (fun e => decide (x.cycle ≤ e.till)) ++ [⟨d, k, x.cycle + 5, v, p⟩] }

/-- Replace the value of the first entry that qualifies. -/
def overwriteFirst (p : Stale → Bool) (v : Vec) : List Stale → List Stale
  | [] => []
  | e :: rest => if p e then { e with value := v } :: rest else e :: overwriteFirst p v rest

/-- A write that lands while another one to the same shared register is in flight: it is seen until that one lands (R77, R104). -/
def Core.overwrite (x : Core) (d : Dest) (v : Vec) : Core :=
  { x with stale := overwriteFirst (fun e => decide (e.reg = d ∧ x.cycle < e.till)) v x.stale }

/-- A shared register that a slot no longer writes at a WB in flight, and that no instruction reads as pending any more. -/
def Core.settleHandle (x : Core) (k : Nat) (d : Dest) : Core :=
  { x with stale := (x.stale.filter (fun e => !decide (e.reg = d ∧ e.slot = k))).map (fun e => if e.reg = d then { e with pend := false } else e) }

/-- A write of a shared register by another agent than a WB, in the cycle of this step, is lost to a write of a higher-numbered slot in the
same cycle (R77). The step stands before the first issue whose RR sees it: before the issue of cycle n for a write in cycle n + 2, which is
the cycle of a WB whose `till` is n. -/
def Core.outranked (x : Core) (k : Nat) (d : Dest) : Bool :=
  x.stale.any (fun e => decide (e.reg = d ∧ e.till = x.cycle ∧ k < e.slot))
    || x.landed.any (fun e => decide (e.reg = d ∧ e.at_ = x.cycle ∧ k < e.slot))

/-- Note such a write. -/
def Core.noteLanded (x : Core) (k : Nat) (d : Dest) : Core :=
  { x with landed := x.landed.filter (fun e => decide (e.at_ = x.cycle)) ++ [⟨d, k, x.cycle⟩] }

/-- What a scalar register field holds once every write in flight has landed: p0 reads as zero; 16-31 select s0-s15 (R40). -/
def lastReg (s : State) (c : CoreId) (k : Nat) (r : Reg) : Word :=
  if r = 0 then 0
  else if r.toNat < 16 then (s.slot c k).p[regIx r]
  else (s.core c).s[regIx r]

/-- What a vector register field holds once every write in flight has landed (06_vector R157). -/
def lastVec (s : State) (c : CoreId) (k : Nat) (r : Reg) : Vec :=
  if r.toNat < 16 then (s.slot c k).vp[regIx r] else (s.core c).vs[regIx r]

/-- Read a scalar register field in RR (R40, R77). -/
def readReg (s : State) (c : CoreId) (k : Nat) (r : Reg) : Word :=
  if r.toNat < 16 then lastReg s c k r
  else match (s.core c).staleOf (.scalar r) with
    | some e => e.value.setWidth 64
    | none => lastReg s c k r

/-- Read a vector register field in RR (06_vector R157, R180). -/
def readVec (s : State) (c : CoreId) (k : Nat) (r : Reg) : Vec :=
  if r.toNat < 16 then lastVec s c k r
  else match (s.core c).staleOf (.vector r) with
    | some e => e.value
    | none => lastVec s c k r

/-- Store a scalar register field: a write to p0 is discarded (R40). -/
def storeReg (s : State) (c : CoreId) (k : Nat) (r : Reg) (v : Word) : State :=
  if r = 0 then s
  else if r.toNat < 16 then s.modSlot c k (fun t => { t with p := t.p.set (regIx r) v })
  else s.modCore c (fun x => { x with s := x.s.set (regIx r) v })

/-- Store a vector register field: all 256 bits at once (06_vector R180). -/
def storeVec (s : State) (c : CoreId) (k : Nat) (r : Reg) (v : Vec) : State :=
  if r.toNat < 16 then s.modSlot c k (fun t => { t with vp := t.vp.set (regIx r) v })
  else s.modCore c (fun x => { x with vs := x.vs.set (regIx r) v })

/-- A write from an asynchronous agent or of an operation longer than the pipeline: it lands now (R77). -/
def writeReg (s : State) (c : CoreId) (k : Nat) (r : Reg) (v : Word) : State :=
  if r.toNat < 16 then storeReg s c k r v
  else if (s.core c).outranked k (.scalar r) then s
  else if ((s.core c).staleOf (.scalar r)).isSome then s.modCore c (fun x => (x.noteLanded k (.scalar r)).overwrite (.scalar r) (v.setWidth 256))
  else storeReg (s.modCore c (fun x => x.noteLanded k (.scalar r))) c k r v

/-- The same for a vector register. -/
def writeVec (s : State) (c : CoreId) (k : Nat) (r : Reg) (v : Vec) : State :=
  if r.toNat < 16 then storeVec s c k r v
  else if (s.core c).outranked k (.vector r) then s
  else if ((s.core c).staleOf (.vector r)).isSome then s.modCore c (fun x => (x.noteLanded k (.vector r)).overwrite (.vector r) v)
  else storeVec (s.modCore c (fun x => x.noteLanded k (.vector r))) c k r v

/-- A write at the WB of an instruction that issues in this cycle (R71, R77). -/
def backReg (s : State) (c : CoreId) (k : Nat) (r : Reg) (v : Word) : State :=
  if 16 ≤ r.toNat then
    storeReg (s.modCore c (fun x => x.keepOld k (.scalar r) (x.s[regIx r].setWidth 256) (bit x.pendS (regIx r).val))) c k r v
  else storeReg s c k r v

/-- The same for a vector register. -/
def backVec (s : State) (c : CoreId) (k : Nat) (r : Reg) (v : Vec) : State :=
  if 16 ≤ r.toNat then
    storeVec (s.modCore c (fun x => x.keepOld k (.vector r) x.vs[regIx r] (bit x.pendVs (regIx r).val))) c k r v
  else storeVec s c k r v

/-- A write at the WB of the issuing instruction, or one that lands now. -/
def giveReg (wb : Bool) (s : State) (c : CoreId) (k : Nat) (r : Reg) (v : Word) : State :=
  if wb then backReg s c k r v else writeReg s c k r v

/-- The same for a vector register. -/
def giveVec (wb : Bool) (s : State) (c : CoreId) (k : Nat) (r : Reg) (v : Vec) : State :=
  if wb then backVec s c k r v else writeVec s c k r v

/-- Write a result to a destination; it lands now. -/
def writeDest (s : State) (c : CoreId) (k : Nat) (d : Dest) (v : Vec) : State :=
  match d with
  | .nowhere => s
  | .scalar r => writeReg s c k r (v.setWidth 64)
  | .vector r => writeVec s c k r v

/-- The pending mark of a register field once every write in flight has landed. p0 is never pending. -/
def lastPending (s : State) (c : CoreId) (k : Nat) (d : Dest) : Bool :=
  match d with
  | .nowhere => false
  | .scalar r => if r.toNat < 16 then r != 0 && bit (s.slot c k).pendP (regIx r).val else bit (s.core c).pendS (regIx r).val
  | .vector r => if r.toNat < 16 then bit (s.slot c k).pendV (regIx r).val else bit (s.core c).pendVs (regIx r).val

/-- Whether a field names a shared register. -/
def Dest.shared : Dest → Bool
  | .nowhere => false
  | .scalar r | .vector r => decide (16 ≤ r.toNat)

/-- Whether the register of a field is pending in RR (03_strands R77, R78). -/
def isPending (s : State) (c : CoreId) (k : Nat) (d : Dest) : Bool :=
  if d.shared then
    match (s.core c).staleOf d with
    | some e => e.pend
    | none => lastPending s c k d
  else lastPending s c k d

/-- A bit string with one bit set or cleared. -/
def putBit {n : Nat} (x : BitVec n) (i : Nat) (b : Bool) : BitVec n :=
  if b then x ||| BitVec.ofNat n (2 ^ i) else x &&& ~~~(BitVec.ofNat n (2 ^ i))

/-- Set or clear the pending mark of a scalar register field. -/
def setPending (s : State) (c : CoreId) (k : Nat) (r : Reg) (b : Bool) : State :=
  if r = 0 then s
  else if r.toNat < 16 then s.modSlot c k (fun t => { t with pendP := putBit t.pendP (regIx r).val b })
  else s.modCore c (fun x => { x with pendS := putBit x.pendS (regIx r).val b })

/-- The handle of a slot in a shared register is still on its way to its WB. -/
def Core.handleInFlight (x : Core) (k : Nat) (r : Reg) : Bool :=
  x.stale.any (fun e => decide (e.reg = .scalar r ∧ e.slot = k ∧ x.cycle < e.till))

/-- A completion status lands in its handle register after the handle itself, and the mark is cleared (12_engines R329). Where the handle is
still on its way to its WB the status takes its place there. -/
def completeReg (s : State) (c : CoreId) (k : Nat) (r : Reg) (v : Word) : State :=
  let s1 := if 16 ≤ r.toNat then s.modCore c (fun x => x.settleHandle k (.scalar r)) else s
  setPending (if (s.core c).handleInFlight k r then storeReg (s1.modCore c (fun x => x.overwrite (.scalar r) (v.setWidth 256))) c k r v
    else writeReg s1 c k r v) c k r false

/-- The canonical form of memory: addresses strictly rising, no entry equal to zero, which an unlisted byte reads as (log 1, DESIGN CHOICE). -/
def Memory.wf (m : List Host.Cell) : Bool := Assoc.sparseWf (0 : Byte) m

/-- One byte at a physical address (log 1, DESIGN CHOICE: a byte that nothing has written reads as zero). -/
def State.readByte (s : State) (a : Nat) : Byte := Assoc.getD s.mem a 0

/-- n bytes from a physical address, as a number, lowest address lowest. -/
def State.readBytes (s : State) (a : Nat) : Nat → List Byte
  | 0 => []
  | n + 1 => s.readByte a :: s.readBytes (a + 1) n

def State.readNat (s : State) (a n : Nat) : Nat := ofBytes (s.readBytes a n)

/-- A doubleword at a physical address. -/
def State.readWord (s : State) (a : Nat) : Word := BitVec.ofNat 64 (s.readNat a 8)

/-- Doublewords from a physical address. -/
def State.readWords (s : State) (a : Nat) : Nat → List Word
  | 0 => []
  | n + 1 => s.readWord a :: s.readWords (a + 8) n

/-- The cells that bytes from an address list: a zero is not listed. -/
def cellsOf (a : Nat) : List Byte → List Host.Cell
  | [] => []
  | b :: rest => if b = 0 then cellsOf (a + 1) rest else (a, b) :: cellsOf (a + 1) rest

/-- Put bytes into the memory list. -/
def putBytes (m : List Host.Cell) (a : Nat) (bs : List Byte) : List Host.Cell :=
  m.takeWhile (fun e => decide (e.1 < a)) ++ (cellsOf a bs ++ m.dropWhile (fun e => decide (e.1 < a + bs.length)))

/-- The 8-byte words that n bytes from a touch, by number. -/
def wordsOf (a n : Nat) : List Nat :=
  if n = 0 then [] else (List.range ((a + n - 1) / 8 - a / 8 + 1)).map (fun i => a / 8 + i)

/-- Whether any word that n bytes from a touch is poisoned (16_package R441). -/
def State.isPoisoned (s : State) (a n : Nat) : Bool := (wordsOf a n).any (fun w => Assoc.getD s.poison w false)

/-- A store of a whole word clears its poison; a store of part of a word leaves it poisoned (R441). -/
def clearPoison (p : Assoc Bool) (a n : Nat) : Assoc Bool :=
  (wordsOf a n).foldl (fun q w => if a ≤ w * 8 ∧ w * 8 + 8 ≤ a + n then Assoc.putSparse false q w false else q) p

/-- Mark every word that n bytes touch as poisoned. -/
def setPoison (p : Assoc Bool) (a n : Nat) : Assoc Bool :=
  (wordsOf a n).foldl (fun q w => Assoc.putSparse false q w true) p

/-- The dirty-map bits of the 2 KiB blocks that n bytes from a scratchpad offset touch (15_system R425). -/
def dirtyBits (off n : Nat) : BitVec 256 :=
  (List.range ((off + n - 1) / 2048 + 1 - off / 2048)).foldl (fun m i => putBit m (off / 2048 + i) true) 0

/-- Record a write to a scratchpad in the dirty map of its compute core. -/
def State.markDirty (s : State) (a n : Nat) : State :=
  if addrClass a = 0 ∧ isCompute (homeOf a) = true ∧ n ≠ 0 then
    s.modCore (homeOf a) (fun x => { x with dirty := x.dirty ||| dirtyBits (scratchOff a) n })
  else s

/-- Bank and row of an HBM4E byte (12_engines R340). -/
def hbmBank (a : Nat) : Nat := a / 2 ^ 15 % 16
def hbmRow (a : Nat) : Nat := a % 2 ^ 45 / 2 ^ 19

/-- The row of a byte is retired: writes to it are discarded (16_package R443). -/
def State.rowRetired (s : State) (a : Nat) : Bool :=
  addrClass a == 1 && ((s.channel (homeOf a)).banks.getD (hbmBank a) HbmBank.reset).retired.contains (hbmRow a)

/-- The last request to a row of HBM4E is for this partition (R443). -/
def State.noteRow (s : State) (part : Option Nat) (a : Nat) : State :=
  match part with
  | some p =>
    if addrClass a = 1 then s.modChannel (homeOf a) (fun h => { h with rowParts := h.rowParts.put (hbmRow a * 16 + hbmBank a) p }) else s
  | none => s

/-- Depth K and element bits of a press format code (11_press R288). -/
def pressK (f : Nat) : Nat := match f with | 0 => 8 | 1 => 32 | 2 => 32 | 6 => 128 | _ => 64
def pressBits (f : Nat) : Nat := match f with | 0 => 32 | 1 => 16 | 2 => 16 | 6 => 4 | _ => 8

/-- Row bytes. -/
def pressRow (f : Nat) : Nat := pressK f * pressBits f / 8

/-- Bytes from a tile's address to the last byte accessed (11_press R297). -/
def operandBytes (f : Nat) (scaled : Bool) (rows : Nat) : Nat :=
  if scaled then 32 * pressRow f + rows * (pressK f / 32) else rows * pressRow f

/-- Bytes of the tile that a fetch reads: 4,096 for an MXLDA. -/
def TileFetch.size (f : TileFetch) : Nat := if f.fmt = 8 then 4096 else operandBytes f.fmt f.scaled f.rows

/-- A write of n bytes from a touches the tile of a press fetch, 4,352 bytes at most from its address (11_press R289). -/
def TileFetch.touched (f : TileFetch) (a n : Nat) : Bool := decide (a < f.base + f.size ∧ f.base < a + n)

/-- No other press command takes a tile from a fetch that began before a write to it (11_press R307). -/
def State.noteWrite (s : State) (a n : Nat) : State :=
  let cl := clusterOf (homeOf a)
  if addrClass a = 0 && (s.cluster cl).fetches.any (fun f => f.clean && f.touched a n) then
    s.modCluster cl (fun u => { u with fetches := u.fetches.map (fun f => if f.touched a n then { f with clean := false } else f) })
  else s

/-- Write bytes at a physical address: the bytes, their poison and the dirty map. -/
def State.putMem (s : State) (a : Nat) (bs : List Byte) : State :=
  if s.rowRetired a then s
  else State.markDirty ({ s with mem := putBytes s.mem a bs, poison := clearPoison s.poison a bs.length }.noteWrite a bs.length) a bs.length

/-- Write a poisoned 8-byte piece: its bytes as they stood in the source, and the mark. No waiter is tested against it (log 50, DESIGN CHOICE). -/
def State.putPoison (s : State) (a : Nat) (bs : List Byte) : State :=
  if s.rowRetired a then s
  else State.markDirty ({ s with mem := putBytes s.mem a bs, poison := setPoison s.poison a bs.length }.noteWrite a bs.length) a bs.length

/-- Draw a fresh free value (log 5, DESIGN CHOICE). -/
def State.fresh (s : State) : State := { s with free := s.free + 1 }

end Sys2Proof.Machine
end

