-- ==== Sys2Proof/Machine/Ops.lean ====
section
/-! DEFINITION. The operations that instructions and device steps share: who a thread is, fault records and the taking of a
fault (15_system R414-R418), generations (03_strands R89), retiring and the signature checker (R98-R102), blocking (R78, R79),
sending packets and answering them (08_messages R213, 07_access R191-R194), and writes with their waiters (09_sync R266). -/

namespace Sys2Proof.Machine

/-! ### Threads, partitions and coordinates -/

/-- The partition a thread works for: the owner of its bulkhead, or the partition bound to a memory core's user slots
(12_engines R335); none for firmware contexts (07_access R463). -/
def State.partOf (s : State) (c : CoreId) (k : Nat) : Option Nat :=
  if isCompute c then (s.bulkhead (bulkheadOf c)).owner
  else if isMemoryCore c && decide (8 ≤ k) then (s.channel c).bound
  else none

/-- The partition-map entry of a virtual bulkhead (07_access R202). -/
def Part.entry (p : Part) (v : Nat) : BitVec 8 := p.map.getD v 0

/-- STATE of a map entry; 3 counts as 0. -/
def entryState (e : BitVec 8) : Nat := let t := bf e 7 6; if t = 3 then 0 else t

/-- What a partition-virtual core coordinate names (R202). -/
inductive CoreTarget where
  | outside
  | held
  | at_ (c : CoreId)
deriving DecidableEq, Repr

/-- Virtual bulkhead of a virtual core. -/
def vbhOf (v : CoreId) : Nat := meshY v / 16 * 8 + meshX v / 16

/-- A message of the overflow queue is for a virtual bulkhead. -/
def Msg.isFor (m : Msg) (vbh : Nat) : Bool :=
  match m.held with
  | some v => vbhOf v == vbh
  | none => false

/-- The core of physical bulkhead b that takes the place of a virtual coordinate (R202). -/
def onBulkhead (b : Nat) (v : CoreId) : CoreId :=
  coreAt (b / 8 / 2 * 4 + b % 8 / 2) (b / 8 % 2 * 16 + meshY v % 16) (b % 8 % 2 * 16 + meshX v % 16)

/-- The translation of R202 by the map alone; a die field of 16 or above lies outside (R29). -/
def coreXlate (p : Part) (v : CoreId) : CoreTarget :=
  if dieOf v < 16 then
    let e := p.entry (vbhOf v)
    match entryState e with
    | 1 => .at_ (onBulkhead (bf e 5 0) v)
    | 2 => .held
    | _ => .outside
  else .outside

/-- Messages for a virtual bulkhead of a partition wait in its overflow queue or are on their way to it. -/
def State.queuedFor (s : State) (p vbh : Nat) : Bool :=
  (s.part p).overflow.any (fun m => m.isFor vbh) || s.net.any (fun m => m.part == some p && m.isFor vbh)

/-- What a core coordinate of a partition names for a message (R202): a mapped entry counts as held until the carafe has delivered the queue of
its virtual bulkhead, so that R23's order holds across the change. -/
def State.xlate (s : State) (p : Nat) (v : CoreId) : CoreTarget :=
  match coreXlate (s.part p) v with
  | .at_ c => if s.queuedFor p (vbhOf v) then .held else .at_ c
  | t => t

/-- The virtual bulkhead of a partition that a physical bulkhead stands for, if any: the least mapped entry that names it, else the
least held one, before all others one whose cores have not been saved yet (15_system R421, R427). -/
def Part.vbhOfPhysical (p : Part) (b : Nat) : Option Nat :=
  match (List.range 64).find? (fun v => entryState (p.entry v) == 1 && bf (p.entry v) 5 0 == b) with
  | some v => some v
  | none =>
    match (List.range 64).find? (fun v => entryState (p.entry v) == 2 && bf (p.entry v) 5 0 == b && !p.images.any (fun e => vbhOf e.1 == v)) with
    | some v => some v
    | none => (List.range 64).find? (fun v => entryState (p.entry v) == 2 && bf (p.entry v) 5 0 == b)

/-- The partition-virtual coordinate of a physical compute core (01_machine R29). -/
def virtOf (p : Part) (c : CoreId) : CoreId :=
  match p.vbhOfPhysical (bulkheadOf c) with
  | some v => coreAtXY (v % 8 * 16 + meshX c % 16) (v / 8 * 16 + meshY c % 16)
  | none => c

/-- The thread identifier a program sees (R15, R16): partition-virtual on a compute core, physical elsewhere. -/
def State.vtid (s : State) (c : CoreId) (k : Nat) : Nat :=
  (match (if isCompute c then s.partOf c k else none) with
   | some p => virtOf (s.part p) c
   | none => c) * 16 + k

/-- The privilege level of a slot's context (15_system R398). -/
def Slot.level (t : Slot) : Nat := bf t.privst 1 0

/-- A thread is privileged when its level is 1 or 2 (R398). -/
def State.privileged (s : State) (c : CoreId) (k : Nat) : Bool := (s.slot c k).level != 0

/-- A package number names this package (01_machine R26). -/
def State.isOwnPkg (s : State) (n : Nat) : Bool := n == 0xFFF || n == bf s.pkg.pkgid 11 0

/-- A package number names a peer: the group table holds an entry for it with V = 1 (R26, 16_package R450). -/
def State.isPeer (s : State) (n : Nat) : Bool := decide (n < 16) && bit (s.pkg.groups.getD n 0) 63

/-- This package's number as records that leave it carry it (12_engines R328, 09_sync R255). -/
def State.pkgNo (s : State) : Nat := bf s.pkg.pkgid 11 0

/-- Two GAs of this package name one RCB: 0xFFF and the package's own number are one package (01_machine R26). -/
def sameRcb (a b : Word) : Bool := bf a 63 60 == bf b 63 60 && bf a 47 0 == bf b 47 0

/-- An admitted RCB by its GA in this package (13_tasks R343). -/
def Part.rcbAt (p : Part) (w : Word) : Option Rcb := (p.rcbs.find? (fun e => sameRcb e.1 w)).map (fun e => e.2)

/-- The admitted RCB that a word of software names. -/
def State.rcbNamed (s : State) (p : Nat) (w : Word) : Option Rcb := if s.isOwnPkg (bf w 59 48) then (s.part p).rcbAt w else none

/-- The effective RCB of a context: its own, or the partition's root when its own is 0 or not admitted. -/
def Part.effective (p : Part) (w : Word) : Option Rcb :=
  match p.rcbAt w with
  | some r => some r
  | none => p.rcbAt p.root

/-- The effective bulkhead mask of a context; with no admitted RCB at all, every virtual bulkhead (log 21, DESIGN CHOICE). -/
def Part.budget (p : Part) (w : Word) : BitVec 64 :=
  match p.effective w with
  | some r => r.bhmask
  | none => 0xFFFFFFFFFFFFFFFF#64

/-! ### Fault records (15_system R414-R416) -/

/-- What a record says of the fault (R414, R415): CLASS, DETAIL, ADDR, INFO. -/
structure FaultInfo where
  cls : Nat
  detail : Nat
  addr : Word
  info : Word
deriving DecidableEq, Repr

/-- The thread a record concerns: partition, virtual identifier, package, pc, RCBPTR. -/
structure Who where
  part : Option Nat
  vtid : Nat
  pkg : Nat
  pc : Word
  rcb : Word
deriving DecidableEq, Repr

/-- The thread in a slot. -/
def State.who (s : State) (c : CoreId) (k : Nat) : Who :=
  ⟨s.partOf c k, s.vtid c k, 0xFFF, (s.slot c k).pc, (s.slot c k).rcbptr⟩

/-- The thread that sent a packet. -/
def Msg.who (m : Msg) : Who := ⟨m.part, m.vtid, m.pkg, m.pc, m.rcb⟩

/-- A record about no thread, to the root handler of a partition (16_package R436, R443). -/
def Who.root (part : Nat) (rcb : Word) : Who := ⟨some part, 0x7FFFF, 0xFFF, ones, rcb⟩

/-- The six payload doublewords of R414. -/
def recordPayload (f : FaultInfo) (w : Who) (park : Nat) (remote : Bool) (seq : BitVec 32) (agent : CoreId) : List Word :=
  [BitVec.ofNat 64 (f.cls % 256 + f.detail % 256 * 2 ^ 8 + park % 8 * 2 ^ 16 + remote.toNat * 2 ^ 19 + w.vtid % 2 ^ 19 * 2 ^ 32
      + w.pkg % 2 ^ 12 * 2 ^ 51),
   w.pc, f.addr, f.info, w.rcb,
   BitVec.ofNat 64 (seq.toNat + agent % 2 ^ 15 * 2 ^ 36)]

/-- The mailbox header of R223. -/
def mailHeader (len arr vtid pkg : Nat) : Word :=
  BitVec.ofNat 64 (8 + 8 * len + arr % 256 * 2 ^ 24 + vtid % 2 ^ 19 * 2 ^ 32 + pkg % 2 ^ 12 * 2 ^ 51)

/-- The model's destination number for a core of another package of the group: its packets leave through a gateway (16_package R450). -/
def peerTarget (pkg : Nat) (core : CoreId) : CoreId := 32768 * (pkg + 1) + core % 32768

/-- Another package of the group, where a packet names no core of it. -/
def peerCore (pkg : Nat) : CoreId := peerTarget pkg 0

/-- The GA of a byte of a scratchpad by the coordinate of its core. -/
def virtualGa (v : CoreId) (off : Nat) : Word := BitVec.ofNat 64 (0xFFF * 2 ^ 48 + v * 2 ^ 33 + off)

/-- How a waiting thread notes the target of its request: a core of its partition by its virtual coordinates, which the map translates whenever
a message for it leaves (07_access R202), any other by its number. -/
def coreName (v : CoreId) : CoreId := 2 ^ 40 + v

/-- The virtual coordinates that a name holds. -/
def namedCore (tgt : CoreId) : Option CoreId := if 2 ^ 40 ≤ tgt then some (tgt - 2 ^ 40) else none

/-- A die is fenced (16_package R447). -/
def State.dieFenced (s : State) (d : Nat) : Bool := bit s.pkg.fencedDies d

/-- A core that does not exist or lies on a fenced die; a memory core also where both attach dies of its stack are fenced. -/
def State.coreAbsent (s : State) (c : CoreId) : Bool :=
  !isCore c || s.dieFenced (dieOf c)
    || (isMemoryCore c && s.dieFenced (primaryDie (dieOf c - 24)) && s.dieFenced (alternateDie (dieOf c - 24)))

/-- A reply, which a halted core takes or discards. -/
def Body.isReply : Body → Bool
  | .dataReply _ _ _ | .ack _ _ _ _ | .msgStatus _ | .chainReply _ _ _ | .sample _ _ _ => true
  | _ => false

/-- The journal's mirror (16_package R448): the last 128 KiB of stack 0, or of stack 1 where stack 0 is absent. -/
def State.mirrorBase (s : State) : Nat :=
  2 ^ 48 + (if s.coreAbsent (coreAt 24 0 0) then 1 else 0) * 2 ^ 45 + 0xC00000000 - 0x20000

/-- A byte lies in the mirror, which is reserved from every partition (R448). -/
def State.inMirror (s : State) (a : Nat) : Bool := decide (s.mirrorBase ≤ a ∧ a < s.mirrorBase + 0x20000)

/-- The group port that traffic to a peer uses (16_package R450). -/
def State.peerPort (s : State) (n : Nat) : Nat :=
  if s.pkg.groupAlt.contains n then bf (s.pkg.groups.getD n 0) 7 4 else bf (s.pkg.groups.getD n 0) 3 0

/-- The gateway core whose router stands for a port: four ports to a gateway, in number order (log 43, DESIGN CHOICE). -/
def portCore (port : Nat) : CoreId := coreAt (16 + port / 4) 0 (4 * (port % 4))

/-- The port of a peer has failed and its alternate waits until every message on it has been delivered or answered absent (R450). -/
def State.portDrains (s : State) (n : Nat) : Bool :=
  s.pkg.groupDown.contains n && bit (s.pkg.groups.getD n 0) 8 && !s.pkg.groupAlt.contains n

/-- A port takes what is for a peer, now or once another has drained: its gateway die is not fenced (R447), and it has not failed. -/
def State.peerOpen (s : State) (n : Nat) : Bool :=
  !s.coreAbsent (portCore (s.peerPort n)) && (!s.pkg.groupDown.contains n || s.portDrains n)

/-- The package that a destination number names. -/
def pkgOf (c : CoreId) : Nat := c / 32768 - 1

/-- Put a packet on the fabric. One for another package leaves through the port of that peer, waits while its port drains, or, where no port takes
it, is answered absent here; an answer to a peer leaves in any case. -/
def State.launch (s : State) (m : Msg) : State :=
  if m.dst < 32768 then { s with net := s.net ++ [m] }
  else if s.portDrains (pkgOf m.dst) then { s with portHeld := s.portHeld ++ [m] }
  else if s.peerOpen (pkgOf m.dst) || m.body.isReply then { s with egress := s.egress ++ [⟨s.peerPort (pkgOf m.dst), m⟩] }
  else { s with net := s.net ++ [m] }

/-- Leave a record to FAULT_QUEUE_APPEND (R416). -/
def State.queueRecord (s : State) (part : Option Nat) (header : Word) (payload : List Word) : State :=
  { s with faultRecs := s.faultRecs ++ [⟨part, header, payload⟩] }

/-- Send a fault record (R414): to mailbox HMB of core HCORE of the effective RCB, or, where that core is held or not mapped, to the
fault queue (R416). The sending agent's sequence number advances. -/
def State.sendRecord (s : State) (agent : CoreId) (w : Who) (f : FaultInfo) (park : Nat) (remote : Bool) : State :=
  let seq := s.fseq.getD agent 0
  let payload := recordPayload f w park remote seq agent
  let s := { s with fseq := s.fseq.put agent (seq + 1) }
  match w.part with
  | none => s.queueRecord none (mailHeader 6 0 w.vtid w.pkg) payload
  | some p =>
    match (s.part p).effective w.rcb with
    | none => s.queueRecord (some p) (mailHeader 6 0 w.vtid w.pkg) payload
    | some r =>
      match s.xlate p r.hcore with
      | .at_ h => s.launch ⟨agent, h, 0, 0, some p, none, w.vtid, w.rcb, w.pc, w.pkg, none, true, none, .mail r.hmb payload true []⟩
      | _ => s.queueRecord (some p) (mailHeader 6 0 w.vtid w.pkg) payload

/-- TAKING A FAULT (02_encoding R52, 03_strands R80, 07_access R185): the instruction does not retire and the pc stays; the thread
is PARKED in a park that a wake releases, and a record is sent from its core. -/
def State.takeFault (s : State) (c : CoreId) (k : Nat) (f : FaultInfo) : State :=
  (s.sendRecord c (s.who c k) f 1 false).modSlot c k
    (fun t => { t with st := .parked, wait := .none, park := some ⟨f.cls, 1, (s.core c).cycle⟩ })

/-- Send a record about a thread that is not parked (R191). -/
def State.report (s : State) (agent : CoreId) (w : Who) (f : FaultInfo) : State := s.sendRecord agent w f 0 false

/-! ### Generations and outstanding responses (03_strands R89) -/

/-- Count of responses outstanding for a generation value. -/
def Slot.outstanding (t : Slot) (g : Nat) : Nat := t.outst.getD g 0

/-- One more response outstanding for the context in the slot. -/
def Slot.addOut (t : Slot) : Slot := { t with outst := t.outst.putSparse 0 t.gen (t.outstanding t.gen + 1) }

/-- A response of a generation has arrived, or its wait is withdrawn. -/
def Slot.subOut (t : Slot) (g : Nat) : Slot := { t with outst := t.outst.putSparse 0 g (t.outstanding g - 1) }

/-- The next generation value: count 0, and not the generation of a spilled owner. -/
def Slot.nextGen (t : Slot) : Option Nat :=
  ((List.range 15).map (fun i => (t.gen + 1 + i) % 16)).find?
    (fun g => t.outstanding g == 0 && (match t.spilled with | some o => o.gen != g | none => true))

/-- Advance the generation if a value qualifies; otherwise the slot owes the advance. -/
def Slot.advanceGen (t : Slot) : Slot :=
  match t.nextGen with
  | some g => { t with gen := g, owes := false }
  | none => { t with owes := true }

/-- Whether a response with generation g is for the context now in the slot (R89). -/
def Slot.accepts (t : Slot) (g : Nat) : Bool :=
  match t.st with
  | .run | .blocked | .parked | .spill => t.gen == g
  | _ => false

/-! ### Containment (15_system R418) -/

/-- Contain a thread: registers zero, pending marks cleared, generation advanced, the given record sent with PARK 2. -/
def State.contain (s : State) (c : CoreId) (k : Nat) (f : FaultInfo) : State :=
  (s.sendRecord c (s.who c k) f 2 false).modSlot c k
    (fun t => { t.advanceGen with
      st := .contained, p := Vector.replicate 16 0, vp := Vector.replicate 16 0, pendP := 0, pendV := 0, wait := .none,
      park := some ⟨f.cls, 2, (s.core c).cycle⟩ })

/-! ### Retiring, and the signature checker (03_strands R98-R102) -/

/-- One step of the hash of R100. -/
def foldReg (h : Nat) (r : Reg) : Nat := ((h * 8 ||| h / 8192) % 65536) ^^^ r.toNat

/-- The SIGCTL word with EXP, H, N and ST as given. -/
def sigWord (w : Word) (exp h n st : Nat) : Word := setf (setf (setf (setf w 55 32 exp) 31 16 h) 8 4 n) 3 2 st

/-- The record of a mismatch (R102): MODE, EXP and the observed N, KIND and H. -/
def sigFault (mode exp n kind h : Nat) : FaultInfo :=
  ⟨0x48, mode, 0, BitVec.ofNat 64 (exp + n % 32 * 2 ^ 24 + kind % 8 * 2 ^ 29 + h * 2 ^ 32)⟩

/-- What the checker does at WB (R101): the new SIGCTL, and the mismatch found, if any. `head` is the signature of a BSIG. The KIND observed of a block
whose head is missing is 0 (R102; log 65, DESIGN CHOICE). -/
def checker (w : Word) (r : Retire) (head : Option (BitVec 24)) : Word × Option FaultInfo :=
  let mode := bf w 1 0
  if mode = 0 ∨ r.kind = 8 then (w, none)
  else
    let exp := bf w 55 32
    let h0 := bf w 31 16
    let n0 := bf w 8 4
    match bf w 3 2, head with
    | 1, some sig => (sigWord w sig.toNat 0 0 2, none)
    | 1, none => (sigWord w exp h0 n0 3, some (sigFault mode exp n0 0 h0))
    | 2, some sig =>
      (sigWord w sig.toNat 0 0 2,
       if exp = n0 * 2 ^ 19 + h0 then none else some (sigFault mode exp n0 0 h0))
    | 2, none =>
      let h := r.fold.foldl foldReg h0
      let n := (n0 + 1) % 32
      if r.kind = 0 then (sigWord w exp h n 2, none)
      else if exp = n * 2 ^ 19 + r.kind * 2 ^ 16 + h then (sigWord w exp h n 1, none)
      else (sigWord w exp h n 3, some (sigFault mode exp n r.kind h))
    | _, some sig => (sigWord w sig.toNat 0 0 2, none)
    | _, none => (w, none)

/-- Retire an instruction of a thread with the pc given: the thread is in RUN, the checker has observed the instruction, and a
mismatch has sent its record and, in contain mode, contained the thread (R101, R102). A thread that waited may issue from the cycle after its
result was written: a step before the issue of cycle n writes in cycle n + 2 (R77, R79). -/
def State.retireTo (s : State) (c : CoreId) (k : Nat) (pc : Word) (r : Retire) (head : Option (BitVec 24)) : State :=
  let t := s.slot c k
  let sig := checker t.sigctl r head
  let s1 := s.setSlot c k { t with pc := pc, st := .run, wait := .none, park := none, sigctl := sig.1, readyAt := max t.readyAt ((s.core c).cycle + 3) }
  match sig.2 with
  | none => s1
  | some f =>
    let w : Who := { s.who c k with pc := t.pc }
    if bf t.sigctl 1 0 = 2 then
      (s1.sendRecord c w f 2 false).modSlot c k
        (fun t => { t.advanceGen with
          st := .contained, p := Vector.replicate 16 0, vp := Vector.replicate 16 0, pendP := 0, pendV := 0,
          park := some ⟨f.cls, 2, (s.core c).cycle⟩ })
    else s1.report c w f

/-- Retire with sequential advance (R82). -/
def State.retire (s : State) (c : CoreId) (k : Nat) (r : Retire) : State :=
  s.retireTo c k (addOffset (s.slot c k).pc (BitVec.ofNat 64 r.len)) r none

/-- Retire the issuing thread's instruction. -/
def State.done (s : State) (r : Retire) : State := s.retire s.curCore s.curSlot r

/-- Retire the issuing thread's instruction at another pc. -/
def State.doneTo (s : State) (pc : Word) (r : Retire) : State := s.retireTo s.curCore s.curSlot pc r none

/-! ### Blocking (R78, R79) -/

/-- A thread blocks in a wait. -/
def State.blockAt (s : State) (c : CoreId) (k : Nat) (w : Wait) : State := s.modSlot c k (fun t => { t with st := .blocked, wait := w })

/-- The issuing thread blocks in a wait. -/
def State.block (s : State) (w : Wait) : State := s.blockAt s.curCore s.curSlot w

/-- Cancelled with no effect; the instruction issues again when the cause clears. -/
def State.cancelAt (s : State) (c : CoreId) (k : Nat) (why : Why) : State := s.blockAt c k (.reissue why)

/-- The issuing thread's instruction is cancelled. -/
def State.cancel (s : State) (why : Why) : State := s.cancelAt s.curCore s.curSlot why

/-- Whether the issuing thread names a pending register. -/
def State.anyPending (s : State) (names : List Dest) : Bool := names.any (isPending s s.curCore s.curSlot)

/-- The pending-register check of stage RR (R78): run the body, or cancel. -/
def State.unlessPending (s : State) (names : List Dest) (body : State) : State :=
  match names.find? (isPending s s.curCore s.curSlot) with
  | some d => s.cancel (.pendingRegister d)
  | none => body

/-- Scalar register fields as names. -/
def scalars (rs : List Reg) : List Dest := rs.map .scalar

/-- Slots of a core whose cancelled instruction waits for this cause issue again. -/
def Core.wakeFor (x : Core) (p : Why → Bool) : Core :=
  { x with slots := x.slots.map (fun t =>
      match t.st, t.wait with
      | .blocked, .reissue w => if p w then { t with st := .run, wait := .none } else t
      | _, _ => t) }

/-- Likewise, in the state. -/
def State.wakeFor (s : State) (c : CoreId) (p : Why → Bool) : State := s.modCore c (fun x => x.wakeFor p)

/-- A thread in slot j waits for a register of slot k that a completion or HDET has written (R78). -/
def Slot.waitsFor (t : Slot) (j k : Nat) (d : Reg) : Bool :=
  t.st == .blocked && t.wait == .reissue (.pendingRegister (.scalar d)) && (decide (16 ≤ d.toNat) || j == k)

/-- The pending mark of a register of slot k is cleared: what it held back issues again, from n cycles from now on. -/
def Core.wakePending (x : Core) (k : Nat) (d : Reg) (n : Nat) : Core :=
  { x with slots := Vector.ofFn (fun (j : Fin 16) =>
      let t := x.slots[j]
      if t.waitsFor j.val k d then { t with st := .run, wait := .none, readyAt := max t.readyAt (x.cycle + n) } else t) }

/-- Likewise, in the state. -/
def State.wakePending (s : State) (c : CoreId) (k : Nat) (d : Reg) (n : Nat) : State := s.modCore c (fun x => x.wakePending k d n)

/-- A wake at a slot (R80, R94): a park that a wake releases ends. -/
def Slot.wake (t : Slot) : Slot :=
  match t.st, t.park with
  | .parked, some q => if q.kind = 1 then { t with st := .run, park := none } else t
  | _, _ => t

/-- A park of a thread by a reply or a walk meets a wake that reached its slot in the same core cycle: the park applies first and the wake
releases it (R81). -/
def State.meetWake (s : State) (c : CoreId) (k : Nat) : State :=
  s.modSlot c k (fun t => if t.wokenAt = some (s.core c).cycle then { t.wake with wokenAt := none } else t)

/-! ### Packets (08_messages R213) -/

/-- A packet of a thread. -/
def State.packet (s : State) (c : CoreId) (k : Nat) (dst : CoreId) (held : Option CoreId) (post : Option Nat) (body : Body) : Msg :=
  let t := s.slot c k
  ⟨c, dst, k, t.gen, s.partOf c k, post, s.vtid c k, t.rcbptr, t.pc, 0xFFF, held, s.privileged c k, none, body⟩

/-- A request for a core, with its address moved to the core that now holds it. -/
def Body.rehome (b : Body) (h : CoreId) : Body :=
  let tgt := fun (a : Nat) => scratchAddr h (scratchOff a)
  match b with
  | .load a n => .load (tgt a) n
  | .store a n d => .store (tgt a) n d
  | .atomic op dbl a x c => .atomic op dbl (tgt a) x c
  | .sync op a x => .sync op (tgt a) x
  | .codelet op a n r => .codelet op (tgt a) n r
  | .chain ga a k st v rc rs => .chain ga (tgt a) k st v rc rs
  | b => b

/-- The virtual core that a request of a partition names; none for a target that the map does not translate: class 3 (15_system R412), a memory
or gateway core, another package. -/
def State.virtualName (s : State) (part : Option Nat) (dst : CoreId) (held : Option CoreId) (b : Body) : Option CoreId :=
  match held, part, b with
  | some v, _, _ => some v
  | none, _, .control _ _ _ _ => none
  | none, some p, _ => if isCompute dst then some (virtOf (s.part p) dst) else none
  | none, none, _ => none

/-- Where a request for a virtual core goes as the map stands (07_access R202): the destination, the virtual core while it is held, and the
request with its address there; none where the map gives the core no place any more. -/
def State.homeNow (s : State) (part : Option Nat) (name : Option CoreId) (dst : CoreId) (b : Body) : Option (CoreId × Option CoreId × Body) :=
  match name, part with
  | some v, some p =>
    (match s.xlate p v with
     | .at_ h => some (h, none, b.rehome h)
     | .held => some (overflowCore p, some v, b.rehome v)
     | .outside => none)
  | some v, none => some (v, none, b)
  | none, _ => some (dst, none, b)

/-- A request that leaves after a wait names a core outside the map: the thread faults with class "address" (07_access R202). -/
def State.outsideFault (s : State) (c : CoreId) (k : Nat) (ga : Word) : State := (s.takeFault c k ⟨0x13, 4, ga, 0⟩).meetWake c k

/-- How a waiting thread notes the target of a request. -/
def State.waitName (s : State) (c : CoreId) (k : Nat) (dst : CoreId) (held : Option CoreId) (body : Body) : CoreId :=
  ((s.virtualName (s.partOf c k) dst held body).map coreName).getD dst

/-- A reply-bearing request leaves: one more response is outstanding and the thread is BLOCKED until its reply (R79). -/
def State.request (s : State) (c : CoreId) (k : Nat) (dst : CoreId) (held : Option CoreId) (body : Body) (use : ReplyUse)
    (r : Retire) : State :=
  ((s.launch (s.packet c k dst held none body)).modSlot c k Slot.addOut).modSlot c k
    (fun t => { t with st := .blocked, wait := .reply use r body (s.waitName c k dst held body) })

/-- A request that has to wait before it leaves, with the name of its target. -/
def State.waitingPacket (s : State) (c : CoreId) (k : Nat) (dst : CoreId) (held : Option CoreId) (body : Body) : Msg :=
  s.packet c k dst (s.virtualName (s.partOf c k) dst held body) none body

/-- The posted table has room (07_access R194). -/
def Slot.postRoom (t : Slot) : Bool := decide (t.posted.length < 32)

/-- A posted operation leaves: it takes an entry with its physical home, none where the bulkhead was held (R194, R198). -/
def State.post (s : State) (c : CoreId) (k : Nat) (dst : CoreId) (held : Option CoreId) (body : Body) : State :=
  let id := (s.slot c k).nextPost
  let home := match held with | some _ => none | none => some dst
  (s.launch (s.packet c k dst held (some id) body)).modSlot c k
    (fun t => { t.addOut with posted := t.posted ++ [⟨id, home⟩], nextPost := t.nextPost + 1 })

/-- The answer to a request, from the core that serves it: a data reply, or an acknowledgement of a posted entry. -/
def State.answer (s : State) (m : Msg) (st : Status) (value : Vec) (flags : BitVec 6) (addr info : Word) : State :=
  s.launch { m with src := m.dst, dst := m.src, held := none,
                    body := match m.post with
                            | some e => .ack st e addr info
                            | none => .dataReply st value flags }

/-- An answer with no address or information. -/
def State.answerWith (s : State) (m : Msg) (st : Status) (value : Vec) : State := s.answer m st value 0 0 0

/-- The status of a SEND or ACTM (08_messages R218). -/
def State.answerStatus (s : State) (m : Msg) (st : Nat) : State :=
  s.launch { m with src := m.dst, dst := m.src, held := none, post := none, body := .msgStatus st }

/-! ### Scopes (07_access R197, R198; 08_messages R231) -/

/-- Whether a scope (0 core, 1 cluster, 2 bulkhead, 3 die, 4 package, 5 group) of core c encloses core h. On a gateway or
memory core, scopes 0-3 enclose that core alone. -/
def scopeHas (scope : Nat) (c h : CoreId) : Bool :=
  match scope with
  | 0 => c == h
  | 1 => c == h || (isCompute c && isCompute h && clusterOf c == clusterOf h)
  | 2 => c == h || (isCompute c && isCompute h && bulkheadOf c == bulkheadOf h)
  | 3 => c == h || (isCompute c && isCompute h && dieOf c == dieOf h)
  | 4 => decide (h < 32768)
  | _ => true

/-- Whether a posted entry lies in the scope; an entry with no recorded home only in PACKAGE and GROUP (R198). -/
def Posted.inScope (e : Posted) (scope : Nat) (c : CoreId) : Bool :=
  match e.home with
  | some h => scopeHas scope c h
  | none => decide (4 ≤ scope)

/-- The narrowest scope that encloses two cores (R231). -/
def narrowScope (c h : CoreId) : Nat :=
  if scopeHas 0 c h then 0 else if scopeHas 1 c h then 1 else if scopeHas 2 c h then 2 else if scopeHas 3 c h then 3
  else if scopeHas 4 c h then 4 else 5

/-- No posted entry that a release waits for is left: scope none means every entry (10_ordering R275). -/
def Slot.released (t : Slot) (scope : Option Nat) (c : CoreId) : Bool :=
  match scope with
  | none => t.posted.isEmpty
  | some sc => t.posted.all (fun e => !e.inScope sc c)

/-! ### Writes and their waiters (09_sync R264-R266) -/

/-- "v has reached t": (int64)(v - t) ≥ 0 (R264). -/
def hasReached (v t : Word) : Bool := decide (0 ≤ (v - t).toInt)

/-- The answer to a waiter: a reply with the value, to its thread and generation. -/
def State.answerWaiterAs (s : State) (home : CoreId) (w : Waiter) (st : Status) (v : Word) : State :=
  s.launch ⟨home, w.core, w.slot, w.gen, none, none, 0, 0, 0, 0xFFF, none, true, none, .dataReply st (v.setWidth 256) 0⟩
def State.answerWaiter (s : State) (home : CoreId) (w : Waiter) (v : Word) : State := s.answerWaiterAs home w .done v

/-- Whether the value just written satisfies an entry on the doubleword. -/
def Waiter.satisfied (w : Waiter) (addr : Nat) (v : Word) : Bool :=
  match w.watch with
  | .word a t => a == addr && hasReached v t
  | .entry _ _ => false

/-- Evaluate every entry on one doubleword against the value it now holds (R266). -/
def State.evalWaiters (s : State) (addr : Nat) : State :=
  let home := homeOf addr
  match (s.core home).waiters with
  | [] => s
  | w :: rest =>
    let v := s.readWord addr
    let q := s.modCore home (fun x => { x with waiters := x.waiters.filter (fun w => !w.satisfied addr v) })
    ((w :: rest).filter (fun w => w.satisfied addr v)).foldl (fun q w => q.answerWaiter home w v) q

/-- The doubleword that an entry watches, if n bytes from a touch it. -/
def Waiter.watches (a n : Nat) (w : Waiter) : Option Nat :=
  match w.watch with
  | .word b _ => if a < b + 8 ∧ b < a + n then some b else none
  | .entry _ _ => none

/-- Evaluate every entry of a home on a doubleword that n bytes from a touch: what a retiring copy or MXST result leaves (R266, 10_ordering R280).
One that it leaves poisoned releases nobody (log 50, DESIGN CHOICE). -/
def State.evalRange (s : State) (a n : Nat) : State :=
  ((s.core (homeOf a)).waiters.filterMap (Waiter.watches a n)).foldl (fun q b => if q.isPoisoned b 8 then q else q.evalWaiters b) s

/-- Perform a write at its home: the bytes, then every waiter on a doubleword it touches. -/
def State.performWrite (s : State) (a : Nat) (bs : List Byte) : State :=
  (wordsOf a bs.length).foldl (fun q w => q.evalWaiters (w * 8)) (s.putMem a bs)

/-- Write a number of n bytes. -/
def State.writeNat (s : State) (a n v : Nat) : State := s.performWrite a (bytesOf v n)

/-- Write a doubleword. -/
def State.writeWord (s : State) (a : Nat) (v : Word) : State := s.writeNat a 8 v.toNat

/-- An instruction of slot k that issues in this cycle does something to what its core's slots share at its WB: those see it whose work there comes
after, by `wait` cycles of issue (03_strands R71). -/
def Core.addLanding (x : Core) (k wait : Nat) (e : WriteBack) : Core := { x with landing := x.landing ++ [⟨x.cycle, k, x.cycle + wait, e⟩] }

/-- A local store of an instruction that issues in cycle i: it is written in i + 7, and one that issues in j reads in j + 6 (07_access R186,
10_ordering R270). -/
def State.storeLocal (s : State) (c : CoreId) (k a : Nat) (bs : List Byte) : State := s.modCore c (fun x => x.addLanding k 2 (.store a bs))

/-- What a control register of the core held, for each MFC that issues in the next n cycles (03_strands R71). -/
def Core.keepCtl (x : Core) (n num : Nat) (v : Word) : Core :=
  { x with ctlOld := x.ctlOld.filter (fun e => decide (x.cycle ≤ e.till)) ++ [⟨x.cycle + n, num, v⟩] }

/-- Write doublewords. -/
def State.writeWords (s : State) (a : Nat) : List Word → State
  | [] => s
  | w :: rest => (s.writeWord a w).writeWords (a + 8) rest

/-! ### Holds at a scratchpad port (07_access R186, R189; 12_engines R325) -/

/-- An active range-scoreboard entry of a core overlaps the offsets [lo, hi). -/
def Core.sbOverlap (x : Core) (lo hi : Nat) : Bool := x.sb.any (fun e => decide (e.lo < hi ∧ lo < e.hi))

/-- A scratchpad bank of the core is without power (R90). -/
def Core.bankDown (x : Core) (off n : Nat) : Bool :=
  (List.range ((off + n - 1) / 0x8000 + 1 - off / 0x8000)).any (fun i => !(x.banks.getD (off / 0x8000 + i) Bank.reset).powered)

/-- Whether a home holds an access to n bytes at a physical address (R189). Only scratchpads have entries and banks. -/
def State.isHeld (s : State) (a n : Nat) : Bool :=
  decide (addrClass a = 0) && ((s.core (homeOf a)).sbOverlap (scratchOff a) (scratchOff a + n)
    || (s.core (homeOf a)).bankDown (scratchOff a) n)

/-- A body is what is left of an access at its home after its first piece: the next byte, and the bytes left. -/
def Body.rest (b : Body) : Option (Nat × Nat) :=
  match b with
  | .pieces a left _ => some (a, left)
  | .storing a left _ _ => some (a, left)
  | _ => none

/-- Bytes of a core's scratchpad, as offsets, that a thread of it has begun to read or copy piece by piece: a SEND's payload, and the record and the
buffer of an MBPOP. -/
def Wait.moving (w : Wait) : List (Nat × Nat) :=
  match w with
  | .sending _ _ _ _ _ a left got _ _ => if got.isEmpty then [] else [(scratchOff a - 8 * got.length, scratchOff a + 8 * left)]
  | .blend _ _ _ a left got _ => [(scratchOff a - 8 * got.length, scratchOff a + 8 * left)]
  | .popping _ _ src dst left _ h _ =>
    let n := bf h 62 58 - left
    [(scratchOff src - 8 * n, scratchOff src + 8 * left), (scratchOff dst - 8 * n, scratchOff dst + 8 * left)]
  | _ => []

/-- An access to bytes of [lo, hi) of a core's scratchpad has begun and is not over: no entry over them becomes active before its end (10_ordering
R280). -/
def State.midAccess (s : State) (h : CoreId) (lo hi : Nat) : Bool :=
  let near := fun (z : Nat × Nat) => decide (z.1 < hi ∧ lo < z.2)
  s.net.any (fun m => match m.body.rest with
      | some (a, left) => decide (addrClass a = 0 ∧ homeOf a = h) && near (scratchOff a - 32, scratchOff a + left)
      | none => false)
    || (s.core h).slots.toList.any (fun t => t.wait.moving.any near)
    || (s.core h).landing.any (fun e => match e.effect with
        | .store a bs => decide (addrClass a = 0 ∧ homeOf a = h) && near (scratchOff a, scratchOff a + bs.length)
        | _ => false)

/-- An access reaches a bank without power: its power-up begins (R90). -/
def Core.startBanks (x : Core) (off n : Nat) : Core :=
  let put := fun (m : Assoc Bank) (i : Nat) =>
    let j := off / 0x8000 + i
    let b := m.getD j Bank.reset
    if b.powered || b.upAt.isSome then m else m.put j { b with upAt := some (x.cycle + 256) }
  { x with banks := (List.range ((off + n - 1) / 0x8000 + 1 - off / 0x8000)).foldl put x.banks }

/-- Begin the power-up of a bank that a piece needs. -/
def State.powerFor (s : State) (a n : Nat) : State :=
  if addrClass a = 0 ∧ (s.core (homeOf a)).bankDown (scratchOff a) n then s.modCore (homeOf a) (fun x => x.startBanks (scratchOff a) n) else s

/-- A local access of a thread that must wait: begin the power-up where that is the cause, and issue again (R71, R186). -/
def State.holdAt (s : State) (c : CoreId) (k : Nat) (a n : Nat) : State :=
  let x := s.core (homeOf a)
  if x.bankDown (scratchOff a) n then (s.modCore (homeOf a) (fun x => x.startBanks (scratchOff a) n)).cancelAt c k .bankPower
  else s.cancelAt c k .scoreboard

/-- A local access of the issuing thread that must wait. -/
def State.holdLocal (s : State) (a n : Nat) : State := s.holdAt s.curCore s.curSlot a n

end Sys2Proof.Machine
end

