-- ==== Sys2Proof/Machine/Operands.lean ====
section
/-! DEFINITION. Operand forms: register fields and immediates (02_encoding R40-R44), segmented addresses and their checks (07_access
R181-R187, R463), what a global address names (01_machine R26-R31), and translation of memory classes (R203-R212). -/

namespace Sys2Proof.Machine

/-! ### Fields -/

/-- The register a 4-bit field of the compact form names (R41). -/
def kreg (r : KReg) : Reg := if r.toNat < 8 then r.setWidth 5 else r.setWidth 5 + 8

/-- Read a scalar operand of the issuing thread. -/
def State.reg (s : State) (r : Reg) : Word := readReg s s.curCore s.curSlot r

/-- Write a scalar result of the issuing thread. -/
def State.putReg (s : State) (r : Reg) (v : Word) : State := backReg s s.curCore s.curSlot r v

/-- Read a vector operand of the issuing thread. -/
def State.vec (s : State) (r : Reg) : Vec := readVec s s.curCore s.curSlot r

/-- Write a vector result of the issuing thread. -/
def State.putVec (s : State) (r : Reg) (v : Vec) : State := backVec s s.curCore s.curSlot r v

/-- imm14 of form I (R43). -/
def imm14 (i : BitVec 14) : Word := i.signExtend 64

/-- imm14 of VLD and VST: a multiple of 32 (R43). -/
def imm14v (i : BitVec 14) : Word := i.signExtend 64 * 32

/-- imm19 (R43). -/
def imm19 (i : BitVec 19) : Word := i.signExtend 64

/-! ### What a global address names -/

/-- The target of a GA as a thread of a core uses it. -/
inductive GaTarget where
  /-- fails R26, R27 or R29; DETAIL of class "address" (R415) -/
  | bad (detail : Nat)
  /-- the scratchpad of the issuing core -/
  | self (off : Nat)
  /-- the scratchpad of another core, by its physical coordinate -/
  | scratch (c : CoreId) (off : Nat)
  /-- a core whose virtual bulkhead is held (R202), by its virtual coordinate -/
  | held (v : CoreId) (off : Nat)
  /-- class 1 or 2 of this package -/
  | mem (cls : Nat) (va : BitVec 48)
  /-- class 3, physical (15_system R412) -/
  | control (c : CoreId) (off : Nat)
  /-- an address in another package of the group -/
  | foreign (pkg : Nat)
deriving DecidableEq, Repr

/-- Class, package and coordinate field of a GA (R26, R27). -/
def gaClass (ga : Word) : Nat := bf ga 63 60
def gaPkg (ga : Word) : Nat := bf ga 59 48
def gaCore (ga : Word) : CoreId := bf ga 47 33

/-- A coordinate names a core (01_machine R14): the memory cores of a stack whose base die is fenced name none (16_package R447). -/
def State.namesCore (s : State) (v : CoreId) : Bool := isCore v && !(isMemoryCore v && s.dieFenced (dieOf v))

/-- A class-0 GA names the core's own scratchpad: by the self coordinate, or by the core's own coordinates (07_access R185, R187). -/
def State.ownCoord (s : State) (c : CoreId) (part : Option Nat) (v : CoreId) : Bool :=
  v == selfCoord || (match part with
    | none => v == c
    | some p => coreXlate (s.part p) v == .at_ c)

/-- Class 0: the self coordinate, a physical coordinate where the context is bound to no partition (R463), or a virtual one. -/
def State.scratchTarget (s : State) (c : CoreId) (part : Option Nat) (ga : Word) (size : Nat) : GaTarget :=
  let v := gaCore ga
  let off := bf ga 32 0
  if s.ownCoord c part v then (if off + size ≤ scratchSize c then .self off else .bad 3)
  else match part with
    | none =>
      if s.namesCore v then (if off + size ≤ scratchSize v then .scratch v off else .bad 3) else .bad 2
    | some p =>
      if 16 ≤ dieOf v then .bad 2
      else if 0x80000 < off + size then .bad 3
      else match s.xlate p v with
        | .outside => .bad 4
        | .held => .held v off
        | .at_ h => .scratch h off

/-- A GA of a peer package (01_machine R26, R27, R29; 16_package R450): what this package can check of it. The rectangle, the pages and the
class-3 rights of the other package are checked there (log 83, DEDUCED). -/
def foreignTarget (part : Option Nat) (ga : Word) (size : Nat) : GaTarget :=
  let v := gaCore ga
  let off := bf ga 32 0
  let peer : GaTarget := .foreign (gaPkg ga)
  match gaClass ga with
  | 0 =>
    if part.isSome then (if 16 ≤ dieOf v then .bad 2 else if 0x80000 < off + size then .bad 3 else peer)
    else if isCore v then (if off + size ≤ scratchSize v then peer else .bad 3) else .bad 2
  | 3 => if isCore v then peer else .bad 2
  | cls => if part.isSome || capacityOk cls (ga.toNat % 2 ^ 48) then peer else .bad 3

/-- What a GA names for an access of size bytes. -/
def State.gaTarget (s : State) (c : CoreId) (part : Option Nat) (ga : Word) (size : Nat) : GaTarget :=
  let cls := gaClass ga
  if 4 ≤ cls then .bad 0
  else if s.isOwnPkg (gaPkg ga) then
    match cls with
    | 0 => s.scratchTarget c part ga size
    | 3 => if s.namesCore (gaCore ga) then .control (gaCore ga) (bf ga 32 0) else .bad 2
    | _ => if part.isSome || capacityOk cls (ga.toNat % 2 ^ 48) then .mem cls (BitVec.ofNat 48 ga.toNat) else .bad 3
  else if s.isPeer (gaPkg ga) then foreignTarget part ga size
  else .bad 1

/-- The offsets of class-3 control space (15_system R412). -/
def controlListed (off : Nat) : Bool :=
  decide (off % 8 = 0) && (decide (off < 0x2000)
    || (decide (0x10000 ≤ off) && decide (off < 0x18000) && decide (off % 0x800 ≤ 0x400))
    || (decide (0x20000 ≤ off) && decide (off < 0x20020)))

/-- n bytes at an offset touch the spill area (03_strands R96). -/
def inSpillArea (off n : Nat) : Bool := decide (off < 0x80000 ∧ 0x7C000 < off + n)

/-! ### The checks of R185 -/

/-- The rights of a segment, by their bits in SEGLIM (R182). -/
def rightR : Nat := 63
def rightW : Nat := 62
def rightX : Nat := 61
def rightA : Nat := 60
def rightE : Nat := 59
def rightS : Nat := 58

/-- How an instruction accesses memory: alignment, bytes, rights needed, whether a store to another home needs S, whether classes 1
and 2 are allowed (order 5), whether class 3 is reached by a privileged thread (order 6), and the bytes that the capacity of R27 is
tested on. -/
structure Form where
  align : Nat
  size : Nat
  rights : List Nat
  store : Bool
  memOk : Bool
  ctlOk : Bool
  cap : Nat
deriving DecidableEq, Repr

/-- The GA of a segmented address (R184). -/
def Slot.segGa (t : Slot) (a : Word) : Word :=
  t.segBase[(⟨bf a 63 61 % 8, Nat.mod_lt _ (by decide)⟩ : Fin 8)] + BitVec.ofNat 64 (bf a 60 0)

/-- The limit word of the segment of an address. -/
def Slot.segWord (t : Slot) (a : Word) : Word := t.segLim[(⟨bf a 63 61 % 8, Nat.mod_lt _ (by decide)⟩ : Fin 8)]

/-- The first two checks of R185: alignment and limit. -/
def Slot.rangeFault (t : Slot) (a : Word) (f : Form) : Option FaultInfo :=
  if a.toNat % f.align ≠ 0 then some ⟨0x10, f.align, a, 0⟩
  else if bf (t.segWord a) 57 0 < bf a 60 0 + f.size then some ⟨0x11, bf a 63 61, a, BitVec.ofNat 64 (bf (t.segWord a) 57 0)⟩
  else none

/-- Where an access that leaves the issuing core goes: the destination, the virtual core of a held bulkhead, and the address that the
request names: physical, virtual while held (R202), or the GA itself for another package. -/
def GaTarget.route (tgt : GaTarget) (part : Option Nat) (ga : Word) : Option (CoreId × Option CoreId × Nat) :=
  match tgt with
  | .scratch c off => some (c, none, scratchAddr c off)
  | .held v off => some (overflowCore (part.getD 0), some v, scratchAddr v off)
  | .foreign p => some (peerTarget p (if gaClass ga = 0 ∨ gaClass ga = 3 then gaCore ga else 0), none, ga.toNat)
  | _ => none

/-- The request of a load and of a store of size bytes at addr: a class-3 access to another package stays one (15_system R412). -/
def GaTarget.loadBody (tgt : GaTarget) (ga : Word) (addr size level : Nat) : Body :=
  match tgt with
  | .foreign _ => if gaClass ga = 3 then .control false (bf ga 32 0) 0 level else .load addr size
  | _ => .load addr size
def GaTarget.storeBody (tgt : GaTarget) (ga : Word) (addr size level : Nat) (data : Vec) : Body :=
  match tgt with
  | .foreign _ => if gaClass ga = 3 then .control true (bf ga 32 0) (data.setWidth 64) level else .store addr size data
  | _ => .store addr size data

/-- The first failing check of R185 in its order, or what the address names. Orders 1-3 report the segmented address, later ones
the GA (log 13, DESIGN CHOICE). -/
def State.checkAccess (s : State) (c : CoreId) (k : Nat) (a : Word) (f : Form) : Except FaultInfo GaTarget :=
  let t := s.slot c k
  let n := bf a 63 61
  match t.rangeFault a f with
  | some x => .error x
  | none =>
    let ga := t.segGa a
    let tgt := s.gaTarget c (s.partOf c k) ga f.cap
    let selfName := decide (gaClass ga = 0) && s.isOwnPkg (gaPkg ga) && s.ownCoord c (s.partOf c k) (gaCore ga)
    let control := fun (off : Nat) =>
      if !f.ctlOk then Except.error (FaultInfo.mk 0x13 0 ga 0)
      else if f.size != 8 || !controlListed off then .error ⟨0x13, 3, ga, 0⟩
      else if t.level = 0 then .error ⟨0x03, 0, ga, ga⟩
      else .ok tgt
    if !(f.rights.all (fun r => bit (t.segWord a) r)) || (f.store && !selfName && !bit (t.segWord a) rightS) then
      .error ⟨0x12, n, a, 0⟩
    else match tgt with
      | .bad d => .error ⟨0x13, d, ga, 0⟩
      | .mem _ _ => if f.memOk then .ok tgt else .error ⟨0x14, 0, ga, 0⟩
      | .control _ off => control off
      | .foreign _ =>
        if gaClass ga = 3 then control (bf ga 32 0)
        else if gaClass ga = 0 || f.memOk then .ok tgt else .error ⟨0x14, 0, ga, 0⟩
      | .self off =>
        if isCompute c && (s.core c).lend && t.level == 0 && inSpillArea off f.size then .error ⟨0x12, 8, ga, 0⟩ else .ok tgt
      | _ => .ok tgt

/-- The check of a structure of n bytes in the issuing core's own scratchpad (R185), read or written with one right; another place
gives the class shown. The answer is its physical address. -/
def State.checkOwn (s : State) (c : CoreId) (k : Nat) (a : Word) (align n : Nat) (rights : List Nat) (elsewhere : Nat) :
    Except FaultInfo Nat :=
  match s.checkAccess c k a ⟨align, n, rights, rights.contains rightW, false, true, n⟩ with
  | .error f => .error f
  | .ok (.self off) => .ok (scratchAddr c off)
  | .ok _ => .error ⟨elsewhere, 0, (s.slot c k).segGa a, 0⟩

/-! ### Memory classes: the TLB and the walk (R203-R212) -/

/-- The result of translating a memory-class address. -/
inductive Trans where
  | ok (pa : Nat)
  | miss
  | fault (cause level : Nat)
deriving DecidableEq, Repr

/-- A leaf covers an address. -/
def TlbEntry.covers (e : TlbEntry) (cls : Nat) (va : BitVec 48) : Bool :=
  e.cls == cls && (if e.big then e.vbase / 32 == va.toNat / 2 ^ 21 else e.vbase == va.toNat / 2 ^ 16)

/-- The leaf of the TLB that covers an address. -/
def Cluster.leaf (cl : Cluster) (cls : Nat) (va : BitVec 48) : Option TlbEntry := cl.tlb.find? (fun e => e.covers cls va)

/-- A spare leaf that serves a thread (R207). -/
def SpareLeaf.serves (x : SpareLeaf) (c k gen cls : Nat) (va : BitVec 48) : Bool :=
  x.core == c && x.slot == k && x.gen == gen && x.leaf.covers cls va

/-- The leaf that translates an address for a thread: one of the TLB, or one that no set could take (R207). -/
def Cluster.leafFor (cl : Cluster) (c k gen cls : Nat) (va : BitVec 48) : Option TlbEntry :=
  match cl.leaf cls va with
  | some e => some e
  | none => (cl.spares.find? (fun x => x.serves c k gen cls va)).map (fun x => x.leaf)

/-- The physical byte of an address under its leaf. -/
def TlbEntry.apply (e : TlbEntry) (va : BitVec 48) : Nat :=
  e.cls * 2 ^ 48 + e.pbase + (if e.big then va.toNat % 2 ^ 21 else va.toNat % 2 ^ 16)

/-- Access kinds of R415: 0 read, 1 write, 2 atomic, 3 engine source, 4 engine destination. -/
def kindWrites (access : Nat) : Bool := access == 1 || access == 4

/-- The last tests of R206: W for a write, A for an atomic. -/
def TlbEntry.permit (e : TlbEntry) (va : BitVec 48) (access : Nat) : Trans :=
  let lv := if e.big then 3 else 4
  if kindWrites access && !e.w then .fault 2 lv
  else if access == 2 && !e.a then .fault 3 lv
  else .ok (e.apply va)

/-- The tests of R206 on a page that has been found: the area reserved from partitions is beyond what an entry may name (16_package R448; log 92,
DEDUCED). -/
def State.permit (s : State) (e : TlbEntry) (va : BitVec 48) (access : Nat) : Trans :=
  if s.inMirror (e.apply va) then .fault 4 (if e.big then 3 else 4) else e.permit va access

/-- PTROOT.1 or PTROOT.2 (R203). -/
def Part.ptroot (p : Part) (cls : Nat) : Word := if cls = 1 then p.ptroot1 else p.ptroot2

/-- Translate through the TLB of the core's cluster or attach port (log 10, DESIGN CHOICE). A context bound to no partition uses physical
addresses (R463; log 14, DEDUCED). With V = 0 in the table root every access of the class faults (R203). -/
def State.translate (s : State) (c : CoreId) (k : Nat) (cls : Nat) (va : BitVec 48) (access : Nat) : Trans :=
  match s.partOf c k with
  | none => if capacityOk cls va.toNat then .ok (cls * 2 ^ 48 + va.toNat) else .fault 4 0
  | some p =>
    if bit ((s.part p).ptroot cls) 0 = false then .fault 6 0
    else match (s.cluster (clusterOf c)).leafFor c k (s.slot c k).gen cls va with
      | some e => s.permit e va access
      | none => .miss

/-- One level of R204: the index bits and the table base mask. -/
def walkIndex (lv : Nat) (va : BitVec 48) : Nat :=
  match lv with
  | 1 => bf va 47 39
  | 2 => bf va 38 30
  | 3 => bf va 29 21
  | _ => bf va 20 16

/-- Base of the next table in a pointer entry of a level (R205). -/
def nextTable (lv : Nat) (e : Word) : Nat := if lv = 3 then bf e 47 8 * 2 ^ 8 else bf e 47 12 * 2 ^ 12

/-- What one table read of R206 gives: the leaf, the next table, or a fault by its cause and level. -/
inductive WalkStep where
  | leaf (e : TlbEntry)
  | table (t : Nat)
  | fault (cause level : Nat)
deriving DecidableEq, Repr

/-- One table read of R206, of the table of a level at an address in HBM4E. A table that does not lie in HBM4E is a malformed entry of the level
that names it, and one whose stack is absent is read as it stands (log 68, DESIGN CHOICE). -/
def walkRead (s : State) (cls : Nat) (va : BitVec 48) (lv t : Nat) : WalkStep :=
  let a := 2 ^ 48 + t + walkIndex lv va * 8
  if !capacityOk 1 (t + walkIndex lv va * 8) || s.inMirror a then .fault 4 (lv - 1)
  else if s.isPoisoned a 8 then .fault 5 lv
  else
    let e := s.readWord a
    if !bit e 0 then .fault 1 lv
    else if (decide (lv ≤ 2) && bit e 2) || (decide (lv = 4) && !bit e 2) then .fault 4 lv
    else if decide (lv = 4) || bit e 2 then
      let big := decide (lv = 3)
      let pbase := if big then bf e 47 21 * 2 ^ 21 else bf e 47 16 * 2 ^ 16
      let leaf : TlbEntry := ⟨cls, if big then va.toNat / 2 ^ 21 * 32 else va.toNat / 2 ^ 16, big, pbase, bit e 3, bit e 4, 0⟩
      if capacityOk cls (leaf.apply va - cls * 2 ^ 48) then .leaf leaf else .fault 4 lv
    else .table (nextTable lv e)

/-- The table reads of R206 from a level on, at most four of them. -/
def walkFrom (s : State) (cls : Nat) (va : BitVec 48) : (fuel : Nat) → (lv t : Nat) → Except (Nat × Nat) TlbEntry
  | 0, lv, _ => .error (4, lv)
  | fuel + 1, lv, t =>
    match walkRead s cls va lv t with
    | .leaf e => .ok e
    | .fault cause level => .error (cause, level)
    | .table t => walkFrom s cls va fuel (lv + 1) t

/-- The walk of R206 in a partition's tables. -/
def State.walk (s : State) (part : Nat) (cls : Nat) (va : BitVec 48) : Except (Nat × Nat) TlbEntry :=
  let root := (s.part part).ptroot cls
  if bit root 0 then walkFrom s cls va 4 1 (bf root 47 12 * 2 ^ 12) else .error (6, 0)

/-- Translate with the tables as they stand, for units that hold no TLB entry of this thread: owners of chain steps, the dispatcher,
replays (08_messages R237; 12_engines R333). -/
def State.translateNow (s : State) (part : Option Nat) (cls : Nat) (va : BitVec 48) (access : Nat) : Trans :=
  match part with
  | none => if capacityOk cls va.toNat then .ok (cls * 2 ^ 48 + va.toNat) else .fault 4 0
  | some p =>
    match s.walk p cls va with
    | .ok e => s.permit e va access
    | .error (cause, lv) => .fault cause lv

/-- A wake reaches a slot (03_strands R81, R94, R97): it releases the borrower's park and marks a spilled owner woken; in a reserved slot
with no borrower the owner's FILL begins. One that meets no park is noted with its cycle. -/
def Slot.receiveWake (t : Slot) (cycle : Nat) : Slot :=
  let t1 := if t.st = .parked then t.wake else { t with wokenAt := some cycle }
  match t1.spilled with
  | none => t1
  | some o =>
    let t2 := { t1 with spilled := some { o with woken := true } }
    if t1.st = .reserved then { t2 with st := .fill, wait := .yield_ (max cycle t1.readyAt + 44) } else t2

/-- Deliver a wake. -/
def State.wakeSlot (s : State) (c : CoreId) (k : Nat) : State := s.modSlot c k (fun t => t.receiveWake (s.core c).cycle)

/-- A fault-pending entry holds the page of an address, whose size is known to be 2 MiB or not (R212). -/
def FaultPage.holds (e : FaultPage) (cls : Nat) (va : BitVec 48) (big : Bool) : Bool :=
  e.cls == cls && (if e.big || big then e.page / 32 == va.toNat / 2 ^ 21 else e.page == va.toNat / 2 ^ 16)

/-- A page whose translation succeeds is the most recently used of its set, and a translation that served one request goes (R207). -/
def State.touchPage (s : State) (c : CoreId) (k cls : Nat) (va : BitVec 48) : State :=
  let cl := s.cluster (clusterOf c)
  let mine := fun (x : SpareLeaf) => x.serves c k (s.slot c k).gen cls va
  if cl.tlb.any (fun e => e.covers cls va) || cl.spares.any mine then
    s.modCluster (clusterOf c) (fun u =>
      { u with tlb := u.tlb.map (fun e => if e.covers cls va then { e with used := s.tick } else e), spares := u.spares.filter (fun x => !mine x) })
  else s

/-- A translation of a page succeeded: every thread listed on it is woken and its entry freed (R212). -/
def State.pageOk (s : State) (c : CoreId) (cls : Nat) (va : BitVec 48) : State :=
  let cl := s.cluster (clusterOf c)
  let big := match cl.leaf cls va with | some e => e.big | none => false
  if cl.faults.any (fun e => e.holds cls va big) then
    ((cl.faults.filter (fun e => e.holds cls va big)).flatMap (fun e => e.threads)).foldl (fun q t => q.wakeSlot t.1 t.2)
      (s.modCluster (clusterOf c) (fun u => { u with faults := u.faults.filter (fun e => !e.holds cls va big) }))
  else s

/-- The record of a page fault (R211). -/
def pageFaultInfo (ga : Word) (access cause level : Nat) : FaultInfo :=
  ⟨0x18, cause + level * 16, ga, BitVec.ofNat 64 access⟩

/-- The translations that served a thread's command alone go with the command (R208). -/
def State.dropSpares (s : State) (c : CoreId) (k : Nat) : State :=
  if (s.cluster (clusterOf c)).spares.any (fun x => x.core == c && x.slot == k) then
    s.modCluster (clusterOf c) (fun u => { u with spares := u.spares.filter (fun x => !(x.core == c && x.slot == k)) })
  else s

/-- A translation fault of a thread (R211, R212): it parks; the record is sent unless an entry already holds the page. The page is known to be
of 2 MiB where a leaf of level 3 fails. -/
def State.pageFault (s : State) (c : CoreId) (k : Nat) (cls : Nat) (va : BitVec 48) (ga : Word) (access cause level : Nat) : State :=
  let s := s.dropSpares c k
  let big := decide (level = 3 ∧ (cause = 2 ∨ cause = 3 ∨ cause = 4))
  let here := fun (e : FaultPage) => e.holds cls va big
  let cl := s.cluster (clusterOf c)
  if cl.faults.any here then
    (s.modCluster (clusterOf c) (fun cl => { cl with faults := cl.faults.map (fun e =>
        if here e then { e with threads := if e.threads.contains (c, k) then e.threads else e.threads ++ [(c, k)] } else e) })).modSlot
      c k (fun t => { t with st := .parked, wait := .none, park := some ⟨0x18, 1, (s.core c).cycle⟩ })
  else
    let s1 := if cl.faults.length < 8 then
        s.modCluster (clusterOf c) (fun cl => { cl with faults := cl.faults ++ [⟨cls, va.toNat / 2 ^ 16, big, []⟩] })
      else s
    s1.takeFault c k (pageFaultInfo ga access cause level)

/-- Requests that wait for the walks of a CTU: at most 256 (R207). -/
def Cluster.walkReqs (cl : Cluster) : List WalkReq := cl.walks.flatMap (fun w => w.reqs)

/-- A miss on a page, of 2 MiB where `big`: it joins the walk of the page, or a walk is added behind the others; with 256 requests in the buffer it
waits for room (R207). -/
def Cluster.addWalk (cl : Cluster) (cls : Nat) (va : BitVec 48) (big : Bool) (r : WalkReq) : Cluster :=
  let same := fun (w : Walk) => w.cls == cls && (w.va.toNat / 2 ^ 16 == va.toNat / 2 ^ 16 || (big && w.va.toNat / 2 ^ 21 == va.toNat / 2 ^ 21))
  if 256 ≤ cl.walkReqs.length then cl
  else if cl.walks.any same then { cl with walks := cl.walks.map (fun w => if same w then { w with reqs := w.reqs ++ [r] } else w) }
  else { cl with walks := cl.walks ++ [⟨cls, va, 0, 0, [], true, [r]⟩] }

/-- The tables as they stand map an address with a page of 2 MiB. -/
def State.bigPage (s : State) (c : CoreId) (k cls : Nat) (va : BitVec 48) : Bool :=
  match s.partOf c k with
  | some p => (match s.walk p cls va with | .ok e => e.big | .error _ => false)
  | none => false

/-- A TLB miss of the issuing thread: the walk is recorded, and the instruction issues again when it ends (R207). -/
def State.startWalk (s : State) (cls : Nat) (va : BitVec 48) (access : Nat) (ga : Word) : State :=
  (s.modCluster (clusterOf s.curCore) (fun cl => cl.addWalk cls va (s.bigPage s.curCore s.curSlot cls va) ⟨s.curCore, s.curSlot, s.cur.gen, access, ga⟩)).cancel .walk

/-- Translate an address of the issuing thread and go on with its physical byte; a miss walks, a fault parks. -/
def State.withTranslation (s : State) (ga : Word) (cls : Nat) (va : BitVec 48) (access : Nat) (body : State → Nat → State) : State :=
  match s.translate s.curCore s.curSlot cls va access with
  | .ok pa => body ((s.touchPage s.curCore s.curSlot cls va).pageOk s.curCore cls va) pa
  | .miss => s.startWalk cls va access ga
  | .fault cause level => s.pageFault s.curCore s.curSlot cls va ga access cause level

/-- The 64 KiB pages that n bytes from a GA touch, by their first byte. -/
def pagesOf (va n : Nat) : List Nat :=
  if n = 0 then [] else (List.range ((va + n - 1) / 0x10000 + 1 - va / 0x10000)).map (fun i => (va / 0x10000 + i) * 0x10000)

/-- Physical address of a partition-virtual GA used by a unit of the partition itself, such as the fault queue or an image:
class 1 or 2, or class 0 by the map. -/
def State.physical (s : State) (part : Option Nat) (ga : Word) (access : Nat) : Option Nat :=
  match s.gaTarget 0x7FFF part ga 8 with
  | .scratch c off => some (scratchAddr c off)
  | .mem cls va => match s.translateNow part cls va access with | .ok pa => some pa | _ => none
  | _ => none

end Sys2Proof.Machine
end

