-- ==== Sys2Proof/Machine/Flags.lean ====
section
/-! DEFINITION. The sticky floating-point flags of FPST (05_numbers R130) and the conversion counter CVTCNT (R131, R155). -/

namespace Sys2Proof.Machine

/-- Six flags: [5] RG, [4] NV, [3] DZ, [2] OF, [1] UF, [0] NX. -/
abbrev Flags := BitVec 6

def flagRG : Flags := 0x20#6
def flagNV : Flags := 0x10#6
def flagDZ : Flags := 0x08#6
def flagOF : Flags := 0x04#6
def flagUF : Flags := 0x02#6
def flagNX : Flags := 0x01#6

/-- A flag, or nothing. -/
def flagIf (b : Bool) (f : Flags) : Flags := if b then f else 0

/-- The flags gathered over lanes (R130). -/
def gatherFlags (fs : List Flags) : Flags := fs.foldl (fun x y => x ||| y) 0

/-- FPST after an instruction that raises f: flags are set and never cleared. -/
def raiseFlags (fpst : Word) (f : Flags) : Word := fpst ||| f.setWidth 64

/-- Raise flags in a slot. -/
def State.raiseAt (s : State) (c : CoreId) (k : Nat) (f : Flags) : State :=
  s.modSlot c k (fun t => { t with fpst := raiseFlags t.fpst f })

/-- Raise flags of the issuing thread. -/
def State.raise (s : State) (f : Flags) : State := s.raiseAt s.curCore s.curSlot f

/-- CVTCNT advances by 1 (R155). -/
def State.countConversion (s : State) : State := s.modCur (fun t => { t with cvtcnt := t.cvtcnt + 1 })

/-- FPCTL.RM of the issuing thread (R129): 0 RNE, 1 RZ, 2 RDN, 3 RUP. -/
def State.rm (s : State) : Nat := bf s.cur.fpctl 1 0

end Sys2Proof.Machine
end

