-- ==== Sys2Proof/Machine/Integer.lean ====
section
/-! DEFINITION. Integer, bit-field and constant instructions (04_integer R103-R122) and their compact forms (02_encoding R44). -/

namespace Sys2Proof.Machine

/-- What a meaning answers. -/
abbrev Result := Host.Outcome State Fault Refusal

/-- The 5-bit field of a register name. -/
def Dest.field : Dest → Reg
  | .nowhere => 0
  | .scalar r => r
  | .vector r => r

/-- What retires with these names in assembly order. -/
def retireOf (len : Nat) (names : List Dest) : Retire := ⟨len, names.map Dest.field, 0⟩

/-- An instruction that retires at WB: the pending check on every register it names (R78), its effect, and the retirement. -/
def State.plain (s : State) (len : Nat) (names : List Dest) (effect : State → State) : State :=
  s.unlessPending names ((effect s).done (retireOf len names))

/-- An instruction whose only result is a scalar register. -/
def State.scalarOp (s : State) (len : Nat) (names : List Reg) (d : Reg) (v : Word) : Result :=
  .next (s.plain len (scalars names) (fun s => s.putReg d v))

/-- The issue cycle of the instruction being executed: the core's CYCLE. -/
def State.now (s : State) : Nat := (s.core s.curCore).cycle

/-- An instruction that enters an iterative unit: its thread is BLOCKED until the result is delivered (R72, R105). -/
def State.iterative (s : State) (unit : IterUnit) (names : List Dest) (d : Dest) (v : Vec) (f : BitVec 6) (delay : Nat) : Result :=
  .next (s.unlessPending names (s.block (.iter unit d v f (s.now + delay) (retireOf 4 names))))

/-! ### Operations -/

/-- 1 or 0. -/
def truth (b : Bool) : Word := if b then 1 else 0

/-- Rotation left by n modulo 64 (R108). -/
def rotl (a : Word) (n : Nat) : Word := a.rotateLeft (n % 64)

/-- The high half of a signed or an unsigned product (R109). -/
def mulHigh (a b : Word) : Word := BitVec.ofInt 64 ((a.toInt * b.toInt) / 2 ^ 64)
def mulHighU (a b : Word) : Word := BitVec.ofNat 64 (a.toNat * b.toNat / 2 ^ 64)

/-- Quotient and remainder (R110): a zero divisor gives all ones and the dividend. -/
def divSigned (a b : Word) : Word := if b = 0 then ones else BitVec.ofInt 64 (a.toInt.tdiv b.toInt)
def remSigned (a b : Word) : Word := if b = 0 then a else BitVec.ofInt 64 (a.toInt.tmod b.toInt)
def divUnsigned (a b : Word) : Word := if b = 0 then ones else a / b
def remUnsigned (a b : Word) : Word := if b = 0 then a else a % b

/-- The low 32 bits, sign-extended. -/
def sextw (x : Word) : Word := (x.setWidth 32).signExtend 64

/-- A signed integer clamped to 64 bits (R112). -/
def clamp64 (i : Int) : Word :=
  if (2 : Int) ^ 63 - 1 < i then 0x7FFFFFFFFFFFFFFF#64 else if i < -(2 : Int) ^ 63 then 0x8000000000000000#64 else BitVec.ofInt 64 i

/-- Leading zeros among the low n bits. -/
def clzFrom (a : Word) : Nat → Nat
  | 0 => 0
  | n + 1 => if bit a n then 0 else 1 + clzFrom a n

/-- Trailing zeros from bit i over n bits. -/
def ctzFrom (a : Word) (i : Nat) : Nat → Nat
  | 0 => 0
  | n + 1 => if bit a i then 0 else 1 + ctzFrom a (i + 1) n

/-- One bits among the low n. -/
def popFrom (a : Word) : Nat → Nat
  | 0 => 0
  | n + 1 => (bit a n).toNat + popFrom a n

/-- The low n bits of a in reverse order. -/
def revFrom (a : Word) : Nat → Nat
  | 0 => 0
  | n + 1 => (bit a n).toNat * 2 ^ (63 - n) + revFrom a n

/-- Bytes in reverse order. -/
def byteSwap (a : Word) : Word := BitVec.ofNat 64 (ofBytes (bytesOf a.toNat 8).reverse)

/-- The width a field of R117 really has: truncated at bit 63. -/
def fieldWidth (off w : Nat) : Nat := min w (64 - off)

/-- EXTU of R117. -/
def extractU (a : Word) (off w : Nat) : Word := BitVec.ofNat 64 (a.toNat / 2 ^ off % 2 ^ fieldWidth off w)

/-- EXTS of R117. -/
def extractS (a : Word) (off w : Nat) : Word := sextN (a.toNat / 2 ^ off % 2 ^ fieldWidth off w) (fieldWidth off w)

/-- INS of R117. -/
def insertField (d a : Word) (off w : Nat) : Word :=
  let m : Word := BitVec.ofNat 64 ((2 ^ fieldWidth off w - 1) * 2 ^ off)
  (d &&& ~~~m) ||| ((a <<< off) &&& m)

/-- Offset and width of a variable field (R119). -/
def varOff (b : Word) : Nat := bf b 7 0
def varWidth (b : Word) : Nat := min (bf b 15 8) 64

/-! ### INT-A (R107-R114) -/

/-- ADD (R108): d ← a + b. -/
def execAdd (d a b : Reg) (s : State) : Result :=
  s.scalarOp 4 [d, a, b] d (s.reg a + s.reg b)

/-- SUB (R108): d ← a - b. -/
def execSub (d a b : Reg) (s : State) : Result :=
  s.scalarOp 4 [d, a, b] d (s.reg a - s.reg b)

/-- AND (R108): d ← a AND b. -/
def execAnd (d a b : Reg) (s : State) : Result :=
  s.scalarOp 4 [d, a, b] d (s.reg a &&& s.reg b)

/-- OR (R108): d ← a OR b. -/
def execOr (d a b : Reg) (s : State) : Result :=
  s.scalarOp 4 [d, a, b] d (s.reg a ||| s.reg b)

/-- XOR (R108): d ← a XOR b. -/
def execXor (d a b : Reg) (s : State) : Result :=
  s.scalarOp 4 [d, a, b] d (s.reg a ^^^ s.reg b)

/-- ANDN (R108): d ← a AND NOT b. -/
def execAndn (d a b : Reg) (s : State) : Result :=
  s.scalarOp 4 [d, a, b] d (s.reg a &&& ~~~(s.reg b))

/-- SLL (R108): d ← a << b[5:0]. -/
def execSll (d a b : Reg) (s : State) : Result :=
  s.scalarOp 4 [d, a, b] d (s.reg a <<< bf (s.reg b) 5 0)

/-- SRL (R108): d ← a >> b[5:0]. -/
def execSrl (d a b : Reg) (s : State) : Result :=
  s.scalarOp 4 [d, a, b] d (s.reg a >>> bf (s.reg b) 5 0)

/-- SRA (R108): d ← asr(a, b[5:0]). -/
def execSra (d a b : Reg) (s : State) : Result :=
  s.scalarOp 4 [d, a, b] d ((s.reg a).sshiftRight (bf (s.reg b) 5 0))

/-- ROL (R108): d ← a rotated left by b[5:0]. -/
def execRol (d a b : Reg) (s : State) : Result :=
  s.scalarOp 4 [d, a, b] d (rotl (s.reg a) (bf (s.reg b) 5 0))

/-- MUL (R109): the low half of the product. -/
def execMul (d a b : Reg) (s : State) : Result :=
  s.scalarOp 4 [d, a, b] d (s.reg a * s.reg b)

/-- MULH (R109): the high half of the signed product. -/
def execMulh (d a b : Reg) (s : State) : Result :=
  s.scalarOp 4 [d, a, b] d (mulHigh (s.reg a) (s.reg b))

/-- MULHU (R109): the high half of the unsigned product. -/
def execMulhu (d a b : Reg) (s : State) : Result :=
  s.scalarOp 4 [d, a, b] d (mulHighU (s.reg a) (s.reg b))

/-- DIV (R110, R105): signed quotient, delivered by the divider 25 cc after issue. -/
def execDiv (d a b : Reg) (s : State) : Result :=
  s.iterative .divider (scalars [d, a, b]) (.scalar d) ((divSigned (s.reg a) (s.reg b)).setWidth 256) 0 25

/-- DIVU (R110, R105): unsigned quotient, delivered by the divider 25 cc after issue. -/
def execDivu (d a b : Reg) (s : State) : Result :=
  s.iterative .divider (scalars [d, a, b]) (.scalar d) ((divUnsigned (s.reg a) (s.reg b)).setWidth 256) 0 25

/-- REM (R110, R105): signed remainder, delivered by the divider 25 cc after issue. -/
def execRem (d a b : Reg) (s : State) : Result :=
  s.iterative .divider (scalars [d, a, b]) (.scalar d) ((remSigned (s.reg a) (s.reg b)).setWidth 256) 0 25

/-- REMU (R110, R105): unsigned remainder, delivered by the divider 25 cc after issue. -/
def execRemu (d a b : Reg) (s : State) : Result :=
  s.iterative .divider (scalars [d, a, b]) (.scalar d) ((remUnsigned (s.reg a) (s.reg b)).setWidth 256) 0 25

/-- SLT (R108): 1 if a < b, signed. -/
def execSlt (d a b : Reg) (s : State) : Result :=
  s.scalarOp 4 [d, a, b] d (truth (slt (s.reg a) (s.reg b)))

/-- SLTU (R108): 1 if a < b, unsigned. -/
def execSltu (d a b : Reg) (s : State) : Result :=
  s.scalarOp 4 [d, a, b] d (truth (decide (s.reg a < s.reg b)))

/-- MIN (R108): the signed lesser. -/
def execMin (d a b : Reg) (s : State) : Result :=
  s.scalarOp 4 [d, a, b] d (if slt (s.reg b) (s.reg a) then s.reg b else s.reg a)

/-- MAX (R108): the signed greater. -/
def execMax (d a b : Reg) (s : State) : Result :=
  s.scalarOp 4 [d, a, b] d (if slt (s.reg a) (s.reg b) then s.reg b else s.reg a)

/-- MINU (R108): the unsigned lesser. -/
def execMinu (d a b : Reg) (s : State) : Result :=
  s.scalarOp 4 [d, a, b] d (if s.reg b < s.reg a then s.reg b else s.reg a)

/-- MAXU (R108): the unsigned greater. -/
def execMaxu (d a b : Reg) (s : State) : Result :=
  s.scalarOp 4 [d, a, b] d (if s.reg a < s.reg b then s.reg b else s.reg a)

/-- ADDW (R111): 32-bit sum, sign-extended. -/
def execAddw (d a b : Reg) (s : State) : Result :=
  s.scalarOp 4 [d, a, b] d (sextw (s.reg a + s.reg b))

/-- SUBW (R111): 32-bit difference, sign-extended. -/
def execSubw (d a b : Reg) (s : State) : Result :=
  s.scalarOp 4 [d, a, b] d (sextw (s.reg a - s.reg b))

/-- CLZ (R113): leading zero bits. -/
def execClz (d a : Reg) (s : State) : Result :=
  s.scalarOp 4 [d, a] d (BitVec.ofNat 64 (clzFrom (s.reg a) 64))

/-- CTZ (R113): trailing zero bits. -/
def execCtz (d a : Reg) (s : State) : Result :=
  s.scalarOp 4 [d, a] d (BitVec.ofNat 64 (ctzFrom (s.reg a) 0 64))

/-- POPC (R113): one bits. -/
def execPopc (d a : Reg) (s : State) : Result :=
  s.scalarOp 4 [d, a] d (BitVec.ofNat 64 (popFrom (s.reg a) 64))

/-- BREV (R113): bits in reverse order. -/
def execBrev (d a : Reg) (s : State) : Result :=
  s.scalarOp 4 [d, a] d (BitVec.ofNat 64 (revFrom (s.reg a) 64))

/-- BSWAP (R113): bytes in reverse order. -/
def execBswap (d a : Reg) (s : State) : Result :=
  s.scalarOp 4 [d, a] d (byteSwap (s.reg a))

/-- SEXTB (R113): the low byte, sign-extended. -/
def execSextb (d a : Reg) (s : State) : Result :=
  s.scalarOp 4 [d, a] d (((s.reg a).setWidth 8).signExtend 64)

/-- SEXTH (R113): the low half, sign-extended. -/
def execSexth (d a : Reg) (s : State) : Result :=
  s.scalarOp 4 [d, a] d (((s.reg a).setWidth 16).signExtend 64)

/-- SEXTW (R113): the low word, sign-extended. -/
def execSextw (d a : Reg) (s : State) : Result :=
  s.scalarOp 4 [d, a] d (sextw (s.reg a))

/-- ZEXTW (R113): the low word, zero-extended. -/
def execZextw (d a : Reg) (s : State) : Result :=
  s.scalarOp 4 [d, a] d (((s.reg a).setWidth 32).setWidth 64)

/-- SELZ (R114): d ← a if b = 0; d is written in both outcomes. -/
def execSelz (d a b : Reg) (s : State) : Result :=
  s.scalarOp 4 [d, a, b] d (if s.reg b = 0 then s.reg a else s.reg d)

/-- SELNZ (R114): d ← a if b ≠ 0; d is written in both outcomes. -/
def execSelnz (d a b : Reg) (s : State) : Result :=
  s.scalarOp 4 [d, a, b] d (if s.reg b = 0 then s.reg d else s.reg a)

/-- EXTV (R119): the unsigned field of a at b[7:0], width min(b[15:8], 64). -/
def execExtv (d a b : Reg) (s : State) : Result :=
  s.scalarOp 4 [d, a, b] d (if 64 ≤ varOff (s.reg b) then 0 else extractU (s.reg a) (varOff (s.reg b)) (varWidth (s.reg b)))

/-- INSV (R119): the low bits of a into that field of d. -/
def execInsv (d a b : Reg) (s : State) : Result :=
  s.scalarOp 4 [d, a, b] d (if 64 ≤ varOff (s.reg b) then s.reg d else insertField (s.reg d) (s.reg a) (varOff (s.reg b)) (varWidth (s.reg b)))

/-- ADDS (R112): the signed sum, saturated. -/
def execAdds (d a b : Reg) (s : State) : Result :=
  s.scalarOp 4 [d, a, b] d (clamp64 ((s.reg a).toInt + (s.reg b).toInt))

/-- SUBS (R112): the signed difference, saturated. -/
def execSubs (d a b : Reg) (s : State) : Result :=
  s.scalarOp 4 [d, a, b] d (clamp64 ((s.reg a).toInt - (s.reg b).toInt))

/-! ### Immediates, bit fields and constants (R115-R122) -/

/-- ADDI (R115): d ← a + imm. -/
def execAddi (d a : Reg) (i : BitVec 14) (s : State) : Result :=
  s.scalarOp 4 [d, a] d (s.reg a + imm14 i)

/-- ANDI (R115): d ← a AND imm. -/
def execAndi (d a : Reg) (i : BitVec 14) (s : State) : Result :=
  s.scalarOp 4 [d, a] d (s.reg a &&& imm14 i)

/-- ORI (R115): d ← a OR imm. -/
def execOri (d a : Reg) (i : BitVec 14) (s : State) : Result :=
  s.scalarOp 4 [d, a] d (s.reg a ||| imm14 i)

/-- XORI (R115): d ← a XOR imm. -/
def execXori (d a : Reg) (i : BitVec 14) (s : State) : Result :=
  s.scalarOp 4 [d, a] d (s.reg a ^^^ imm14 i)

/-- SLTI (R115): 1 if a < imm, signed. -/
def execSlti (d a : Reg) (i : BitVec 14) (s : State) : Result :=
  s.scalarOp 4 [d, a] d (truth (slt (s.reg a) (imm14 i)))

/-- SLTIU (R115): 1 if a < imm, unsigned. -/
def execSltiu (d a : Reg) (i : BitVec 14) (s : State) : Result :=
  s.scalarOp 4 [d, a] d (truth (decide (s.reg a < imm14 i)))

/-- SLLI (R116): d ← a << n. -/
def execSlli (d a : Reg) (n : BitVec 6) (s : State) : Result :=
  s.scalarOp 4 [d, a] d (s.reg a <<< n.toNat)

/-- SRLI (R116): d ← a >> n. -/
def execSrli (d a : Reg) (n : BitVec 6) (s : State) : Result :=
  s.scalarOp 4 [d, a] d (s.reg a >>> n.toNat)

/-- SRAI (R116): d ← asr(a, n). -/
def execSrai (d a : Reg) (n : BitVec 6) (s : State) : Result :=
  s.scalarOp 4 [d, a] d ((s.reg a).sshiftRight n.toNat)

/-- ROLI (R116): d ← a rotated left by n. -/
def execRoli (d a : Reg) (n : BitVec 6) (s : State) : Result :=
  s.scalarOp 4 [d, a] d (rotl (s.reg a) n.toNat)

/-- EXTU (R117, R118): an unsigned field. -/
def execExtu (d a : Reg) (o w : BitVec 6) (s : State) : Result :=
  s.scalarOp 4 [d, a] d (extractU (s.reg a) o.toNat w.toNat)

/-- EXTS (R117, R118): a sign-extended field. -/
def execExts (d a : Reg) (o w : BitVec 6) (s : State) : Result :=
  s.scalarOp 4 [d, a] d (extractS (s.reg a) o.toNat w.toNat)

/-- INS (R117, R118): inserts the low bits of a into d. -/
def execIns (d a : Reg) (o w : BitVec 6) (s : State) : Result :=
  s.scalarOp 4 [d, a] d (insertField (s.reg d) (s.reg a) o.toNat w.toNat)

/-- LI (R120): d ← sext(imm19). -/
def execLi (d : Reg) (i : BitVec 19) (s : State) : Result := s.scalarOp 4 [d] d (imm19 i)

/-- LISH (R121): d ← (d << 16) OR zext(imm16). -/
def execLish (d : Reg) (i : BitVec 16) (s : State) : Result :=
  s.scalarOp 4 [d] d ((s.reg d <<< 16) ||| i.setWidth 64)

/-- ADDPC (R122): d ← the pc moved by 2 × sext(imm19) in its offset. -/
def execAddpc (d : Reg) (i : BitVec 19) (s : State) : Result :=
  s.scalarOp 4 [d] d (addOffset s.cur.pc (imm19 i * 2))

/-! ### Compact forms (R44) -/

/-- MOV.K (R44): ADD d, a, p0. -/
def execMovK (d a : KReg) (s : State) : Result := s.scalarOp 2 [kreg d, kreg a] (kreg d) (s.reg (kreg a))

/-- ADD.K (R44, R108). -/
def execAddK (d a b : KReg) (s : State) : Result :=
  s.scalarOp 2 [kreg d, kreg a, kreg b] (kreg d) (s.reg (kreg a) + s.reg (kreg b))

/-- SUB.K (R44, R108). -/
def execSubK (d a b : KReg) (s : State) : Result :=
  s.scalarOp 2 [kreg d, kreg a, kreg b] (kreg d) (s.reg (kreg a) - s.reg (kreg b))

/-- AND.K (R44, R108). -/
def execAndK (d a b : KReg) (s : State) : Result :=
  s.scalarOp 2 [kreg d, kreg a, kreg b] (kreg d) (s.reg (kreg a) &&& s.reg (kreg b))

/-- OR.K (R44, R108). -/
def execOrK (d a b : KReg) (s : State) : Result :=
  s.scalarOp 2 [kreg d, kreg a, kreg b] (kreg d) (s.reg (kreg a) ||| s.reg (kreg b))

/-- XOR.K (R44, R108). -/
def execXorK (d a b : KReg) (s : State) : Result :=
  s.scalarOp 2 [kreg d, kreg a, kreg b] (kreg d) (s.reg (kreg a) ^^^ s.reg (kreg b))

/-- ADDI.K (R44): ADDI with sext(imm4). -/
def execAddiK (d a : KReg) (i : BitVec 4) (s : State) : Result :=
  s.scalarOp 2 [kreg d, kreg a] (kreg d) (s.reg (kreg a) + i.signExtend 64)

/-- SLLI.K (R44): SLLI with zext(imm4). -/
def execSlliK (d a : KReg) (i : BitVec 4) (s : State) : Result :=
  s.scalarOp 2 [kreg d, kreg a] (kreg d) (s.reg (kreg a) <<< i.toNat)

end Sys2Proof.Machine
end

