-- ==== Sys2Proof/Machine/Context.lean ====
section
/-! DEFINITION. Contexts: the context record (15_system R423), starting a context (03_strands R69, R87, 13_tasks R344, R345, R360),
ending one (03_strands R88, 13_tasks R354), codelet descriptors and the ready ring (R346, R347, R355). -/

namespace Sys2Proof.Machine

/-! ### The context record (R423) -/

/-- The code of a slot's state in STATEW. A slot reserved for a spilled owner reads as that owner, which is parked. -/
def SlotState.code : SlotState → Nat
  | .free => 0 | .run => 1 | .parked => 2 | .contained => 3 | .lost => 4 | .blocked => 5 | .spill => 6 | .fill => 7 | .reserved => 2

/-- The four doublewords of a vector register. -/
def vecWords (v : Vec) : List Word :=
  [v.setWidth 64, (v >>> 64).setWidth 64, (v >>> 128).setWidth 64, (v >>> 192).setWidth 64]

/-- A vector register from doublewords. -/
def vecOfWords (ws : List Word) : Vec :=
  BitVec.ofNat 256 (ws.foldr (fun w n => w.toNat + 2 ^ 64 * n) 0)

/-- STATEW of a slot. -/
def Slot.statew (t : Slot) : Word :=
  let woken := match t.spilled with | some o => o.woken | none => false
  let reason := match t.park with | some q => q.cls | none => 0
  BitVec.ofNat 64 (t.st.code + woken.toNat * 8 + reason % 256 * 16 + t.gen % 16 * 2 ^ 12 + t.spilled.isSome.toNat * 2 ^ 16)

/-- The two key doublewords of a list of at most four keys. -/
def keyWords (keys : List (BitVec 32)) : List Word :=
  let k := fun (i : Nat) => (keys.getD i 0).toNat
  [BitVec.ofNat 64 (k 0 + k 1 * 2 ^ 32), BitVec.ofNat 64 (k 2 + k 3 * 2 ^ 32)]

/-- Doubleword 0x390: keys held, how the context was started, KEYNS, descriptor offset. -/
def Origin.word (o : Origin) : Word :=
  BitVec.ofNat 64 (o.keys.length % 8 + o.disp.toNat * 8 + o.ring.toNat * 16 + o.keyns % 2 ^ 16 * 2 ^ 16 + o.desc % 2 ^ 19 * 2 ^ 32)

/-- The 128 doublewords of a context record. -/
def Slot.record (t : Slot) : List Word :=
  t.p.toList.drop 1 ++ [t.pc]
  ++ (List.range 8).flatMap (fun n => [t.segBase.toList.getD n 0, t.segLim.toList.getD n 0])
  ++ t.vp.toList.flatMap vecWords
  ++ [t.fpctl, t.fpst, t.cvtcnt, t.sigctl, t.chst, t.geom, t.logseq, t.latcnt, t.rcbptr, t.statew,
      BitVec.ofNat 64 (t.pendP.toNat + t.pendV.toNat * 2 ^ 16), t.privst, t.epc, t.ecause, t.esegbase, t.eseglim]
  ++ keyWords t.origin.keys ++ [t.origin.word] ++ List.replicate 13 0

/-- A vector of n entries from a list. -/
def vectorOf {α : Type} (n : Nat) (d : α) (l : List α) : Vector α n := Vector.ofFn (fun (i : Fin n) => l.getD i.val d)

/-- The origin a record holds. -/
def originOf (ws : List Word) : Origin :=
  let g := fun (i : Nat) => ws.getD i 0
  let keys := [bf (g 112) 31 0, bf (g 112) 63 32, bf (g 113) 31 0, bf (g 113) 63 32]
  ⟨bit (g 114) 3, bit (g 114) 4, bf (g 114) 50 32, (keys.take (bf (g 114) 2 0)).map (BitVec.ofNat 32), bf (g 114) 31 16⟩

/-- The fields of SIGCTL, CHST and GEOM; every other bit is res0 (00_scope R8; 03_strands R99, 08_messages R236). -/
def sigFields (w : Word) : Word := keepf w 55 32 ||| keepf w 31 16 ||| keepf w 8 0
def chstFields (w : Word) : Word := keepf w 22 16 ||| keepf w 7 4 ||| keepf w 2 0
def geomFields (w : Word) : Word := keepf w 57 0

/-- PRIVST from a record: no write of one raises a context to level 2 or takes one from it (15_system R399). -/
def recordPriv (old w : Word) : Word :=
  keepf w 3 2 ||| (if bf old 1 0 = 2 then 2 else if bf w 1 0 = 0 then 0 else 1)

/-- A slot with the context of a record. STATEW, the generation and what the slot waits for are not taken from it. XLAT is not in
the record: its value after a restore is free (log 15, DESIGN CHOICE). -/
def Slot.load (t : Slot) (ws : List Word) (xlat : Word) : Slot :=
  let g := fun (i : Nat) => ws.getD i 0
  { t with
    p := vectorOf 16 0 (0 :: ws.take 15), pc := keepf (g 15) 63 1
    segBase := vectorOf 8 0 ((List.range 8).map (fun n => keepf (g (16 + 2 * n)) 63 5))
    segLim := vectorOf 8 0 ((List.range 8).map (fun n => g (17 + 2 * n)))
    vp := vectorOf 16 0 ((List.range 16).map (fun n => vecOfWords ((ws.drop (32 + 4 * n)).take 4)))
    fpctl := keepf (g 96) 1 0, fpst := keepf (g 97) 5 0, cvtcnt := g 98, sigctl := sigFields (g 99), chst := chstFields (g 100), geom := geomFields (g 101)
    logseq := keepf (g 102) 31 0, latcnt := g 103, rcbptr := keepf (g 104) 63 8
    pendP := BitVec.ofNat 16 (bf (g 106) 15 0), pendV := BitVec.ofNat 16 (bf (g 106) 31 16)
    privst := recordPriv t.privst (g 107), epc := g 108, ecause := keepf (g 109) 15 0, esegbase := keepf (g 110) 63 5, eseglim := g 111
    xlat := xlat, origin := originOf ws }

/-- Physical address of the spill record of a slot (03_strands R96). -/
def spillAddr (c : CoreId) (k : Nat) : Nat := scratchAddr c (0x7C000 + k * 0x400)

/-! ### Descriptors and the ready ring -/

/-- Physical address of doubleword i of a descriptor. -/
def descAddr (c : CoreId) (desc i : Nat) : Nat := scratchAddr c (desc + 8 * i)

/-- STATE, COUNT and REARM of a descriptor (13_tasks R346, R347). -/
def descState (w : Word) : Nat := bf w 34 32
def descCount (w : Word) : Nat := bf w 31 0
def descRearm (w : Word) : Bool := bit w 38

/-- A ready ring is full (R357). -/
def Core.ringFull (x : Core) : Bool := decide (256 ≤ x.ringCount)

/-- The entry of the ready ring that the next push writes. -/
def State.ringSlot (s : State) (c : CoreId) : Nat := scratchAddr c (0x7B800 + 8 * (((s.core c).ringHead + (s.core c).ringCount) % 256))

/-- Append a descriptor to the ready ring (R355). -/
def State.pushRing (s : State) (c : CoreId) (desc : Nat) : State :=
  let s1 := s.writeWord (s.ringSlot c) (BitVec.ofNat 64 (2 ^ 63 + desc))
  s1.modCore c (fun x => { x with ringCount := x.ringCount + 1, ringStamps := x.ringStamps ++ [s.tick] })

/-- Set READY in a descriptor and push it; its status word is the one given. -/
def State.pushDesc (s : State) (c : CoreId) (desc : Nat) (w : Word) : State :=
  (s.writeWord (descAddr c desc 4) (setf w 34 32 2)).pushRing c desc

/-- The end of a codelet pushes it onto the ready ring (R354). -/
def endPushes (w : Word) (count : Option Nat) : Bool := if descRearm w then descCount w == 0 else count == some 0

/-- The descriptor of a codelet that ends, or the entry of the ring that its end writes, is held (10_ordering R280; 03_strands R90). -/
def State.endHeld (s : State) (c : CoreId) (desc : Nat) (count : Option Nat) : Bool :=
  s.isHeld (descAddr c desc 0) 48
    || (endPushes (s.readWord (descAddr c desc 4)) count && !(s.core c).ringFull && s.isHeld (s.ringSlot c) 8)

/-- The step at the descriptor when a codelet from the ring ends (R354): re-armed, re-counted or DONE. A push that finds the ring full waits
(R357). -/
def State.endStep (s : State) (c : CoreId) (desc : Nat) (count : Option Nat) : State :=
  let w := s.readWord (descAddr c desc 4)
  if descRearm w then
    let w1 := setf w 38 38 0
    if descCount w = 0 then
      (if (s.core c).ringFull then s.modCore c (fun x => { x with heldPush := x.heldPush ++ [(desc, none)] }) else s.pushDesc c desc w1)
    else s.writeWord (descAddr c desc 4) (setf w1 34 32 1)
  else match count with
    | some n =>
      let w1 := setf w 31 0 n
      if n = 0 then
        (if (s.core c).ringFull then s.modCore c (fun x => { x with heldPush := x.heldPush ++ [(desc, none)] }) else s.pushDesc c desc w1)
      else s.writeWord (descAddr c desc 4) (setf w1 34 32 1)
    | none => s.writeWord (descAddr c desc 4) (setf w 34 32 5)

/-- The end of a codelet from the ring, which waits while what it touches is held. -/
def State.endCodelet (s : State) (c : CoreId) (desc : Nat) (count : Option Nat) : State :=
  if s.endHeld c desc count then
    ((s.powerFor (descAddr c desc 0) 48).powerFor (s.ringSlot c) 8).modCore c (fun x => { x with ending := x.ending ++ [(desc, count)] })
  else s.endStep c desc count

/-! ### Lock keys (R361) -/

/-- The memory core at whose attach router the slice of a key is entered. -/
def keySlice (ns : Nat) (key : BitVec 32) : CoreId :=
  let n := key ^^^ BitVec.ofNat 32 ns
  carafeCore (bf n 2 0) (bf n 7 3)

/-- The memory core at whose attach router a queue or chunk counter is entered (R366, R369). -/
def queueCore (q : Nat) : CoreId := carafeCore (q % 8) (q / 8 % 32)

/-- A release of a key by a slot. -/
def State.keyReleasePacket (s : State) (c : CoreId) (k : Nat) (ns : Nat) (key : BitVec 32) : Msg :=
  s.packet c k (keySlice ns key) none none (.keyRelease ns key)

/-- The FREE slots of a core of a partition name its root RCB, the reset value of RCBPTR (01_machine R16). -/
def Core.rooted (x : Core) (root : Word) : Core :=
  { x with slots := x.slots.map (fun t => if t.st = .free then { t with rcbptr := root } else t) }

/-- The root RCB of a bulkhead's partition; 0 with none. -/
def State.rootOf (s : State) (b : Nat) : Word := match (s.bulkhead b).owner with | some p => (s.part p).root | none => 0

/-! ### Ending a context (03_strands R88, R97) -/

/-- The core cycle in which the slot allocator first sees that a slot's context has ended, where its end is seen before the issue of cycle n. The
instruction that ends it in cycle i does so at WB in i + 7, and the allocator serves in i + 7 the claims whose steps stand before the issue of
i + 4 (R69, R72, R88); `readyAt` is i + 8 then. -/
def Slot.endsAt (t : Slot) (n : Nat) : Nat := max n (t.readyAt - 4)

/-- What a slot holds once its context has ended: FREE, or kept for its spilled owner, whose FILL of 40 cc begins if it is marked woken (R88, R97). -/
def Slot.vacate (t : Slot) (n : Nat) : Slot :=
  let base := { Slot.reset with gen := t.gen, outst := t.outst, nextPost := t.nextPost, readyAt := t.endsAt n, spilled := t.spilled }
  match t.spilled with
  | none => base
  | some o => if o.woken then { base with st := .fill, wait := .yield_ (t.endsAt n + 44) } else { base with st := .reserved }

/-- Release the keys of an ended context: at once, or once every posted entry its slot held is acknowledged (10_ordering R284). -/
def State.releaseKeys (s : State) (c : CoreId) (k : Nat) : State :=
  let t := s.slot c k
  let packets := t.origin.keys.map (fun key => s.keyReleasePacket c k t.origin.keyns key)
  if packets.isEmpty then s
  else if t.posted.isEmpty then { s with net := s.net ++ packets }
  else s.modCore c (fun x => { x with owed := x.owed ++ [⟨k, t.posted.map (fun e => e.id), packets⟩] })

/-- End the context in a slot (R88, R354): a codelet releases its keys and, from the ring, completes its descriptor. -/
def State.endContext (s : State) (c : CoreId) (k : Nat) (count : Option Nat) : State :=
  let t := s.slot c k
  let s1 := if t.origin.disp then s.releaseKeys c k else s
  let s2 := s1.modSlot c k (fun t => t.vacate (s.core c).cycle)
  if t.origin.disp && t.origin.ring then s2.endCodelet c t.origin.desc count else s2

/-! ### Starting a context -/

/-- A slot is FREE for a claim that the allocator serves before the issue of cycle n (R69, R88). -/
def Slot.isFree (t : Slot) (n : Nat) : Bool := t.st == .free && decide (t.readyAt ≤ n)

/-- The slots [lo, hi) that a claim of a thread may take: on a memory core user slots are apart from the firmware's (12_engines R335;
07_access R463). -/
abbrev SlotRange := Nat × Nat

/-- The lowest-numbered FREE slot of a range whose generation can advance (R69, R89), before the issue of cycle n. -/
def Core.freeSlot (x : Core) (r : SlotRange) (n : Nat) : Option Nat :=
  (List.range 16).find? (fun k => decide (r.1 ≤ k ∧ k < r.2) && (x.slot k).isFree n && (x.slot k).nextGen.isSome)

/-- Some slot of a range is FREE. -/
def Core.anyFree (x : Core) (r : SlotRange) (n : Nat) : Bool :=
  (List.range 16).any (fun k => decide (r.1 ≤ k ∧ k < r.2) && (x.slot k).isFree n)

/-- The slots for the claims of active messages and codelets: user slots only on a memory core (12_engines R335). -/
def userSlots (c : CoreId) : SlotRange := if isMemoryCore c then (8, 16) else (0, 16)

/-- The slots for the FORK of a thread: firmware starts firmware, a user starts users (12_engines R335; 07_access R463). -/
def forkSlots (c : CoreId) (k : Nat) : SlotRange := if isMemoryCore c && decide (k < 8) then (0, 8) else userSlots c

/-- A slot a new context enters, which may issue from cycle n on: everything at its starting value, the generation advanced (R89). -/
def Slot.enter (t : Slot) (tick n : Nat) : Slot :=
  let a := t.advanceGen
  { Slot.reset with
    st := .run, gen := a.gen, outst := t.outst, nextPost := t.nextPost, readyAt := n, spilled := t.spilled, acq := tick }

/-- The allocator has granted a claim: no other one before the issue of cycle n + 1 (R69). -/
def State.noteGrant (s : State) (c : CoreId) (n : Nat) : State := s.modCore c (fun x => { x with granted := some n })

/-- SIGCTL for a mode at a context's start: expecting a head when the mode is non-zero (R99, 13_tasks R345). -/
def sigStart (mode : Nat) : Word := BitVec.ofNat 64 (mode % 4 + if mode % 4 = 0 then 0 else 4)

/-- A segment base from a template (13_tasks R344): LOCAL gives the starting core's own scratchpad by its virtual coordinates. -/
def templateBase (virt : CoreId) (w : Word) : Word :=
  if bit w 0 then BitVec.ofNat 64 (0xFFF * 2 ^ 48 + virt * 2 ^ 33 + bf w 18 5 * 32) else keepf w 63 5

/-- The segments of an RCB's template for a core. -/
def Slot.template (t : Slot) (virt : CoreId) (r : Rcb) : Slot :=
  { t with segBase := vectorOf 8 0 (r.tbase.map (templateBase virt)), segLim := vectorOf 8 0 r.tlim }

/-- The virtual coordinate of a core in a partition; physical where it has none. -/
def State.virtual (s : State) (part : Option Nat) (c : CoreId) : CoreId :=
  match part with
  | some p => if isCompute c then virtOf (s.part p) c else c
  | none => c

/-- Whether a start lies in the budget of its RCB (R345). -/
def State.inBudget (s : State) (part : Option Nat) (c : CoreId) (r : Rcb) : Bool :=
  !isCompute c || bit r.bhmask (vbhOf (s.virtual part c))

/-- Start a context in a slot by the dispatcher or an active message (08_messages R233, 13_tasks R360). It is in RUN from the cycle after the
grant, which for a step before the issue of cycle n is cycle n + 3 (R69). -/
def State.startContext (s : State) (c : CoreId) (k : Nat) (pc : Word) (args : List Word) (rcb : Word) (o : Origin) : State :=
  let part := s.partOf c k
  let eff := match part with | some p => (s.part p).effective rcb | none => none
  s.modSlot c k (fun t =>
    let t := { t.enter s.tick ((s.core c).cycle + 4) with pc := pc &&& ~~~(1 : Word), p := vectorOf 16 0 (0 :: args), rcbptr := keepf rcb 63 8, origin := o }
    match eff with
    | some r => { t.template (s.virtual part c) r with sigctl := sigStart r.sigmode }
    | none => t)

end Sys2Proof.Machine
end

