-- ==== Sys2Proof/Machine/Strands.lean ====
section
/-! DEFINITION. Control flow, strand instructions and block signatures (03_strands R82-R98). -/

namespace Sys2Proof.Machine

/-! ### Branches and jumps (R82-R85) -/

/-- A conditional branch of length len: the target when taken, otherwise sequential. -/
def State.branch (s : State) (len : Nat) (names : List Reg) (taken : Bool) (delta : Word) : Result :=
  .next (s.unlessPending (scalars names)
    (s.doneTo (addOffset s.cur.pc (if taken then delta else BitVec.ofNat 64 len)) ⟨len, names, 1⟩))

/-- The byte displacement of form B (R43). -/
def off14 (o : BitVec 14) : Word := o.signExtend 64 * 2

/-- BEQ (R83). -/
def execBeq (a b : Reg) (o : BitVec 14) (s : State) : Result := s.branch 4 [a, b] (s.reg a == s.reg b) (off14 o)

/-- BNE (R83). -/
def execBne (a b : Reg) (o : BitVec 14) (s : State) : Result := s.branch 4 [a, b] (s.reg a != s.reg b) (off14 o)

/-- BLT (R83), signed. -/
def execBlt (a b : Reg) (o : BitVec 14) (s : State) : Result := s.branch 4 [a, b] (slt (s.reg a) (s.reg b)) (off14 o)

/-- BGE (R83), signed. -/
def execBge (a b : Reg) (o : BitVec 14) (s : State) : Result := s.branch 4 [a, b] (!slt (s.reg a) (s.reg b)) (off14 o)

/-- BLTU (R83), unsigned. -/
def execBltu (a b : Reg) (o : BitVec 14) (s : State) : Result := s.branch 4 [a, b] (decide (s.reg a < s.reg b)) (off14 o)

/-- BGEU (R83), unsigned. -/
def execBgeu (a b : Reg) (o : BitVec 14) (s : State) : Result := s.branch 4 [a, b] (!decide (s.reg a < s.reg b)) (off14 o)

/-- BEQZ (R44): BEQ a, p0 with off8. -/
def execBeqz (a : KReg) (o : BitVec 8) (s : State) : Result :=
  s.branch 2 [kreg a] (s.reg (kreg a) == 0) (o.signExtend 64 * 2)

/-- BNEZ (R44): BNE a, p0 with off8. -/
def execBnez (a : KReg) (o : BitVec 8) (s : State) : Result :=
  s.branch 2 [kreg a] (s.reg (kreg a) != 0) (o.signExtend 64 * 2)

/-- JAL (R84): the link keeps the segment and wraps in its offset. -/
def execJal (d : Reg) (i : BitVec 19) (s : State) : Result :=
  .next (s.unlessPending (scalars [d])
    ((s.putReg d (addOffset s.cur.pc 4)).doneTo (addOffset s.cur.pc (imm19 i * 2)) ⟨4, [d], 2⟩))

/-- JALR (R85): the whole sum with bit 0 cleared becomes the pc, segment included. -/
def execJalr (d a : Reg) (i : BitVec 14) (s : State) : Result :=
  .next (s.unlessPending (scalars [d, a])
    ((s.putReg d (addOffset s.cur.pc 4)).doneTo ((s.reg a + imm14 i) &&& ~~~(1 : Word)) ⟨4, [d, a], 3⟩))

/-! ### Strands (R86-R93) -/

/-- The child of a FORK (R87): the parent's segments, FPCTL, SIGCTL.MODE and RCB, level 0, everything else at its start; it may issue from
cycle n on. -/
def Slot.child (t parent : Slot) (pc arg : Word) (tick n : Nat) : Slot :=
  { t.enter tick n with
    pc := pc &&& ~~~(1 : Word), p := vectorOf 16 0 [0, arg], segBase := parent.segBase, segLim := parent.segLim
    fpctl := parent.fpctl, sigctl := sigStart (bf parent.sigctl 1 0), rcbptr := parent.rcbptr }

/-- FORK (R87): the lowest-numbered FREE slot starts; d receives its number, or all ones when none is granted. Its claim stands in EX of
cycle i + 4, with the steps before the issue of i + 1, and the child issues after its WB, from i + 8 on (R69, R71). -/
def execFork (d a b : Reg) (s : State) : Result :=
  let c := s.curCore
  let r : Retire := ⟨4, [d, a, b], 4⟩
  .next (s.unlessPending (scalars [d, a, b])
    (match (s.core c).freeSlot (forkSlots c s.curSlot) (s.now + 1) with
     | some k =>
       (((s.modSlot c k (fun t => t.child s.cur (s.reg a) (s.reg b) s.tick (s.now + 8))).noteGrant c (s.now + 1)).putReg d (BitVec.ofNat 64 k)).done r
     | none => (s.putReg d ones).done r))

/-- The issuing context ends at the WB of its instruction, with the local stores of that cycle (R71, R88); HALTK's mask and successor. -/
def State.halt (s : State) (r : Retire) (count : Option Nat) (mask : BitVec 16) (succ : Nat) : State :=
  s.modCore s.curCore (fun x => x.addLanding s.curSlot 2 (.ending r count mask succ))

/-- HALT (R88). -/
def execHalt (s : State) : Result := .next (s.halt ⟨4, [], 4⟩ none 0 0)

/-- Record a retention entry, or pin the banks when all four entries hold other successors (R91). -/
def Core.retain (x : Core) (mask : BitVec 16) (succ : Nat) : Core :=
  if mask = 0 then x
  else if x.retention.any (fun e => e.succ == succ) then
    { x with retention := x.retention.map (fun e => if e.succ == succ then { e with mask := e.mask ||| mask } else e) }
  else if x.retention.length < 4 then { x with retention := x.retention ++ [⟨mask, succ⟩] }
  else
    let pin := fun (m : Assoc Bank) (j : Nat) => if bit mask j then m.put j { m.getD j Bank.reset with pinned := true } else m
    { x with banks := (List.range 16).foldl pin x.banks }

/-- The end of a context at WB (R88, R91, R102): the checker sees the instruction, the retention entry is recorded, and the slot is vacated. A
context that a shared-bank error has contained before (15_system R419, R420) does not end. -/
def State.haltNow (s : State) (c : CoreId) (k : Nat) (r : Retire) (count : Option Nat) (mask : BitVec 16) (succ : Nat) : State :=
  if (s.slot c k).st = .run then
    let s1 := match (checker (s.slot c k).sigctl r none).2 with
      | some f => s.report c (s.who c k) f
      | none => s
    (s1.modCore c (fun x => x.retain mask succ)).endContext c k count
  else s

/-- HALTK (R91). -/
def execHaltk (a b : Reg) (s : State) : Result :=
  let mask : BitVec 16 := BitVec.ofNat 16 (bf (s.reg a) 15 0)
  let succ := bf (s.reg b) 18 0
  .next (s.unlessPending (scalars [a, b]) (s.halt ⟨4, [a, b], 4⟩ none mask succ))

/-- YIELD (R92): ineligible until cycle i + 8 + bits(a, 15, 0). -/
def execYield (a : Reg) (s : State) : Result :=
  let n := bf (s.reg a) 15 0
  let due := s.now + 8 + n
  .next (s.unlessPending (scalars [a])
    ((s.done ⟨4, [a], 4⟩).modCur (fun t =>
      if n ≠ 0 ∧ t.st = .run then { t with st := .blocked, wait := .yield_ due } else t)))

/-- Where a partition-virtual or physical core field leads the issuing thread: a DETAIL of class "address", or a destination and, if
its virtual bulkhead is held, that virtual core (R93, 08_messages R216, 07_access R202, R463). -/
def State.coreTarget (s : State) (v : CoreId) : Except Nat (CoreId × Option CoreId) :=
  match s.partOf s.curCore s.curSlot with
  | none => if s.namesCore v then .ok (v, none) else .error 2
  | some p =>
    if 16 ≤ dieOf v then .error 2
    else match s.xlate p v with
      | .outside => .error 4
      | .held => .ok (overflowCore p, some v)
      | .at_ c => .ok (c, none)

/-- WAKE (R93): a posted wake message to the thread named. -/
def execWake (a : Reg) (s : State) : Result :=
  let w := s.reg a
  .next (s.unlessPending (scalars [a])
    (match s.coreTarget (bf w 18 4) with
     | .error d => s.takeFault s.curCore s.curSlot ⟨0x13, d, w, 0⟩
     | .ok (dst, held) =>
       (s.launch { s.packet s.curCore s.curSlot dst held none .wake with slot := bf w 3 0 }).done ⟨4, [a], 4⟩))

/-- BSIG (R98): advances the pc by 4; the checker takes its signature. -/
def execBsig (sig : BitVec 24) (s : State) : Result :=
  .next (s.retireTo s.curCore s.curSlot (addOffset s.cur.pc 4) ⟨4, [], 0⟩ (some sig))

end Sys2Proof.Machine
end

