-- ==== Sys2Proof/Machine/Access.lean ====
section
/-! DEFINITION. Loads, stores, acquire, release and fences (07_access R185-R199) and the vector loads and stores (06_vector R174-R177). -/

namespace Sys2Proof.Machine

/-! ### Results of loads -/

/-- A loaded value extended to 64 bits (R193). -/
def extendLoad (size : Nat) (signed : Bool) (v : Nat) : Word :=
  if signed then sextN v (8 * size) else BitVec.ofNat 64 (v % 2 ^ (8 * size))

/-- An acquiring instruction sets the thread's acquire point (R195). -/
def State.acquire (s : State) (c : CoreId) (k : Nat) : State := s.modSlot c k (fun t => { t with acq := s.tick })

/-- What the value of a reply, or of a local access at its WB, does to the thread's registers; the instruction's retirement is separate
(07_access R186, R191). -/
def State.deliver (wb : Bool) (s : State) (c : CoreId) (k : Nat) (use : ReplyUse) (v : Vec) (f : BitVec 6) : State :=
  match use with
  | .load d size signed acq =>
    let s1 := giveReg wb s c k d (extendLoad size signed v.toNat)
    if acq then s1.acquire c k else s1
  | .vload d => giveVec wb s c k d v
  | .amo d op dbl =>
    let w : Word := if dbl then v.setWidth 64 else if op = 10 then (v.setWidth 32).setWidth 64 else (v.setWidth 32).signExtend 64
    (giveReg wb s c k d w).raiseAt c k f
  | .word d acq =>
    let s1 := giveReg wb s c k d (v.setWidth 64)
    if acq then s1.acquire c k else s1
  | .status d => giveReg wb s c k d (v.setWidth 64)
  | .chain d vec => if vec then giveVec wb s c k d v else giveReg wb s c k d (v.setWidth 64)
  | .mcrd d at_ =>
    let last := (s.core c).cycle - at_
    (giveReg wb s c k d (v.setWidth 64)).modSlot c k (fun t =>
      { t with latcnt := BitVec.ofNat 64 ((bf t.latcnt 63 32 + last) % 2 ^ 32 * 2 ^ 32 + last % 2 ^ 32) })

/-- The fault of consumed poison (15_system R417). -/
def poisonFault (ga : Word) : FaultInfo := ⟨0x50, 0, ga, 0⟩

/-- The virtual GA of a physical byte; for classes 1 and 2 the physical one (log 13, DESIGN CHOICE). -/
def State.gaOf (s : State) (part : Option Nat) (a : Nat) : Word :=
  if addrClass a = 0 then BitVec.ofNat 64 (0xFFF * 2 ^ 48 + s.virtual part (homeOf a) * 2 ^ 33 + scratchOff a)
  else BitVec.ofNat 64 (addrClass a * 2 ^ 60 + 0xFFF * 2 ^ 48 + a % 2 ^ 48)

/-- A local load or store of a thread that an entry holds is cancelled; one that reaches a bank without power is BLOCKED while the bank powers up,
and completes after it (R186). -/
def State.holdAccessAt (s : State) (c : CoreId) (k a n : Nat) (use : Option ReplyUse) (data : Vec) (r : Retire) : State :=
  let x := s.core (homeOf a)
  if x.sbOverlap (scratchOff a) (scratchOff a + n) then s.cancelAt c k .scoreboard
  else (s.modCore (homeOf a) (fun x => x.startBanks (scratchOff a) n)).blockAt c k (.bank use a n data r)

/-- Likewise for the issuing thread. -/
def State.holdAccess (s : State) (a n : Nat) (use : Option ReplyUse) (data : Vec) (r : Retire) : State :=
  s.holdAccessAt s.curCore s.curSlot a n use data r

/-- A local load or store that has waited for a bank completes and retires, once every bank of it has power (R186). -/
def State.bankAccess (s : State) (c : CoreId) (k : Nat) : State :=
  match (s.slot c k).st, (s.slot c k).wait with
  | .blocked, .bank use a n data r =>
    if s.isHeld a n then s.holdAccessAt c k a n use data r
    else match use with
      | none => (s.performWrite a (bytesOf data.toNat n)).retire c k r
      | some u =>
        if s.isPoisoned a n then s.contain c k (poisonFault (s.gaOf (s.partOf c k) a))
        else (s.deliver false c k u (BitVec.ofNat 256 (s.readNat a n)) 0).retire c k r
  | _, _ => s

/-! ### Loads -/

/-- A load of size bytes at a segmented address (R185, R186, R188): local at once, remote by a request. -/
def State.loadAt (s : State) (r : Retire) (names : List Dest) (a : Word) (f : Form) (use : ReplyUse) : State :=
  s.unlessPending names
    (let c := s.curCore
     let k := s.curSlot
     let ga := s.cur.segGa a
     match s.checkAccess c k a f with
     | .error x => s.takeFault c k x
     | .ok (.self off) =>
       let pa := scratchAddr c off
       if s.isHeld pa f.size then s.holdAccess pa f.size (some use) 0 r
       else if s.isPoisoned pa f.size then s.contain c k (poisonFault ga)
       else (s.deliver true c k use (BitVec.ofNat 256 (s.readNat pa f.size)) 0).done r
     | .ok (.control h off) => s.request c k h none (.control false off 0 s.cur.level) use r
     | .ok tgt =>
       match tgt.route (s.partOf c k) ga with
       | some (dst, held, addr) => s.request c k dst held (tgt.loadBody ga addr f.size s.cur.level) use r
       | none => s.takeFault c k ⟨0x14, 0, ga, 0⟩)

/-- The form of a scalar load or store. -/
def scalarForm (size : Nat) (right : Nat) (store : Bool) : Form := ⟨size, size, [right], store, false, true, size⟩

/-- The form of LDACQ and STREL, which do not reach class 3 (15_system R412). -/
def acquireForm (size : Nat) (right : Nat) (store : Bool) : Form := { scalarForm size right store with ctlOk := false }

/-- LDx d, [a + imm] (R193). -/
def State.scalarLoad (s : State) (len : Nat) (d a : Reg) (delta : Word) (size : Nat) (signed : Bool) : Result :=
  .next (s.loadAt ⟨len, [d, a], 0⟩ (scalars [d, a]) (s.reg a + delta) (scalarForm size rightR false) (.load d size signed false))

/-- LDB. -/
def execLdb (d a : Reg) (i : BitVec 14) (s : State) : Result := s.scalarLoad 4 d a (imm14 i) 1 true

/-- LDBU. -/
def execLdbu (d a : Reg) (i : BitVec 14) (s : State) : Result := s.scalarLoad 4 d a (imm14 i) 1 false

/-- LDH. -/
def execLdh (d a : Reg) (i : BitVec 14) (s : State) : Result := s.scalarLoad 4 d a (imm14 i) 2 true

/-- LDHU. -/
def execLdhu (d a : Reg) (i : BitVec 14) (s : State) : Result := s.scalarLoad 4 d a (imm14 i) 2 false

/-- LDW. -/
def execLdw (d a : Reg) (i : BitVec 14) (s : State) : Result := s.scalarLoad 4 d a (imm14 i) 4 true

/-- LDWU. -/
def execLdwu (d a : Reg) (i : BitVec 14) (s : State) : Result := s.scalarLoad 4 d a (imm14 i) 4 false

/-- LDD. -/
def execLdd (d a : Reg) (i : BitVec 14) (s : State) : Result := s.scalarLoad 4 d a (imm14 i) 8 false

/-- LDD.K (02_encoding R44). -/
def execLddK (d a : KReg) (i : BitVec 4) (s : State) : Result :=
  s.scalarLoad 2 (kreg d) (kreg a) (BitVec.ofNat 64 (i.toNat * 8)) 8 false

/-- LDACQ (R195): zero-extended, and the acquire point is set. -/
def execLdacq (d a : Reg) (z : BitVec 2) (s : State) : Result :=
  let size := 2 ^ z.toNat
  .next (s.loadAt ⟨4, [d, a], 0⟩ (scalars [d, a]) (s.reg a) (acquireForm size rightR false) (.load d size false true))

/-! ### Stores -/

/-- A store of data at a segmented address (R186, R188, R194): local at WB, remote posted. -/
def State.storeAt (s : State) (r : Retire) (names : List Dest) (a : Word) (f : Form) (data : Vec) : State :=
  s.unlessPending names
    (let c := s.curCore
     let k := s.curSlot
     let ga := s.cur.segGa a
     match s.checkAccess c k a f with
     | .error x => s.takeFault c k x
     | .ok (.self off) =>
       let pa := scratchAddr c off
       if s.isHeld pa f.size then s.holdAccess pa f.size none data r
       else (s.storeLocal c k pa (bytesOf data.toNat f.size)).done r
     | .ok (.control h off) =>
       if s.cur.postRoom then (s.post c k h none (.control true off (data.setWidth 64) s.cur.level)).done r else s.cancel .postedFull
     | .ok tgt =>
       match tgt.route (s.partOf c k) ga with
       | some (dst, held, addr) =>
         if s.cur.postRoom then (s.post c k dst held (tgt.storeBody ga addr f.size s.cur.level data)).done r else s.cancel .postedFull
       | none => s.takeFault c k ⟨0x14, 0, ga, 0⟩)

/-- STx d, [a + imm] (R193). -/
def State.scalarStore (s : State) (len : Nat) (d a : Reg) (delta : Word) (size : Nat) : Result :=
  .next (s.storeAt ⟨len, [d, a], 0⟩ (scalars [d, a]) (s.reg a + delta) (scalarForm size rightW true) ((s.reg d).setWidth 256))

/-- STB. -/
def execStb (d a : Reg) (i : BitVec 14) (s : State) : Result := s.scalarStore 4 d a (imm14 i) 1

/-- STH. -/
def execSth (d a : Reg) (i : BitVec 14) (s : State) : Result := s.scalarStore 4 d a (imm14 i) 2

/-- STW. -/
def execStw (d a : Reg) (i : BitVec 14) (s : State) : Result := s.scalarStore 4 d a (imm14 i) 4

/-- STD. -/
def execStd (d a : Reg) (i : BitVec 14) (s : State) : Result := s.scalarStore 4 d a (imm14 i) 8

/-- STD.K (02_encoding R44). -/
def execStdK (d a : KReg) (i : BitVec 4) (s : State) : Result :=
  s.scalarStore 2 (kreg d) (kreg a) (BitVec.ofNat 64 (i.toNat * 8)) 8

/-- STREL (R196): once the thread's posted table is empty, the store is written or leaves. -/
def execStrel (d a : Reg) (z : BitVec 2) (s : State) : Result :=
  let size := 2 ^ z.toNat
  let r : Retire := ⟨4, [d, a], 0⟩
  let f := acquireForm size rightW true
  let data : Vec := (s.reg d).setWidth 256
  if s.cur.posted.isEmpty then .next (s.storeAt r (scalars [d, a]) (s.reg a) f data)
  else
    .next (s.unlessPending (scalars [d, a])
      (let c := s.curCore
       let k := s.curSlot
       let ga := s.cur.segGa (s.reg a)
       match s.checkAccess c k (s.reg a) f with
       | .error x => s.takeFault c k x
       | .ok (.self off) => s.block (.releaseStore (scratchAddr c off) size (s.reg d) r)
       | .ok tgt =>
         match tgt.route (s.partOf c k) ga with
         | some (dst, held, addr) => s.block (.release none (s.waitingPacket c k dst held (tgt.storeBody ga addr size s.cur.level data)) none r)
         | none => s.takeFault c k ⟨0x14, 0, ga, 0⟩))

/-! ### Fences -/

/-- FENCE scope (R197): retires once no posted entry has its home inside the scope. -/
def execFence (sc : BitVec 5) (s : State) : Result :=
  if s.cur.released (some sc.toNat) s.curCore then .next (s.done ⟨4, [], 0⟩)
  else .next (s.block (.fence sc.toNat ⟨4, [], 0⟩))

/-- FENCE.I (R199): retires once every range-scoreboard entry active now has retired. -/
def execFenceI (s : State) : Result :=
  let ids := (s.core s.curCore).sb.map (fun e => e.id)
  if ids.isEmpty then .next (s.done ⟨4, [], 0⟩) else .next (s.block (.fenceI ids ⟨4, [], 0⟩))

/-! ### Vector loads and stores -/

/-- The form of a VLD or VST (R175): 8-byte alignment, 32 bytes; capacity is tested on the first byte. -/
def vectorForm (right : Nat) (store : Bool) : Form := ⟨8, 32, [right], store, false, true, 1⟩

/-- Check 4 of R175: the access runs past the end of its home's scratchpad, in another package too. -/
def State.crossesCore (s : State) (ga : Word) (tgt : GaTarget) : Bool :=
  let c := s.curCore
  match tgt with
  | .self off => decide (scratchSize c < off + 32)
  | .scratch h off => decide (scratchSize h < off + 32)
  | .held _ off => decide (0x80000 < off + 32)
  | .foreign _ => decide (gaClass ga = 0 ∧ (if (s.partOf c s.curSlot).isSome then 0x80000 else scratchSize (gaCore ga)) < bf ga 32 0 + 32)
  | _ => false

/-- VLD d, [a + imm] (R174-R176). -/
def execVld (d a : Reg) (i : BitVec 14) (s : State) : Result :=
  let addr := s.reg a + imm14v i
  let names := [.vector d, .scalar a]
  match s.checkAccess s.curCore s.curSlot addr (vectorForm rightR false) with
  | .ok tgt =>
    if s.crossesCore (s.cur.segGa addr) tgt then
      .next (s.unlessPending names (s.takeFault s.curCore s.curSlot ⟨0x15, 0, s.cur.segGa addr, 0⟩))
    else .next (s.loadAt ⟨4, [d, a], 0⟩ names addr (vectorForm rightR false) (.vload d))
  | .error _ => .next (s.loadAt ⟨4, [d, a], 0⟩ names addr (vectorForm rightR false) (.vload d))

/-- VST d, [a + imm] (R174-R177): one posted message when remote. -/
def execVst (d a : Reg) (i : BitVec 14) (s : State) : Result :=
  let addr := s.reg a + imm14v i
  let names := [.vector d, .scalar a]
  match s.checkAccess s.curCore s.curSlot addr (vectorForm rightW true) with
  | .ok tgt =>
    if s.crossesCore (s.cur.segGa addr) tgt then
      .next (s.unlessPending names (s.takeFault s.curCore s.curSlot ⟨0x15, 0, s.cur.segGa addr, 0⟩))
    else .next (s.storeAt ⟨4, [d, a], 0⟩ names addr (vectorForm rightW true) (s.vec d))
  | .error _ => .next (s.storeAt ⟨4, [d, a], 0⟩ names addr (vectorForm rightW true) (s.vec d))

end Sys2Proof.Machine
end

