-- ==== Sys2Proof/Config.lean ====
section
/-! DEFINITION. What an implementation fixes and the manual leaves open: uninterpreted constants, with no body, so that nothing can be proved of their values (05_numbers R147, 06_vector R173; log 5, DESIGN CHOICE). -/

namespace Sys2Proof.Config

/-- The bits of a special-function result that the manual only bounds (within 2 ulp of the exact value, R147, R173):
function code (0 rcp, 1 rsq, 2 exp2, 3 log2, 4 sin, 5 cos, 6 tanh, 7 sigm), double precision or not, argument bits.
One fixed algorithm, so one value for each argument. -/
opaque specialFunction : Nat → Bool → BitVec 64 → BitVec 64

/-- A value the manual does not state, one for each number drawn from the free-value counter of the state. -/
opaque freeWord : Nat → BitVec 64

/-- Bytes of the parts of a core image that are device formats (15_system R424): by virtual key and offset. -/
opaque imageByte : Nat → Nat → BitVec 8

/-- Payload doublewords of a packet of the kinds for which the manual states none, and their AUX field (08_messages R213): by kind. -/
opaque packetLen : Nat → BitVec 5
opaque packetAux : Nat → BitVec 32

/-- The set of a translation in a TLB of 32 sets (07_access R207): by class, size and page number. -/
opaque tlbSet : Nat → Bool → Nat → Nat

end Sys2Proof.Config
end

