-- ==== Sys2Proof/Machine/Channel.lean ====
section
/-! DEFINITION. What reaches the bytes of HBM4E goes through the channel of its memory core (12_engines R340; 09_sync R250). -/

namespace Sys2Proof.Machine

/-- A bank of a channel. -/
def Channel.bank (h : Channel) (b : Nat) : HbmBank := h.banks.getD b HbmBank.reset

/-- Change a bank. -/
def Channel.modBank (h : Channel) (b : Nat) (f : HbmBank → HbmBank) : Channel := { h with banks := h.banks.put b (f (h.bank b)) }

/-- An access joins the waiting accesses of its channel; its memory core is one of the cores that run. -/
def State.queueAccess (s : State) (x : Access) : State :=
  (s.modCore (homeOf x.addr) (fun y => y)).modChannel (homeOf x.addr) (fun h => { h with waiting := h.waiting ++ [x] })

/-- The bank of an access has served it. -/
def State.endAccess (s : State) (x : Access) : State :=
  s.modChannel (homeOf x.addr) (fun h =>
    h.modBank (hbmBank x.addr) (fun b => { b with serving := none, lastEnd := (s.core (homeOf x.addr)).cycle }))

/-- An access to HBM4E waits in its channel, and is performed once its bank has served it, in the controller's order (R340). Any other home performs
it at once. -/
def State.throughChannel (s : State) (src : CoreId) (f : AccessFor) (a : Nat) (act : State → State) : State :=
  let x : Access := ⟨src, a, f⟩
  let h := s.channel (homeOf a)
  if addrClass a ≠ 1 then act s
  else match (h.bank (hbmBank a)).serving with
    | some (y, due) =>
      if y = x then (if due ≤ (s.core (homeOf a)).cycle then act (s.endAccess x) else s)
      else if h.waiting.contains x then s else s.queueAccess x
    | none => if h.waiting.contains x then s else s.queueAccess x

/-- An access of the carafe to bytes that lie in one 256-byte block: their row is open and its bank has had an access, as after any other access
(R340); that it waits for no other access is log 91 (DESIGN CHOICE). -/
def State.carafeAccess (s : State) (a : Nat) : State :=
  let h := s.channel (homeOf a)
  let b := h.bank (hbmBank a)
  if addrClass a = 1 ∧ h.drain = none ∧ b.serving = none ∧ b.refreshEnd = none then
    s.modChannel (homeOf a) (fun h => h.modBank (hbmBank a) (fun b => { b with row := some (hbmRow a), lastEnd := (s.core (homeOf a)).cycle }))
  else s

/-- A bank without the access in service that p picks out. -/
def HbmBank.release (b : HbmBank) (p : AccessFor → Bool) : HbmBank :=
  match b.serving with
  | some (x, _) => if p x.for_ then { b with serving := none } else b
  | none => b

/-- Accesses that serve nothing any more leave their channels. -/
def State.dropAccesses (s : State) (p : AccessFor → Bool) : State :=
  { s with channels := s.channels.map (fun e =>
      (e.1, { e.2 with waiting := e.2.waiting.filter (fun x => !p x.for_), banks := e.2.banks.map (fun b => (b.1, b.2.release p)) })) }

end Sys2Proof.Machine
end

