-- ==== Sys2Proof/Machine/Messages.lean ====
section
/-! DEFINITION. Messages, mailboxes, active messages and chained loads: the instructions (08_messages R215-R240). -/

namespace Sys2Proof.Machine

/-- The GA of a byte of a core's own scratchpad by its virtual coordinates. -/
def State.ownGa (s : State) (c : CoreId) (k : Nat) (off : Nat) : Word := virtualGa (s.virtual (s.partOf c k) c) off

/-! ### Mailboxes (R221-R227) -/

/-- A mailbox number as an index. -/
def mbIx (n : Nat) : Fin 4 := ⟨n % 4, Nat.mod_lt _ (by decide)⟩

/-- BASE, SIZE, HEAD and USED of a mailbox. -/
def Core.mbBase (x : Core) (n : Nat) : Nat := bf x.mbbase[mbIx n] 18 8 * 256
def Core.mbSize (x : Core) (n : Nat) : Nat := bf x.mbsize[mbIx n] 16 0
def Core.mbHead (x : Core) (n : Nat) : Nat := bf x.mbsize[mbIx n] 32 17
def Core.mbUsed (x : Core) (n : Nat) : Nat := bf x.mbsize[mbIx n] 49 33

/-- A mailbox changes for the instructions of its unit, which read it at their retirement (R225); MFC reads its registers as they were for the
next n cycles of issue (03_strands R71). -/
def Core.keepMail (x : Core) (n mb : Nat) : Core :=
  (x.keepCtl n (0x20 + mb % 4) x.mbbase[mbIx mb]).keepCtl n (0x24 + mb % 4) x.mbsize[mbIx mb]

/-- Set HEAD and USED. -/
def Core.setMb (x : Core) (n head used : Nat) : Core :=
  { x with mbsize := x.mbsize.set (mbIx n) (setf (setf x.mbsize[mbIx n] 32 17 head) 49 33 used) }

/-- An invalid handle (R226): reason 0 empty or timed out, 1 closed, 2 corrupt. -/
def badHandle (reason : Nat) : Word := BitVec.ofNat 64 reason

/-- The header of the record at HEAD. -/
def State.mbHeader (s : State) (c : CoreId) (n : Nat) : Word :=
  s.readWord (scratchAddr c ((s.core c).mbBase n + (s.core c).mbHead n))

/-- RSIZE of a header (R223). -/
def rsizeOf (h : Word) : Nat := bf h 15 0

/-- The tests of R227 on the header at HEAD. -/
def headerCorrupt (x : Core) (n : Nat) (h : Word) : Bool :=
  decide (bf h 17 16 ≠ 0 ∨ rsizeOf h < 16 ∨ 248 < rsizeOf h ∨ rsizeOf h % 8 ≠ 0 ∨ x.mbUsed n < rsizeOf h
    ∨ x.mbSize n < x.mbHead n + rsizeOf h)

/-- Payload doublewords of a record. -/
def recordLen (h : Word) : Nat := (rsizeOf h - 8) / 8

/-- A valid handle (R226). -/
def handleOf (x : Core) (n : Nat) (h : Word) : Word :=
  BitVec.ofNat 64 (2 ^ 63 + recordLen h % 32 * 2 ^ 58 + bf h 50 32 * 2 ^ 39 + bf h 62 51 * 2 ^ 27 + bf h 31 24 * 2 ^ 19
    + (x.mbBase n + x.mbHead n + 8) % 2 ^ 19)

/-- What MBPEEK answers: the state and the handle. A corrupt header empties the mailbox and sends a record (R227, R228), whose address doubleword
is 0 since no rule names an address for its class (log 13, DESIGN CHOICE). -/
def State.mbPeek (s : State) (c : CoreId) (k n : Nat) : State × Word :=
  let x := s.core c
  if x.mbSize n = 0 then (s, badHandle 1)
  else if x.mbUsed n = 0 then (s, badHandle 0)
  else
    let h := s.mbHeader c n
    if headerCorrupt x n h then
      ((s.modCore c (fun x => x.setMb n 0 0)).report c (s.who c k) ⟨0x23, n, 0, 0⟩, badHandle 2)
    else (s, handleOf x n h)

/-- Remove the record at HEAD, and a pad that then stands there (R229). -/
def State.mbRemove (s : State) (c : CoreId) (n rsize : Nat) : State :=
  let x := s.core c
  let s1 := s.modCore c (fun y => y.setMb n ((x.mbHead n + rsize) % x.mbSize n) (x.mbUsed n - rsize))
  let y := s1.core c
  let h := s1.mbHeader c n
  let s2 := if y.mbUsed n ≠ 0 ∧ bf h 17 16 = 1 then s1.modCore c (fun z => z.setMb n 0 (y.mbUsed n - rsizeOf h)) else s1
  if (s2.core c).mbUsed n = 0 then s2.modCore c (fun z => z.setMb n 0 0) else s2

/-- The record that an MBPOP has chosen and copied is removed (R229); an MTC that has set the mailbox anew meanwhile leaves it no such record
(log 84, DESIGN CHOICE). What the copy held back issues again. -/
def State.mbPopped (s : State) (c : CoreId) (n rsize : Nat) : State :=
  (if (s.core c).mbUsed n < rsize then s else (s.modCore c (fun x => x.keepMail 3 n)).mbRemove c n rsize).wakeFor c (fun w => w == .mailboxBusy)

/-- An MBPOP that copies has chosen a record of a mailbox and has not retired: it holds the mailbox (R229). -/
def Core.mailboxBusy (x : Core) (n : Nat) : Bool :=
  x.landing.any (fun e => match e.effect with | .pop m _ => m == n | _ => false)
    || x.slots.toList.any (fun t => match t.wait with | .popping m _ _ _ left _ _ _ => m == n && left != 0 | _ => false)

/-- The header at HEAD is held by an active range-scoreboard entry, or its bank is without power. -/
def State.mbHeld (s : State) (c : CoreId) (n : Nat) : Bool :=
  let x := s.core c
  decide (x.mbSize n ≠ 0 ∧ x.mbUsed n ≠ 0) && s.isHeld (scratchAddr c (x.mbBase n + x.mbHead n)) 8

/-- MBPEEK d, a (R228). -/
def execMbpeek (d a : Reg) (s : State) : Result :=
  let n := bf (s.reg a) 1 0
  let c := s.curCore
  .next (s.unlessPending (scalars [d, a])
    (if (s.core c).mailboxBusy n then s.cancel .mailboxBusy
     else if s.mbHeld c n then s.holdLocal (scratchAddr c ((s.core c).mbBase n + (s.core c).mbHead n)) 8
     else
       let p := s.mbPeek c s.curSlot n
       (p.1.putReg d p.2).done ⟨4, [d, a], 0⟩))

/-- An MBPOP that has chosen its record copies the next n doublewords, four in a cycle, once their banks have power (R229, R241; 10_ordering R278;
03_strands R90). After the last its handle is on its way. A poisoned piece contains its thread, and the record stays. -/
def State.popPiece (s : State) (c : CoreId) (k mb : Nat) (d : Reg) (src dst left n due : Nat) (handle : Word) (r : Retire) : State :=
  let x := s.core c
  if x.bankDown (scratchOff src) (8 * n) ∨ x.bankDown (scratchOff dst) (8 * n) then
    ((s.powerFor src (8 * n)).powerFor dst (8 * n)).blockAt c k (.popping mb d src dst left due handle r)
  else if s.isPoisoned src (8 * n) then (s.contain c k (poisonFault (s.ownGa c k (scratchOff dst)))).wakeFor c (fun w => w == .mailboxBusy)
  else
    let s1 := s.performWrite dst (s.readBytes src (8 * n))
    if left ≤ n then
      (s1.modCore c (fun y => y.addLanding k 2 (.pop mb (8 + 8 * bf handle 62 58)))).blockAt c k (.popping mb d src dst 0 (x.cycle + 5) handle r)
    else s1.blockAt c k (.popping mb d (src + 8 * n) (dst + 8 * n) (left - n) due handle r)

/-- MBPOP d, a, b (R229): a b field of 0 discards the payload. A record that is copied is removed when the instruction retires, in cycle
i + 6 + ⌈LEN / 4⌉ of R241. -/
def execMbpop (d a b : Reg) (s : State) : Result :=
  let n := bf (s.reg a) 1 0
  let c := s.curCore
  let k := s.curSlot
  let x := s.core c
  let r : Retire := ⟨4, [d, a, b], 0⟩
  let h := s.mbHeader c n
  let src := scratchAddr c (x.mbBase n + x.mbHead n + 8)
  let len := recordLen h
  .next (s.unlessPending (scalars [d, a, b])
    (if x.mailboxBusy n then s.cancel .mailboxBusy
     else if s.mbHeld c n then s.holdLocal (src - 8) 8
     else if x.mbSize n = 0 ∨ x.mbUsed n = 0 ∨ headerCorrupt x n h = true then
       let p := s.mbPeek c k n
       (p.1.putReg d p.2).done r
     else if b = 0 then (((s.modCore c (fun x => x.keepMail 5 n)).mbRemove c n (rsizeOf h)).putReg d (handleOf x n h)).done r
     else match s.checkOwn c k (s.reg b) 8 (8 * len) [rightW] 0x22 with
       | .error f => s.takeFault c k f
       | .ok dst =>
         if x.sbOverlap (scratchOff src) (scratchOff src + 8 * len) ∨ x.sbOverlap (scratchOff dst) (scratchOff dst + 8 * len) then
           s.cancel .scoreboard
         else if 4 < len ∨ s.isHeld src (8 * len) = true ∨ s.isHeld dst (8 * len) = true then
           s.popPiece c k n d src dst len (min len 4) 0 (handleOf x n h) r
         else if s.isPoisoned src (8 * len) then s.contain c k (poisonFault (s.cur.segGa (s.reg b)))
         else
           (((s.modCore c (fun y => y.addLanding k 2 (.pop n (rsizeOf h)))).performWrite dst (s.readBytes src (8 * len))).putReg d
             (handleOf x n h)).done r))

/-- MBWAIT d, a, b (R230): an empty mailbox blocks the thread; the timeout counts from EX. -/
def execMbwait (d a b : Reg) (s : State) : Result :=
  let n := bf (s.reg a) 1 0
  let c := s.curCore
  let x := s.core c
  let r : Retire := ⟨4, [d, a, b], 0⟩
  let t := bf (s.reg b) 31 0
  .next (s.unlessPending (scalars [d, a, b])
    (if x.mailboxBusy n then s.cancel .mailboxBusy
     else if x.mbSize n ≠ 0 ∧ x.mbUsed n = 0 then s.block (.mbwait n d (if t = 0 then none else some (s.now + 4 + t)) r)
     else if s.mbHeld c n then s.holdLocal (scratchAddr c (x.mbBase n + x.mbHead n)) 8
     else
       let p := s.mbPeek c s.curSlot n
       (p.1.putReg d p.2).done r))

/-! ### SEND and ACTM (R216-R218, R231) -/

/-- Where a target word leads (R216): DETAIL of class "address", or a destination and the virtual core of a held bulkhead. -/
def State.targetWord (s : State) (w : Word) : Except Nat (CoreId × Option CoreId) :=
  if s.isOwnPkg (bf w 59 48) then s.coreTarget (bf w 18 4)
  else if s.isPeer (bf w 59 48) then
    (if (s.partOf s.curCore s.curSlot).isSome ∧ 16 ≤ dieOf (bf w 18 4) then .error 2 else .ok (peerTarget (bf w 59 48) (bf w 18 4), none))
  else .error 1

/-- Which of n doublewords from a are poison. -/
def State.badWords (s : State) (a n : Nat) : List Nat := (List.range n).filter (fun i => s.isPoisoned (a + 8 * i) 8)

/-- The scope S of a release towards a destination (R231, 07_access R198): PACKAGE while the target is held. -/
def releaseScope (c dst : CoreId) (held : Option CoreId) : Nat := if held.isSome then 4 else narrowScope c dst

/-- A reply-bearing request that first waits for release within a scope (R231). -/
def State.releaseThenRequest (s : State) (c : CoreId) (k : Nat) (dst : CoreId) (held : Option CoreId) (scope : Option Nat) (body : Body)
    (use : ReplyUse) (r : Retire) : State :=
  if (s.slot c k).released scope c then s.request c k dst held body use r
  else s.blockAt c k (.release scope (s.waitingPacket c k dst held body) (some use) r)

/-- The fields of a target word that R216 names. -/
def targetFields (name : Option CoreId) (mb : Option Nat) (len : Nat) : Word :=
  BitVec.ofNat 64 (0xFFF * 2 ^ 48 + (match mb with | some m => len * 2 ^ 24 + m * 2 ^ 20 | none => 0) + name.getD 0 * 16)

/-- SEND reads the next 32 bytes of its payload, or ACTM its record (R217, R231; 10_ordering R278); after the last the packet leaves, translated as it
leaves (07_access R202). -/
def State.sendPiece (s : State) (c : CoreId) (k since : Nat) (d : Reg) (dst : CoreId) (name : Option CoreId) (mb : Option Nat) (addr left : Nat)
    (got : List Word) (bad : List Nat) (r : Retire) : State :=
  let n := min left 4
  let words := got ++ s.readWords addr n
  let marks := bad ++ (s.badWords addr n).map (fun i => got.length + i)
  if left ≤ 4 then
    let body : Body := match mb with
      | some m => .mail m words false marks
      | none => .active (words.getD 0 0) (words.getD 1 0) (words.getD 2 0) (s.slot c k).rcbptr
    match s.homeNow (s.partOf c k) name dst body with
    | some z => if mb.isSome then s.request c k z.1 z.2.1 z.2.2 (.status d) r
                else s.releaseThenRequest c k z.1 z.2.1 (some (releaseScope c z.1 z.2.1)) z.2.2 (.status d) r
    | none => s.outsideFault c k (targetFields name mb words.length)
  else s.blockAt c k (.sending since d dst name mb (addr + 32) (left - 4) words marks r)

/-- A SEND or ACTM of the core reads its payload, or waits to: the message port serves them one at a time, in the order of their MA1 (R241). -/
def Wait.sendSince (w : Wait) : Option Nat :=
  match w with
  | .sending since _ _ _ _ _ _ _ _ _ => some since
  | _ => Option.none
def Core.portBusy (x : Core) : Bool := x.slots.toList.any (fun t => t.wait.sendSince.isSome)

/-- The slot that the message port serves: the one that issued first. -/
def Core.portTurn (x : Core) : Option Nat :=
  (List.range 16).find? (fun k => match (x.slot k).wait.sendSince with
    | some n => (List.range 16).all (fun j => match (x.slot j).wait.sendSince with | some m => decide (n ≤ m) | none => true)
    | none => false)

/-- The port's work in a cycle: 32 bytes of the oldest payload. One that has waited for the port is held as a local load is, before its first
piece (R217, R241). -/
def State.portStep (s : State) (c : CoreId) : State :=
  match (s.core c).portTurn with
  | none => s
  | some k =>
    match (s.slot c k).st, (s.slot c k).wait with
    | .blocked, .sending since d dst name mb a left got bad r =>
      if got.isEmpty ∧ s.isHeld a (8 * left) = true then s.holdAt c k a (8 * left) else s.sendPiece c k since d dst name mb a left got bad r
    | _, _ => s

/-- SEND d, a, b (R217): the payload is read at 32 bytes per cycle. A record about the target word carries the word in ADDR (log 13, DESIGN CHOICE). -/
def execSend (d a b : Reg) (s : State) : Result :=
  let w := s.reg a
  let len := bf w 29 24
  let c := s.curCore
  let k := s.curSlot
  .next (s.unlessPending (scalars [d, a, b])
    (if len = 0 ∨ 30 < len then s.takeFault c k ⟨0x20, 0, w, 0⟩
     else match s.checkOwn c k (s.reg b) 8 (8 * len) [rightR] 0x21 with
       | .error f => s.takeFault c k f
       | .ok pa =>
         match s.targetWord w with
         | .error e => s.takeFault c k ⟨0x13, e, w, 0⟩
         | .ok (dst, held) =>
           if s.isHeld pa (8 * len) then s.holdLocal pa (8 * len)
           else
             let name := s.virtualName (s.partOf c k) dst held (.mail 0 [] false [])
             let r : Retire := ⟨4, [d, a, b], 0⟩
             if (s.core c).portBusy then s.block (.sending s.now d dst name (some (bf w 21 20)) pa len [] [] r)
             else if len ≤ 4 then s.request c k dst held (.mail (bf w 21 20) (s.readWords pa len) false (s.badWords pa len)) (.status d) r
             else s.sendPiece c k s.now d dst name (some (bf w 21 20)) pa len [] [] r))

/-- ACTM d, a, b (R231). The bytes of the record are sent as they stand, poison or not (log 50, DESIGN CHOICE). -/
def execActm (d a b : Reg) (s : State) : Result :=
  let w := s.reg a
  let c := s.curCore
  let k := s.curSlot
  .next (s.unlessPending (scalars [d, a, b])
    (match s.checkOwn c k (s.reg b) 8 24 [rightR] 0x21 with
     | .error f => s.takeFault c k f
     | .ok pa =>
       match s.targetWord w with
       | .error e => s.takeFault c k ⟨0x13, e, w, 0⟩
       | .ok (dst, held) =>
         if s.isHeld pa 24 then s.holdLocal pa 24
         else if (s.core c).portBusy then
           s.block (.sending s.now d dst (s.virtualName (s.partOf c k) dst held (.active 0 0 0 0)) none pa 3 [] [] ⟨4, [d, a, b], 0⟩)
         else s.releaseThenRequest c k dst held (some (releaseScope c dst held))
           (.active (s.readWord pa) (s.readWord (pa + 8)) (s.readWord (pa + 16)) s.cur.rcbptr) (.status d) ⟨4, [d, a, b], 0⟩))

/-! ### Chained loads (R234-R240) -/

/-- CHST from step and cause, with TC and TL of a translation fault (R236). -/
def chstWord (step cause tc tl : Nat) : Word := BitVec.ofNat 64 (step % 8 + cause % 16 * 16 + tc % 16 * 2 ^ 16 + tl % 8 * 2 ^ 20)

/-- The steps of a descriptor. -/
def chainSteps : List Word → List ChainStepWord
  | o :: m :: rest => ⟨o, m⟩ :: chainSteps rest
  | _ => []

/-- An abort at the issuing core (R235): d receives the pointer, CHST the cause, and the instruction retires. -/
def State.chainAbort (s : State) (d : Reg) (vec : Bool) (ga : Word) (cause : Nat) (r : Retire) : State :=
  ((s.deliver true s.curCore s.curSlot (.chain d vec) (ga.setWidth 256) 0).modCur (fun t => { t with chst := chstWord 0 cause 0 0 })).done r

/-- What the check of a chain's first pointer gives (R235). -/
inductive ChainStart where
  | fault (f : FaultInfo)
  | abort (cause : Nat)
  | to (tgt : GaTarget)

/-- The check of a chain's first pointer: orders 1 to 4 and 6 of R185 as an 8-byte load, then the aborts for another package and for class 3. -/
def State.chainStart (s : State) (c : CoreId) (k : Nat) (a : Word) : ChainStart :=
  let t := s.slot c k
  let ga := t.segGa a
  match t.rangeFault a ⟨8, 8, [rightR], false, true, true, 8⟩ with
  | some f => .fault f
  | none =>
    if bit (t.segWord a) rightR = false then .fault ⟨0x12, bf a 63 61, a, 0⟩
    else match s.gaTarget c (s.partOf c k) ga 8 with
      | .bad d => .fault ⟨0x13, d, ga, 0⟩
      | tgt =>
        if gaClass ga = 3 ∧ t.level = 0 then .fault ⟨0x03, 0, ga, ga⟩
        else match tgt with
          | .foreign _ => .abort 6
          | .control _ _ => .abort 2
          | _ => .to tgt

/-- CHLD and CHLDV (R235, R240). The bytes of a descriptor are used as they stand, poison or not (log 50, DESIGN CHOICE). -/
def State.chainLoad (s : State) (d a b : Reg) (vec : Bool) : State :=
  let c := s.curCore
  let k := s.curSlot
  let r : Retire := ⟨4, [d, a, b], 0⟩
  let names := [if vec then Dest.vector d else .scalar d, .scalar a, .scalar b]
  s.unlessPending names
    (match s.checkOwn c k (s.reg b) 8 8 [rightR] 0x21 with
     | .error f => s.takeFault c k f
     | .ok pb =>
       if s.isHeld pb 8 then s.holdLocal pb 8
       else
         let n := bf (s.readWord pb) 2 0
         if n = 0 ∨ n = 7 then s.takeFault c k ⟨0x20, 0, s.reg b, 0⟩
         else match s.checkOwn c k (s.reg b) 8 (8 + 16 * n) [rightR] 0x21 with
           | .error f => s.takeFault c k f
           | .ok _ =>
             if s.isHeld pb (8 + 16 * n) then s.holdLocal pb (8 + 16 * n)
             else
               let steps := chainSteps (s.readWords (pb + 8) (2 * n))
               let addr := s.reg a + (match steps with | st :: _ => st.off | [] => 0)
               let ga := s.cur.segGa addr
               match s.chainStart c k addr with
               | .fault f => s.takeFault c k f
               | .abort cause => s.chainAbort d vec ga cause r
               | .to (.mem cls va) =>
                 s.withTranslation ga cls va 0 (fun s pa => s.request c k (homeOf pa) none (.chain ga pa 0 steps vec c k) (.chain d vec) r)
               | .to (.self off) =>
                 s.request c k c none (.chain ga (scratchAddr c off) 0 steps vec c k) (.chain d vec) r
               | .to tgt =>
                 match tgt.route (s.partOf c k) ga with
                 | some (dst, held, pa) => s.request c k dst held (.chain ga pa 0 steps vec c k) (.chain d vec) r
                 | none => s.takeFault c k ⟨0x13, 0, ga, 0⟩)

/-- CHLD d, a, b (R235). -/
def execChld (d a b : Reg) (s : State) : Result := .next (s.chainLoad d a b false)

/-- CHLDV d, a, b (R240). -/
def execChldv (d a b : Reg) (s : State) : Result := .next (s.chainLoad d a b true)

end Sys2Proof.Machine
end

