-- ==== Sys2Proof/Machine/Numbers.lean ====
section
/-! DEFINITION. Number formats, exact values and rounding (05_numbers R124-R127, R134-R137, R140-R147, R150-R155).
Operands are taken to exact values, computed exactly, and rounded once. -/

namespace Sys2Proof.Machine

/-! ### Formats (R124, R125) -/

/-- A floating-point format: width, fraction bits, bias, largest finite magnitude as maxMan * 2^maxExp, whether it has infinities,
and its canonical NaN. -/
structure Fmt where
  width : Nat
  frac : Nat
  bias : Nat
  maxMan : Nat
  maxExp : Int
  hasInf : Bool
  canon : Nat
deriving DecidableEq, Repr

def fp64 : Fmt := ⟨64, 52, 1023, 2 ^ 53 - 1, 971, true, 0x7FF8000000000000⟩
def fp32 : Fmt := ⟨32, 23, 127, 2 ^ 24 - 1, 104, true, 0x7FC00000⟩
def fp16 : Fmt := ⟨16, 10, 15, 2 ^ 11 - 1, 5, true, 0x7E00⟩
def bf16 : Fmt := ⟨16, 7, 127, 2 ^ 8 - 1, 120, true, 0x7FC0⟩
def fpE4m3 : Fmt := ⟨8, 3, 7, 14, 5, false, 0x7F⟩
def fpE5m2 : Fmt := ⟨8, 2, 15, 7, 13, true, 0x7E⟩
def fp4 : Fmt := ⟨4, 1, 1, 3, 1, false, 0⟩

/-- Exponent field width, all-ones exponent and least normal exponent of a format. -/
def Fmt.expBits (f : Fmt) : Nat := f.width - 1 - f.frac
def Fmt.emax (f : Fmt) : Nat := 2 ^ f.expBits - 1
def Fmt.emin (f : Fmt) : Int := 1 - (f.bias : Int)

/-- The exact value of an encoding: a NaN (signalling or not), an infinity, or (-1)^neg * man * 2^exp. -/
inductive Num where
  | nan (signalling : Bool)
  | inf (neg : Bool)
  | fin (neg : Bool) (man : Nat) (exp : Int)
deriving DecidableEq, Repr

/-- Sign bit of an encoding. -/
def Fmt.signOf (f : Fmt) (x : Nat) : Bool := decide (x / 2 ^ (f.width - 1) % 2 = 1)

/-- The value of an encoding (R124-R126). E4M3 has one NaN and no infinity; FP4 has neither. -/
def Fmt.value (f : Fmt) (x : Nat) : Num :=
  let neg := f.signOf x
  let e := x / 2 ^ f.frac % 2 ^ f.expBits
  let m := x % 2 ^ f.frac
  if f.hasInf && e == f.emax then
    (if m = 0 then .inf neg else .nan (decide (f.width ≠ 8) && decide (m / 2 ^ (f.frac - 1) % 2 = 0)))
  else if f.width = 8 && !f.hasInf && e == f.emax && m == 7 then .nan false
  else if e = 0 then .fin neg m (f.emin - f.frac)
  else .fin neg (2 ^ f.frac + m) ((e : Int) - f.bias - f.frac)

/-- An encoding from its sign and magnitude bits. -/
def Fmt.withSign (f : Fmt) (neg : Bool) (mag : Nat) : Nat := mag + neg.toNat * 2 ^ (f.width - 1)

/-- Infinity, the largest finite value and zero, with a sign. -/
def Fmt.infBits (f : Fmt) (neg : Bool) : Nat := f.withSign neg (f.emax * 2 ^ f.frac)
def Fmt.maxBits (f : Fmt) (neg : Bool) : Nat :=
  f.withSign neg (if f.hasInf then f.emax * 2 ^ f.frac - 1 else if f.width = 8 then 0x7E else 7)
def Fmt.zeroBits (f : Fmt) (neg : Bool) : Nat := f.withSign neg 0

/-- Shift left by an integer amount that may be negative, dropping bits. -/
def shiftInt (n : Nat) (k : Int) : Nat := if 0 ≤ k then n * 2 ^ k.toNat else n / 2 ^ (-k).toNat

/-- a * 2^i > b * 2^j. -/
def gtScaled (a : Nat) (i : Int) (b : Nat) (j : Int) : Bool :=
  let m := min i j
  decide (b * 2 ^ (j - m).toNat < a * 2 ^ (i - m).toNat)

/-- The encoding of q * 2^e, for q at most 2^(frac + 1) and e a quantum of the format. -/
def Fmt.encodeMag (f : Fmt) (q : Nat) (e : Int) : Nat :=
  let carry := decide (2 ^ (f.frac + 1) ≤ q)
  let q := if carry then q / 2 else q
  let e := if carry then e + 1 else e
  if q < 2 ^ f.frac then q else (e + f.frac + f.bias).toNat * 2 ^ f.frac + (q - 2 ^ f.frac)

/-! ### Rounding (R134, R135, R151, R154) -/

/-- A rounding: the four modes of FPCTL, or stochastic with the low 32 bits of h; and whether overflow saturates. -/
inductive Rounding where
  | rne | rz | rdn | rup
  | sr (h : Nat)
deriving DecidableEq, Repr

/-- The mode of FPCTL.RM (R129). -/
def roundingOf (rm : Nat) : Rounding :=
  match rm with
  | 0 => .rne
  | 1 => .rz
  | 2 => .rdn
  | _ => .rup

/-- Round man * 2^-k (with a non-zero rest below when sticky) to an integer: the integer and whether it is inexact. -/
def roundShift (r : Rounding) (neg : Bool) (man : Nat) (sticky : Bool) (k : Int) : Nat × Bool :=
  if k ≤ 0 then (man * 2 ^ (-k).toNat, sticky)
  else
    let d := 2 ^ k.toNat
    let q := man / d
    let rest := man % d
    let inexact := decide (rest ≠ 0) || sticky
    let up := match r with
      | .rne => decide (d < 2 * rest) || (decide (2 * rest = d) && (sticky || decide (q % 2 = 1)))
      | .rz => false
      | .rdn => neg && inexact
      | .rup => !neg && inexact
      | .sr h => decide (2 ^ 32 ≤ rest * 2 ^ 32 / d + h % 2 ^ 32)
    (if up then q + 1 else q, inexact)

/-- The result of an overflow (R135, R151). -/
def Fmt.overflow (f : Fmt) (r : Rounding) (sat neg : Bool) : Nat :=
  if sat || decide (f.width = 4) then f.maxBits neg
  else if f.width = 8 then (if f.hasInf then f.infBits neg else f.canon)
  else match r with
    | .rz => f.maxBits neg
    | .rdn => if neg then f.infBits neg else f.maxBits neg
    | .rup => if neg then f.maxBits neg else f.infBits neg
    | _ => f.infBits neg

/-- Round a finite value to a format (R134; R154 under SR): the encoding and the flags. -/
def Fmt.round (f : Fmt) (r : Rounding) (sat neg : Bool) (man : Nat) (exp : Int) (sticky : Bool) : Nat × Flags :=
  if man = 0 ∧ sticky = false then (f.zeroBits neg, 0)
  else
    let top : Int := (Nat.log2 man : Int) + exp
    let unbounded := top - f.frac
    let quantum := max unbounded (f.emin - f.frac)
    let q1 := roundShift r neg man sticky (unbounded - exp)
    let q2 := roundShift r neg man sticky (quantum - exp)
    let overDraw := match r with
      | .sr _ => gtScaled q2.1 quantum f.maxMan f.maxExp
      | _ => gtScaled q1.1 unbounded f.maxMan f.maxExp
    if overDraw then (f.overflow r sat neg, flagOF ||| flagNX)
    else
      let tiny := match r with
        | .sr _ => gtScaled 1 f.emin q2.1 quantum
        | _ => gtScaled 1 f.emin q1.1 unbounded
      (f.withSign neg (f.encodeMag q2.1 quantum), flagIf q2.2 flagNX ||| flagIf (q2.2 && tiny) flagUF)

/-- The canonical NaN with a flag. -/
def Fmt.nanWith (f : Fmt) (fl : Flags) : Nat × Flags := (f.canon, fl)

/-! ### Exact sums and products (R136, R137, R149) -/

/-- Whether a value is a signalling NaN. -/
def Num.isSignalling : Num → Bool
  | .nan b => b
  | _ => false

/-- Whether a value is a NaN. -/
def Num.isNan : Num → Bool
  | .nan _ => true
  | _ => false

/-- Negate a value. -/
def Num.negate : Num → Num
  | .nan b => .nan b
  | .inf n => .inf (!n)
  | .fin n m e => .fin (!n) m e

/-- The exact product, and whether it is 0 times infinity. -/
def Num.mul (a b : Num) : Num × Bool :=
  match a, b with
  | .nan x, y => (.nan (x || y.isSignalling), false)
  | x, .nan y => (.nan (x.isSignalling || y), false)
  | .inf n, .inf k => (.inf (n != k), false)
  | .inf n, .fin k m _ => if m = 0 then (.nan false, true) else (.inf (n != k), false)
  | .fin n m _, .inf k => if m = 0 then (.nan false, true) else (.inf (n != k), false)
  | .fin n m e, .fin k m' e' => (.fin (n != k) (m * m') (e + e'), false)

/-- The least exponent of the finite terms. -/
def minExp : List Num → Int
  | [] => 0
  | [.fin _ _ e] => e
  | .fin _ _ e :: rest => min e (minExp rest)
  | _ :: rest => minExp rest

/-- The exact sum of finite terms in units of 2^lo. -/
def sumFin (lo : Int) : List Num → Int
  | [] => 0
  | .fin n m e :: rest => (if n then -((m * 2 ^ (e - lo).toNat : Nat) : Int) else ((m * 2 ^ (e - lo).toNat : Nat) : Int)) + sumFin lo rest
  | _ :: rest => sumFin lo rest

/-- Some term is an infinity with this sign. -/
def anyInf (neg : Bool) (ts : List Num) : Bool := ts.any (fun t => match t with | .inf n => n == neg | _ => false)

/-- Every term is a zero with this sign. -/
def allZero (neg : Bool) (ts : List Num) : Bool :=
  ts.all (fun t => match t with | .fin n m _ => n == neg && m == 0 | _ => false)

/-- The rounded exact sum of terms: NaNs and opposite infinities give the canonical NaN (R136); an exact zero is +0, or -0 under
RDN, unless every term is a zero of one sign (R137, R149). `invalid` says that a product was 0 times infinity. -/
def Fmt.sum (f : Fmt) (r : Rounding) (ts : List Num) (invalid : Bool) : Nat × Flags :=
  if invalid then f.nanWith flagNV
  else if ts.any Num.isNan then f.nanWith (flagIf (ts.any Num.isSignalling) flagNV)
  else if anyInf false ts && anyInf true ts then f.nanWith flagNV
  else if anyInf false ts then (f.infBits false, 0)
  else if anyInf true ts then (f.infBits true, 0)
  else
    let lo := minExp ts
    let v := sumFin lo ts
    if v = 0 then (f.zeroBits (allZero true ts || (decide (r = .rdn) && !allZero false ts)), 0)
    else f.round r false (decide (v < 0)) v.natAbs lo false

/-- Addition (R139). -/
def Fmt.add (f : Fmt) (r : Rounding) (x y : Nat) : Nat × Flags := f.sum r [f.value x, f.value y] false

/-- Subtraction. -/
def Fmt.sub (f : Fmt) (r : Rounding) (x y : Nat) : Nat × Flags := f.sum r [f.value x, (f.value y).negate] false

/-- Multiplication. -/
def Fmt.mul (f : Fmt) (r : Rounding) (x y : Nat) : Nat × Flags :=
  match (f.value x).mul (f.value y) with
  | (_, true) => f.nanWith flagNV
  | (.nan sig, _) => f.nanWith (flagIf sig flagNV)
  | (.inf n, _) => (f.infBits n, 0)
  | (.fin n m e, _) => f.round r false n m e false

/-- round(±z ± x × y), one rounding (R149): `nz` negates z, `np` the product. -/
def Fmt.fma (f : Fmt) (r : Rounding) (z x y : Nat) (nz np : Bool) : Nat × Flags :=
  let p := (f.value x).mul (f.value y)
  f.sum r [if nz then (f.value z).negate else f.value z, if np then p.1.negate else p.1] p.2

/-- The rounded quotient of two finite non-zero values. -/
def Fmt.quotient (f : Fmt) (r : Rounding) (neg : Bool) (m : Nat) (e : Int) (m' : Nat) (e' : Int) : Nat × Flags :=
  let sh := f.frac + 4 + Nat.log2 m' + 1
  let n := m * 2 ^ sh
  f.round r false neg (n / m') (e - e' - sh) (decide (n % m' ≠ 0))

/-- Division (R136, R137, R139). -/
def Fmt.div (f : Fmt) (r : Rounding) (x y : Nat) : Nat × Flags :=
  match f.value x, f.value y with
  | .nan a, b => f.nanWith (flagIf (a || b.isSignalling) flagNV)
  | a, .nan b => f.nanWith (flagIf (a.isSignalling || b) flagNV)
  | .inf _, .inf _ => f.nanWith flagNV
  | .inf n, .fin k _ _ => (f.infBits (n != k), 0)
  | .fin n _ _, .inf k => (f.zeroBits (n != k), 0)
  | .fin n m e, .fin k m' e' =>
    if m' = 0 then (if m = 0 then f.nanWith flagNV else (f.infBits (n != k), flagDZ))
    else if m = 0 then (f.zeroBits (n != k), 0)
    else f.quotient r (n != k) m e m' e'

/-- The integer square root, from the bit b downward. -/
def isqrtFrom (n : Nat) : (b : Nat) → (root : Nat) → Nat
  | 0, root => root
  | b + 1, root =>
    let t := root + 2 ^ b
    if t * t ≤ n then isqrtFrom n b t else isqrtFrom n b root

/-- The integer square root of n. -/
def isqrt (n : Nat) : Nat := isqrtFrom n (Nat.log2 n / 2 + 1) 0

/-- Square root. -/
def Fmt.sqrt (f : Fmt) (r : Rounding) (x : Nat) : Nat × Flags :=
  match f.value x with
  | .nan b => f.nanWith (flagIf b flagNV)
  | .inf n => if n then f.nanWith flagNV else (f.infBits false, 0)
  | .fin n m e =>
    if m = 0 then (f.zeroBits n, 0)
    else if n then f.nanWith flagNV
    else
      let sh := 2 * (f.frac + 4) + (e % 2).toNat
      let v := m * 2 ^ sh
      let q := isqrt v
      f.round r false false q ((e - sh) / 2) (decide (q * q ≠ v))

/-! ### Comparison, minimum and maximum (R140, R141) -/

/-- x < y for values that are no NaN; zeros are equal. -/
def Num.lt (a b : Num) : Bool :=
  match a, b with
  | .nan _, _ => false
  | _, .nan _ => false
  | .inf n, .inf k => n && !k
  | .inf n, .fin _ _ _ => n
  | .fin _ _ _, .inf k => !k
  | .fin n m e, .fin k m' e' =>
    let lo := min e e'
    decide (sumFin lo [.fin n m e] < sumFin lo [.fin k m' e'])

/-- x = y for values that are no NaN. -/
def Num.eq (a b : Num) : Bool :=
  match a, b with
  | .nan _, _ => false
  | _, .nan _ => false
  | x, y => !x.lt y && !y.lt x

/-- FEQ, FLT, FLE by code 0, 1, 2: the truth and the flags (R141). -/
def Fmt.compare (f : Fmt) (code x y : Nat) : Bool × Flags :=
  let a := f.value x
  let b := f.value y
  let sig := a.isSignalling || b.isSignalling
  let nan := a.isNan || b.isNan
  match code with
  | 0 => (a.eq b, flagIf sig flagNV)
  | 1 => (a.lt b, flagIf nan flagNV)
  | _ => (!nan && !b.lt a, flagIf nan flagNV)

/-- FMIN and FMAX (R140): -0 is less than +0; the operand is copied bit for bit. -/
def Fmt.minmax (f : Fmt) (wantMax : Bool) (x y : Nat) : Nat × Flags :=
  let a := f.value x
  let b := f.value y
  let fl := flagIf (a.isSignalling || b.isSignalling) flagNV
  match a.isNan, b.isNan with
  | true, true => (f.canon, fl)
  | true, false => (y, fl)
  | false, true => (x, fl)
  | false, false =>
    let less := a.lt b || (a.eq b && f.signOf x && !f.signOf y)
    (if less != wantMax then x else y, fl)

/-! ### Class word and sign (R142, R143) -/

/-- The class word of R142. -/
def Fmt.classWord (f : Fmt) (x : Nat) : Word :=
  let sign := (f.signOf x).toNat
  match f.value x with
  | .nan sig => BitVec.ofNat 64 (sign + (if sig then 5 else 4) * 2 + (if x = f.canon then 32 else 0))
  | .inf _ => BitVec.ofNat 64 (sign + 3 * 2)
  | .fin _ m e =>
    if m = 0 then BitVec.ofNat 64 (sign + 16)
    else
      let top : Int := (Nat.log2 m : Int) + e
      let whole := decide (0 ≤ e) || decide (m % 2 ^ (-e).toNat = 0)
      BitVec.ofNat 64 (sign + (if m < 2 ^ f.frac then 1 else 2) * 2 + whole.toNat * 16
        + (top % 65536).toNat * 2 ^ 16)

/-- FSGNJ and FSGNJN. -/
def Fmt.signInject (f : Fmt) (x y : Nat) (invert : Bool) : Nat :=
  x % 2 ^ (f.width - 1) + (f.signOf y != invert).toNat * 2 ^ (f.width - 1)

/-! ### Conversions (R144-R146, R150, R151) -/

/-- A value rounded to an integer, and whether that is inexact. -/
def roundToInt (r : Rounding) (neg : Bool) (man : Nat) (exp : Int) : Int × Bool :=
  let q := roundShift r neg man false (-exp)
  (if neg then -(q.1 : Int) else q.1, q.2)

/-- A value to an integer in [lo, hi], saturating (R144). -/
def Num.toInteger (v : Num) (r : Rounding) (lo hi : Int) : Int × Flags :=
  match v with
  | .nan _ => (0, flagNV)
  | .inf n => (if n then lo else hi, flagNV)
  | .fin n m e =>
    let q := roundToInt r n m e
    if hi < q.1 then (hi, flagNV) else if q.1 < lo then (lo, flagNV) else (q.1, flagIf q.2 flagNX)

/-- An exact integer as a value. -/
def Num.ofInt (i : Int) : Num := .fin (decide (i < 0)) i.natAbs 0

/-- A value to a format (R150, R151): `sat` for SATRNE and SATSR. -/
def Fmt.ofNum (f : Fmt) (r : Rounding) (sat : Bool) (v : Num) : Nat × Flags :=
  match v with
  | .nan sig =>
    if f.width = 4 then (0, flagNV) else (f.canon, flagIf sig flagNV)
  | .inf n =>
    if f.width = 4 then (f.maxBits n, flagOF ||| flagNX)
    else if sat then (f.maxBits n, flagOF ||| flagNX)
    else if f.hasInf then (f.infBits n, 0)
    else (f.canon, flagNV)
  | .fin n m e => f.round r sat n m e false

/-! ### Stochastic words (R152, R153) -/

/-- The hash of a conversion before its last step (R153). -/
def stochasticBase (seed : Word) (vtid : Nat) (count : Word) : Word :=
  let h := mix (seed ^^^ 0x6A5D39E1C2B8F417#64)
  let h := mix (h ^^^ BitVec.ofNat 64 (vtid % 2 ^ 19))
  mix (h ^^^ count)

/-- The random word for element e of a vector (R153). -/
def stochasticWord (seed : Word) (vtid : Nat) (count : Word) (e : Nat) : Word :=
  mix (stochasticBase seed vtid count ^^^ BitVec.ofNat 64 (e % 64))

/-- The rounding of a conversion's fn5 (R48): 0 RNE, 1 RZ, 2 RDN, 3 RUP, 4 SR, 5 SATRNE, 6 SATSR, with the element's word. -/
def conversionRounding (rnd : Nat) (h : Word) : Rounding × Bool :=
  match rnd with
  | 0 => (.rne, false)
  | 1 => (.rz, false)
  | 2 => (.rdn, false)
  | 3 => (.rup, false)
  | 4 => (.sr h.toNat, false)
  | 5 => (.rne, true)
  | _ => (.sr h.toNat, true)

end Sys2Proof.Machine
end

