-- ==== Sys2Proof/Machine/Sync.lean ====
section
/-! DEFINITION. Atomics, drip logs, barriers, timelines and tickets (09_sync R244-R268). -/

namespace Sys2Proof.Machine

/-! ### Atomic read-modify-write (R244-R249) -/

/-- The lesser or greater of two w-bit values, signed. -/
def signedPick (w x y : Nat) (wantMax : Bool) : Nat :=
  if decide (sintN x w < sintN y w) != wantMax then x else y

/-- The new value of an AMO of w bits (R248), and the flags of AMOFADD (R249). -/
def amoNew (op w old x c : Nat) : Nat × Flags :=
  match op with
  | 0 => ((old + x) % 2 ^ w, 0)
  | 1 => (old &&& x, 0)
  | 2 => (old ||| x, 0)
  | 3 => (old ^^^ x, 0)
  | 4 => (signedPick w old x false, 0)
  | 5 => (signedPick w old x true, 0)
  | 6 => (min old x, 0)
  | 7 => (max old x, 0)
  | 8 => (x, 0)
  | 9 => (if old = c then x else old, 0)
  | _ => (if w = 32 then fp32 else fp64).add .rne old x

/-- Bytes of an AMO. -/
def amoSize (dbl : Bool) : Nat := if dbl then 8 else 4

/-- Perform an atomic at its home: the state, the old value and the flags. The location is written even when unchanged (R248). -/
def State.performAtomic (s : State) (op : Nat) (dbl : Bool) (addr : Nat) (x c : Word) : State × Nat × Flags :=
  let n := amoSize dbl
  let old := s.readNat addr n
  let v := amoNew op (8 * n) old (x.toNat % 2 ^ (8 * n)) (c.toNat % 2 ^ (8 * n))
  (s.writeNat addr n v.1, old, v.2)

/-- The form of R244: right A; classes 1 and 2 on memory and gateway cores only; class 3 is an address fault. -/
def atomicForm (c : CoreId) (size : Nat) : Form := ⟨size, size, [rightA], false, !isCompute c, false, size⟩

/-- The fault of a poisoned update (R247). -/
def poisonedUpdate (ga : Word) : FaultInfo := ⟨0x28, 0, ga, 0⟩

/-- An atomic of the issuing thread (R245, R246, R248): local at MA1, otherwise a request, or posted when d is p0. -/
def State.amo (s : State) (op : Nat) (d a b : Reg) (size : BitVec 1) : State :=
  let c := s.curCore
  let k := s.curSlot
  let dbl := decide (size = 1)
  let n := amoSize dbl
  let x := s.reg b
  let cmp : Word := if d = 0 then 0 else s.reg d
  let r : Retire := ⟨4, [d, a, b], 0⟩
  let ga := s.cur.segGa (s.reg a)
  let send := fun (s : State) (dst : CoreId) (held : Option CoreId) (addr : Nat) =>
    if d = 0 then (if s.cur.postRoom then (s.post c k dst held (.atomic op dbl addr x cmp)).done r else s.cancel .postedFull)
    else s.request c k dst held (.atomic op dbl addr x cmp) (.amo d op dbl) r
  s.unlessPending (scalars [d, a, b])
    (match s.checkAccess c k (s.reg a) (atomicForm c n) with
     | .error f => s.takeFault c k f
     | .ok (.self off) =>
       let pa := scratchAddr c off
       if s.isHeld pa n then s.holdLocal pa n
       else if s.isPoisoned pa n then
         (if d = 0 then (s.report c (s.who c k) (poisonedUpdate ga)).done r else s.contain c k (poisonFault ga))
       else
         let v := s.performAtomic op dbl pa x cmp
         if d = 0 then v.1.done r else (v.1.deliver true c k (.amo d op dbl) (BitVec.ofNat 256 v.2.1) (if op = 10 then v.2.2 else 0)).done r
     | .ok (.mem cls va) => s.withTranslation ga cls va 2 (fun s pa => send s (homeOf pa) none pa)
     | .ok tgt =>
       match tgt.route (s.partOf c k) ga with
       | some (dst, held, addr) => send s dst held addr
       | none => s.takeFault c k ⟨0x13, 0, ga, 0⟩)

/-- AMOADD (R248). -/
def execAmoadd (d a b : Reg) (z : BitVec 1) (s : State) : Result := .next (s.amo 0 d a b z)

/-- AMOAND (R248). -/
def execAmoand (d a b : Reg) (z : BitVec 1) (s : State) : Result := .next (s.amo 1 d a b z)

/-- AMOOR (R248). -/
def execAmoor (d a b : Reg) (z : BitVec 1) (s : State) : Result := .next (s.amo 2 d a b z)

/-- AMOXOR (R248). -/
def execAmoxor (d a b : Reg) (z : BitVec 1) (s : State) : Result := .next (s.amo 3 d a b z)

/-- AMOMIN (R248). -/
def execAmomin (d a b : Reg) (z : BitVec 1) (s : State) : Result := .next (s.amo 4 d a b z)

/-- AMOMAX (R248). -/
def execAmomax (d a b : Reg) (z : BitVec 1) (s : State) : Result := .next (s.amo 5 d a b z)

/-- AMOMINU (R248). -/
def execAmominu (d a b : Reg) (z : BitVec 1) (s : State) : Result := .next (s.amo 6 d a b z)

/-- AMOMAXU (R248). -/
def execAmomaxu (d a b : Reg) (z : BitVec 1) (s : State) : Result := .next (s.amo 7 d a b z)

/-- AMOSWAP (R248). -/
def execAmoswap (d a b : Reg) (z : BitVec 1) (s : State) : Result := .next (s.amo 8 d a b z)

/-- AMOCAS (R248). -/
def execAmocas (d a b : Reg) (z : BitVec 1) (s : State) : Result := .next (s.amo 9 d a b z)

/-- AMOFADD (R248). -/
def execAmofadd (d a b : Reg) (z : BitVec 1) (s : State) : Result := .next (s.amo 10 d a b z)

/-! ### Drip logs (R251-R258) -/

/-- Fields of LOGSIZE (R252). -/
def logOvf (w : Word) : Bool := bit w 63
def logSorted (w : Word) : Bool := bit w 62
def logNext (w : Word) : Nat := bf w 59 48
def logCount (w : Word) : Nat := bf w 44 33
def logSize (w : Word) : Nat := bf w 16 0

/-- BASE of the log area (R251). -/
def Core.logBase (x : Core) : Nat := bf x.logbase 18 5 * 32

/-- Physical address of record i of a core's log area. -/
def State.logAddr (s : State) (c : CoreId) (i : Nat) : Nat := scratchAddr c ((s.core c).logBase + 32 * i)

/-- A LOGSEAL of the core is between its start and its retirement (R259). -/
def Core.sealing (x : Core) : Bool :=
  x.slots.toList.any (fun t => match t.st, t.wait with | .blocked, .seal _ _ _ _ _ _ _ => true | _, _ => false)

/-- The home refuses a record (R256). -/
def Core.logRefuses (x : Core) : Bool :=
  let w := x.logsize
  decide (logSize w = 0 ∨ 32 * logCount w = logSize w ∨ logNext w ≠ 0) || logSorted w || x.sealing

/-- The home appends a record, or refuses it and sets OVF (R256). -/
def State.appendLog (s : State) (c : CoreId) (rec : List Word) : State × Bool :=
  let w := (s.core c).logsize
  if (s.core c).logRefuses then
    (s.modCore c (fun x => { x with logsize := setf x.logsize 63 63 1 }), false)
  else
    ((s.writeWords (s.logAddr c (logCount w)) rec).modCore c (fun x => { x with logsize := setf x.logsize 44 33 (logCount w + 1) }), true)

/-- Bytes of a merge operation's target (R254). -/
def mergeSize (op : Nat) : Nat := if op = 8 then 4 else 8

/-- The record of R255. -/
def logRecord (off op : Nat) (seq : Word) (vtid pkg : Nat) (v : Word) : List Word :=
  [BitVec.ofNat 64 (off % 2 ^ 19 + op % 32 * 2 ^ 19 + bf seq 31 0 * 2 ^ 32),
   BitVec.ofNat 64 (vtid % 2 ^ 19 + pkg % 2 ^ 12 * 2 ^ 19), v, 0]

/-- The record of a refused append. -/
def logRefusedInfo (ga : Word) : FaultInfo := ⟨0x29, 0, ga, 0⟩

/-- The check of an instruction whose GA must lie in class 0 on every kind of core (R254, 13_tasks R349): another class faults with
"no load path" once orders 1 to 4 have passed. -/
def State.checkScratch (s : State) (c : CoreId) (k : Nat) (a : Word) (f : Form) : Except FaultInfo GaTarget :=
  let ga := (s.slot c k).segGa a
  match s.checkAccess c k a { f with memOk := true, ctlOk := false } with
  | .error x =>
    (match s.gaTarget c (s.partOf c k) ga f.cap with
     | .bad _ => .error x
     | _ => if x.cls = 0x13 ∧ gaClass ga = 3 then .error ⟨0x14, 0, ga, 0⟩ else .error x)
  | .ok tgt => if gaClass ga = 0 then .ok tgt else .error ⟨0x14, 0, ga, 0⟩

/-- LOGAPP op, [a], b (R254, R256): LOGSEQ advances when it retires. -/
def execLogapp (o a b : Reg) (s : State) : Result :=
  let c := s.curCore
  let k := s.curSlot
  let op := o.toNat
  let n := mergeSize op
  let r : Retire := ⟨4, [a, b], 0⟩
  let ga := s.cur.segGa (s.reg a)
  let rec_ := fun (off : Nat) => logRecord off op s.cur.logseq (s.vtid c k) s.pkgNo (s.reg b)
  let count := fun (s : State) => s.modCur (fun t => { t with logseq := BitVec.ofNat 64 ((bf t.logseq 31 0 + 1) % 2 ^ 32) })
  .next (s.unlessPending (scalars [a, b])
    (match s.checkScratch c k (s.reg a) ⟨n, n, [rightA], false, true, false, n⟩ with
     | .error f => s.takeFault c k f
     | .ok (.self off) =>
       let at_ := s.logAddr c (logCount (s.core c).logsize)
       if (s.core c).logRefuses = false ∧ s.isHeld at_ 32 = true then s.holdLocal at_ 32
       else
         let q := s.appendLog c (rec_ off)
         let s1 := if q.2 then q.1 else q.1.report c (s.who c k) (logRefusedInfo ga)
         (count s1).done r
     | .ok tgt =>
       match tgt.route (s.partOf c k) ga with
       | some (dst, held, addr) =>
         if s.cur.postRoom then (count (s.post c k dst held (.logApp (rec_ (addr % 2 ^ 19))))).done r else s.cancel .postedFull
       | none => s.takeFault c k ⟨0x14, 0, ga, 0⟩))

/-- The sort key of a record (R257): OFFSET, SRCPKG, SRCTID, SEQ, OP, VALUE. -/
def logKey (rec : List Word) : List Nat :=
  let g := fun (i : Nat) => rec.getD i 0
  [bf (g 0) 18 0, bf (g 1) 30 19, bf (g 1) 18 0, bf (g 0) 63 32, bf (g 0) 23 19, (g 2).toNat]

/-- Lexicographic order of keys. -/
def keyLe : List Nat → List Nat → Bool
  | x :: xs, y :: ys => if x = y then keyLe xs ys else decide (x < y)
  | _, _ => true

/-- Insert a record into a sorted list. -/
def insertRecord (r : List Word) : List (List Word) → List (List Word)
  | [] => [r]
  | x :: rest => if keyLe (logKey r) (logKey x) then r :: x :: rest else x :: insertRecord r rest

/-- Records in key order. -/
def sortRecords (rs : List (List Word)) : List (List Word) := rs.foldr insertRecord []

/-- A merge operation on the target (R254). -/
def mergeNew (op : Nat) (v x : Word) : Word × Flags :=
  match op with
  | 0 => (v + x, 0)
  | 1 => (if slt x v then x else v, 0)
  | 2 => (if slt v x then x else v, 0)
  | 3 => (if x < v then x else v, 0)
  | 4 => (if v < x then x else v, 0)
  | 5 => (v ||| x, 0)
  | 6 => (v &&& x, 0)
  | 7 => (v ^^^ x, 0)
  | 8 => ((fp32.add .rne (v.toNat % 2 ^ 32) (x.toNat % 2 ^ 32)).map (BitVec.ofNat 64) id)
  | 9 => ((fp64.add .rne v.toNat x.toNat).map (BitVec.ofNat 64) id)
  | _ => (x, 0)

/-- LOGSEAL waits for its next step, at a core cycle; its sort has placed some records, and it has skipped records as corrupt and for poison (R259).
It goes on with the count and the base as it finds them, whatever an MTC then writes to LOGBASE and LOGSIZE (log 85, DESIGN CHOICE). -/
def State.sealWait (s : State) (c : CoreId) (k due placed count : Nat) (d : Reg) (corrupt poisoned : Nat) (r : Retire) : State :=
  s.blockAt c k (.seal due placed count d corrupt poisoned r)

/-- Records that a step of the sort places: a step takes at most 16 cc, 4 a record (R259). -/
def sealRun (placed count : Nat) : Nat := min 4 (count - placed)

/-- A step of LOGSEAL's sort (R257, R259): the next records take their places among those before them, and after the last SORTED is 1. That it
inserts is the model's choice, and poison in the area is read as data and the bytes are written back clean (logs 85 and 50, DESIGN CHOICE). -/
def State.sealSort (s : State) (c : CoreId) (placed count : Nat) : State :=
  let n := placed + sealRun placed count
  let recs := (List.range n).map (fun i => s.readWords (s.logAddr c i) 4)
  let s1 := s.writeWords (s.logAddr c 0) (sortRecords recs).flatten
  if n < count then s1 else s1.modCore c (fun x => { x with logsize := setf x.logsize 62 62 1 })

/-- LOGSEAL has applied its last record (R257): it reports and empties the log, and another one may run. A LOGSEAL that was stopped and issued again
counts the records it skips from then on (log 85, DESIGN CHOICE). -/
def State.sealEnd (s : State) (c : CoreId) (k count : Nat) (d : Reg) (corrupt poisoned : Nat) (r : Retire) : State :=
  let ovf := (logOvf (s.core c).logsize).toNat * 2 ^ 63
  let skipped := corrupt + poisoned
  let s1 := if corrupt = 0 then s else s.report c (s.who c k) ⟨0x2A, 0, 0, BitVec.ofNat 64 corrupt⟩
  let s2 := s1.modCore c (fun x => { x with logsize := BitVec.ofNat 64 (logSize x.logsize) })
  ((writeReg s2 c k d (BitVec.ofNat 64 (ovf + skipped * 2 ^ 12 + (count - skipped)))).retire c k r).wakeFor c (fun w => w == .sealBusy)

/-- NEXT of LOGSIZE advances, and LOGSEAL waits for its next record or ends. -/
def State.sealNext (s : State) (c : CoreId) (k count : Nat) (d : Reg) (corrupt poisoned : Nat) (r : Retire) : State :=
  let n := logNext (s.core c).logsize + 1
  let s1 := s.modCore c (fun x => { x with logsize := setf x.logsize 59 48 n })
  if n < count then s1.sealWait c k ((s.core c).cycle + 6) count count d corrupt poisoned r else s1.sealEnd c k count d corrupt poisoned r

/-- LOGSEAL applies record NEXT (R257): one indivisible update of its target, which an entry or a bank without power holds. A record with an OP above
10 or a misaligned OFFSET is skipped, and so is one whose target is poison. -/
def State.sealApply (s : State) (c : CoreId) (k count : Nat) (d : Reg) (corrupt poisoned : Nat) (r : Retire) : State :=
  let at_ := s.logAddr c (logNext (s.core c).logsize)
  let rec_ := s.readWords at_ 4
  let w := rec_.getD 0 0
  let off := bf w 18 0
  let op := bf w 23 19
  let n := mergeSize op
  let pa := scratchAddr c off
  if s.isHeld at_ 32 then s.powerFor at_ 32
  else if 10 < op ∨ off % n ≠ 0 then s.sealNext c k count d (corrupt + 1) poisoned r
  else if s.isHeld pa n then s.powerFor pa n
  else if s.isPoisoned pa n then
    (s.report c (s.who c k) (poisonedUpdate (s.ownGa c k off))).sealNext c k count d corrupt (poisoned + 1) r
  else
    let v := mergeNew op (BitVec.ofNat 64 (s.readNat pa n)) (rec_.getD 2 0)
    ((s.writeNat pa n v.1.toNat).raiseAt c k v.2).sealNext c k count d corrupt poisoned r

/-- A step of LOGSEAL (R257, R259): one of the sort, or the apply of one record. An MTC to LOGBASE or LOGSIZE meanwhile does not stop it: it sorts and
applies the records it counted at the start, at the base it then finds (log 85, DESIGN CHOICE). -/
def State.sealStep (s : State) (c : CoreId) (k : Nat) : State :=
  match (s.slot c k).st, (s.slot c k).wait with
  | .blocked, .seal due placed count d corrupt poisoned r =>
    if (s.core c).cycle < due then s
    else if logSorted (s.core c).logsize then s.sealApply c k count d corrupt poisoned r
    else
      let n := placed + sealRun placed count
      if s.isHeld (s.logAddr c 0) (32 * n) then s.powerFor (s.logAddr c 0) (32 * n)
      else (s.sealSort c placed count).sealWait c k ((s.core c).cycle + (if n < count then 4 * sealRun n count else 6)) n count d corrupt poisoned r
  | _, _ => s

/-- LOGSEAL d (R257): an empty or closed log answers at once; otherwise the thread is BLOCKED while the log is sorted and applied, from where an
earlier LOGSEAL was stopped (R259). A second one waits for the first. -/
def execLogseal (d : Reg) (s : State) : Result :=
  let c := s.curCore
  let r : Retire := ⟨4, [d], 0⟩
  let w := (s.core c).logsize
  let count := logCount w
  .next (s.unlessPending (scalars [d])
    (if (s.core c).sealing then s.cancel .sealBusy
     else if logSize w = 0 ∨ (count = 0 ∧ logNext w = 0) then
       ((s.modCore c (fun x => { x with logsize := setf x.logsize 63 63 0 })).putReg d (BitVec.ofNat 64 ((logOvf w).toNat * 2 ^ 63))).done r
     else s.block (.seal (s.now + (if logSorted w then 20 else 14 + 4 * sealRun 0 count)) 0 count d 0 0 r)))

/-! ### Cluster barriers (R260-R262) -/

/-- A barrier object of the core's cluster. -/
def State.barrier (s : State) (c : CoreId) (obj : Nat) : Barrier := (s.cluster (clusterOf c)).bars.getD obj Barrier.reset

/-- Set a barrier object. -/
def State.setBarrier (s : State) (c : CoreId) (obj : Nat) (b : Barrier) : State :=
  s.modCluster (clusterOf c) (fun cl => { cl with bars := cl.bars.put obj b })

/-- The state word (R260). -/
def Barrier.word (b : Barrier) : Word := BitVec.ofNat 64 (b.phase.toNat * 2 ^ 16 + b.arrived.toNat * 2 ^ 8 + b.members.toNat)

/-- The cores of a core's cluster. A memory or gateway core is in none, and is one of its own for the barrier instructions (R261; log 87, DESIGN
CHOICE). -/
def clusterMembers (c : CoreId) : List CoreId :=
  if isCompute c then (List.range 8).map (clusterCore (clusterOf c)) else [c]

/-- Every slot of the cluster. -/
def clusterSlots (c : CoreId) : List (CoreId × Nat) := (clusterMembers c).flatMap (fun h => (List.range 16).map (fun k => (h, k)))

/-- A BARW of this slot on this object is released with a value: d is written, the thread acquires and retires (R261). -/
def State.releaseOne (s : State) (h : CoreId) (k obj : Nat) (v : Word) : State :=
  match (s.slot h k).st, (s.slot h k).wait with
  | .blocked, .barrier o _ d r => if o = obj then ((writeReg s h k d v).acquire h k).retire h k r else s
  | _, _ => s

/-- Every BARW on the object is released. -/
def State.releaseBarrier (s : State) (c : CoreId) (obj : Nat) (v : Word) : State :=
  (clusterSlots c).foldl (fun q t => q.releaseOne t.1 t.2 obj v) s

/-- BARSET d, a, b (R261). -/
def execBarset (d a b : Reg) (s : State) : Result :=
  let c := s.curCore
  let obj := bf (s.reg a) 3 0
  let old := s.barrier c obj
  .next (s.unlessPending (scalars [d, a, b])
    (((s.setBarrier c obj { old with members := BitVec.ofNat 8 (bf (s.reg b) 7 0), arrived := 0 }).releaseBarrier c obj ones).putReg d
      old.word |>.done ⟨4, [d, a, b], 0⟩))

/-- An arrival at an object, at once or after the release wait (R261). -/
def State.arrive (wb : Bool) (s : State) (c : CoreId) (k obj : Nat) (d : Reg) (r : Retire) : State :=
  let b := s.barrier c obj
  let q := posOf c
  if !bit b.members q then (giveReg wb s c k d 3).retire c k r
  else if bit b.arrived q then (giveReg wb s c k d 2).retire c k r
  else
    let phase : Word := BitVec.ofNat 64 b.phase.toNat
    let arrived := putBit b.arrived q true
    let s1 :=
      if arrived = b.members then (s.setBarrier c obj { b with arrived := 0, phase := !b.phase }).releaseBarrier c obj (1 - phase)
      else s.setBarrier c obj { b with arrived := arrived }
    (giveReg wb s1 c k d phase).retire c k r

/-- BARJ d, a (R261): releasing, then the arrival. -/
def execBarj (d a : Reg) (s : State) : Result :=
  let obj := bf (s.reg a) 3 0
  let r : Retire := ⟨4, [d, a], 0⟩
  .next (s.unlessPending (scalars [d, a])
    (if s.cur.posted.isEmpty then s.arrive true s.curCore s.curSlot obj d r else s.block (.releaseBar obj d r)))

/-- BARW d, a, b (R261): waits until PHASE differs from bit 0 of b; acquiring. -/
def execBarw (d a b : Reg) (s : State) : Result :=
  let c := s.curCore
  let k := s.curSlot
  let obj := bf (s.reg a) 3 0
  let bar := s.barrier c obj
  let r : Retire := ⟨4, [d, a, b], 0⟩
  .next (s.unlessPending (scalars [d, a, b])
    (if bar.members = 0 then ((s.putReg d ones).acquire c k).done r
     else if bar.phase = bit (s.reg b) 0 then s.block (.barrier obj (bit (s.reg b) 0) d r)
     else ((s.putReg d (BitVec.ofNat 64 bar.phase.toNat)).acquire c k).done r))

/-- BARQ d, a (R261). -/
def execBarq (d a : Reg) (s : State) : Result :=
  s.scalarOp 4 [d, a] d (s.barrier s.curCore (bf (s.reg a) 3 0)).word

/-! ### Timelines and tickets (R264-R266) -/

/-- Bytes that an operation 6-12 names (R264). -/
def syncSize (op : Nat) : Nat := if 10 ≤ op then 16 else 8

/-- The doubleword that an operation reads: SERVING at offset 8 for TKWAIT and TKDONE. -/
def syncWord (op addr : Nat) : Nat := if op = 11 ∨ op = 12 then addr + 8 else addr

/-- The effect of an operation at its home (R264): the state and the value answered, or none where it must wait. -/
def State.performSync (s : State) (op addr : Nat) (x : Word) : State × Option Word :=
  let a := syncWord op addr
  let v := s.readWord a
  match op with
  | 6 => (s.writeWord a (v + x), some v)
  | 7 => (s.writeWord a x, some v)
  | 8 => (s, some v)
  | 10 => (s.writeWord a (v + 1), some v)
  | 12 => (s.writeWord a (v + 1), some v)
  | _ => (s, if hasReached v x then some v else none)

/-- Whether an operation is releasing, waits, or acquires (R246). -/
def syncReleases (op : Nat) : Bool := op == 6 || op == 7 || op == 12
def syncAcquires (op : Nat) : Bool := op == 8 || op == 9 || op == 11

/-- The table of waiters of a core has room (R265). -/
def Core.waiterRoom (x : Core) : Bool := decide (x.waiters.length < 64)

/-- A wait enters its home's table. -/
def State.addWaiter (s : State) (home : CoreId) (w : Waiter) : State := s.modCore home (fun x => { x with waiters := x.waiters ++ [w] })

/-- An operation at the thread's own core, at once or after its release wait (R245, R265). -/
def State.localSync (wb : Bool) (s : State) (c : CoreId) (k : Nat) (op addr : Nat) (x : Word) (d : Reg) (r : Retire) : State :=
  let a := syncWord op addr
  let use : ReplyUse := .word d (syncAcquires op)
  let posted := d == 0 && !syncAcquires op
  let ga := s.ownGa c k (scratchOff a)
  if s.isHeld addr (syncSize op) then s.holdAt c k addr (syncSize op)
  else if s.isPoisoned a 8 then
    (if posted then (s.report c (s.who c k) (poisonedUpdate ga)).retire c k r else s.contain c k (poisonFault ga))
  else match s.performSync op addr x with
    | (s1, some v) => (s1.deliver wb c k use (v.setWidth 256) 0).retire c k r
    | (s1, none) =>
      if (s1.core c).waiterRoom then
        (((s1.addWaiter c ⟨.word a x, c, k, (s.slot c k).gen⟩).modSlot c k Slot.addOut).blockAt c k (.reply use r (.sync op addr x) c))
      else s1.blockAt c k (.retry use r (.sync op addr x) c (s.fc + 256))

/-- A timeline or ticket instruction of the issuing thread. -/
def State.syncOp (s : State) (op : Nat) (names : List Reg) (d a : Reg) (x : Word) : State :=
  let c := s.curCore
  let k := s.curSlot
  let r : Retire := ⟨4, names, 0⟩
  let ga := s.cur.segGa (s.reg a)
  let use : ReplyUse := .word d (syncAcquires op)
  let posted := d == 0 && !syncAcquires op
  let wait := syncReleases op && !s.cur.posted.isEmpty
  let send := fun (s : State) (dst : CoreId) (held : Option CoreId) (addr : Nat) =>
    if wait then s.block (.release none (s.waitingPacket c k dst held (.sync op addr x)) (if posted then none else some use) r)
    else if posted then
      (if s.cur.postRoom then (s.post c k dst held (.sync op addr x)).done r else s.cancel .postedFull)
    else s.request c k dst held (.sync op addr x) use r
  s.unlessPending (scalars names)
    (match s.checkAccess c k (s.reg a) (atomicForm c (syncSize op)) with
     | .error f => s.takeFault c k f
     | .ok (.self off) =>
       if wait then s.block (.releaseLocal none (.sync op (scratchAddr c off) x) d r) else s.localSync true c k op (scratchAddr c off) x d r
     | .ok (.mem cls va) => s.withTranslation ga cls va 2 (fun s pa => send s (homeOf pa) none pa)
     | .ok tgt =>
       match tgt.route (s.partOf c k) ga with
       | some (dst, held, addr) => send s dst held addr
       | none => s.takeFault c k ⟨0x13, 0, ga, 0⟩)

/-- TLADD d, [a], b (R264): T ← T + b; releasing. -/
def execTladd (d a b : Reg) (s : State) : Result := .next (s.syncOp 6 [d, a, b] d a (s.reg b))

/-- TLSET d, [a], b (R264): T ← b; releasing. -/
def execTlset (d a b : Reg) (s : State) : Result := .next (s.syncOp 7 [d, a, b] d a (s.reg b))

/-- TLRD d, [a] (R264): acquiring. -/
def execTlrd (d a : Reg) (s : State) : Result := .next (s.syncOp 8 [d, a] d a 0)

/-- TLWAIT d, [a], b (R264): waits until T has reached b; acquiring. -/
def execTlwait (d a b : Reg) (s : State) : Result := .next (s.syncOp 9 [d, a, b] d a (s.reg b))

/-- TKT d, [a] (R264): NEXT ← NEXT + 1. -/
def execTkt (d a : Reg) (s : State) : Result := .next (s.syncOp 10 [d, a] d a 0)

/-- TKWAIT d, [a], b (R264): waits until SERVING has reached b; acquiring. -/
def execTkwait (d a b : Reg) (s : State) : Result := .next (s.syncOp 11 [d, a, b] d a (s.reg b))

/-- TKDONE d, [a] (R264): SERVING ← SERVING + 1; releasing. -/
def execTkdone (d a : Reg) (s : State) : Result := .next (s.syncOp 12 [d, a] d a 0)

end Sys2Proof.Machine
end

