-- ==== Sys2Proof/Machine/Fabric.lean ====
section
/-! DEFINITION. Which homes a core can reach (01_machine R12, R21, R24), and which messages a fabric gate admits (16_package R435,
R436, R438). -/

namespace Sys2Proof.Machine

/-! ### Packets (08_messages R213, R214) -/

/-- KIND of a packet (R214). -/
def Body.kind : Body → Nat
  | .load _ _ | .pieces _ _ _ | .fitRead _ => 0
  | .store _ _ _ | .storing _ _ _ _ => 1
  | .dataReply _ _ _ | .sample _ _ _ => 2
  | .ack _ _ _ _ => 3
  | .mail _ _ _ _ => 4
  | .active _ _ _ _ => 5
  | .msgStatus _ => 6
  | .wake => 7
  | .chain _ _ _ _ _ _ _ => 8
  | .chainReply _ _ _ => 9
  | .atomic _ _ _ _ _ => 10
  | .sync _ _ _ | .withdraw | .logApp _ | .codelet _ _ _ _ => 11
  | .query _ _ _ | .engine _ _ _ | .migrate _ _ _ _ _ _ _ => 12
  | .operand _ _ => 13
  | .contribution _ _ _ _ _ _ _ _ | .gathering _ _ _ _ _ _ _ _ _ _ | .abort _ _ _ => 14
  | .control _ _ _ _ => 15
  | .queue _ _ _ | .keyRequest _ _ _ | .keyGrant _ | .keyRelease _ _ => 16

/-- LEN: a message carries its payload (R217), an active message 4 doublewords (R231), a chain step its origin, its pointer and its step list (R234);
of the other kinds the manual states none (log 86, DESIGN CHOICE). -/
def Body.len : Body → Nat
  | .mail _ payload _ _ => payload.length
  | .active _ _ _ _ => 4
  | .chain _ _ _ steps _ _ _ => 2 + 2 * steps.length
  | b => (Config.packetLen b.kind).toNat % 31

/-- Bytes of a packet and the flits that carry them (R213). -/
def Body.packetBytes (b : Body) : Nat := 16 + 8 * b.len
def Body.flits (b : Body) : Nat := if b.packetBytes ≤ 128 then 1 else 2

/-- The number of a status of KIND 2, 3 and 9 (log 27, DESIGN CHOICE). -/
def Status.number : Status → Nat
  | .done => 0 | .absent => 1 | .refused => 2 | .poisoned => 3 | .retry => 4 | .logRefused => 5 | .foreign => 6
  | .queueFull => 7 | .queueClosed => 8 | .collective => 9

/-- STATUS of a packet. -/
def Body.status : Body → Nat
  | .dataReply st _ _ | .ack st _ _ _ => st.number
  | .msgStatus n => n
  | .chainReply _ _ p => if p then Status.poisoned.number else 0
  | _ => 0

/-- SLOT of a packet names the destination's thread: a reply or a wake. -/
def Body.toThread : Body → Bool
  | .dataReply _ _ _ | .ack _ _ _ _ | .msgStatus _ | .wake | .chainReply _ _ _ => true
  | _ => false

/-- AUX: 0 for the kinds that 08_messages describes. -/
def Body.aux (b : Body) : Nat := if 4 ≤ b.kind ∧ b.kind ≤ 9 then 0 else (Config.packetAux b.kind).toNat

/-- The 16-byte header of a packet (R213): one that leaves the package carries this package's number. -/
def State.header (s : State) (m : Msg) : BitVec 128 :=
  let b := m.body
  let mb := match b with | .mail n _ _ _ => n % 4 | _ => 0
  let slot := fun (here : Bool) => if here then m.slot % 16 else 0
  BitVec.ofNat 128 (b.kind + b.len % 32 * 2 ^ 5 + mb * 2 ^ 10 + m.gen % 16 * 2 ^ 12
    + (m.dst % 2 ^ 15 * 16 + slot b.toThread) * 2 ^ 16 + (m.src % 2 ^ 15 * 16 + slot (!b.toThread)) * 2 ^ 35
    + m.part.getD 0 % 64 * 2 ^ 54 + b.status * 2 ^ 60 + (if m.pkg = 0xFFF ∧ 32768 ≤ m.dst then s.pkgNo else m.pkg) % 2 ^ 12 * 2 ^ 64
    + (if m.dst < 32768 then s.pkgNo else m.dst / 32768 - 1) % 2 ^ 12 * 2 ^ 76 + b.aux * 2 ^ 96)

/-- A link is failed (R445). -/
def State.linkFailed (s : State) (n : Nat) : Bool := (s.pkg.links.getD n Link.reset).failed

/-- The route from one core to another crosses no fenced die and no failed link. -/
def State.routeOpen (s : State) (src dst : CoreId) : Bool :=
  let a := attachXY s.pkg.altStacks src
  let b := attachXY s.pkg.altStacks dst
  !(routeDies a b).any s.dieFenced && (s.pkg.links.isEmpty || !(routeLinks a b).any s.linkFailed)

/-- The route of a message crosses a link that retrains: it waits there (R445). -/
def State.routeStalled (s : State) (src dst : CoreId) : Bool :=
  !s.pkg.links.isEmpty && decide (src < 32768 ∧ dst < 32768)
    && (routeLinks (attachXY s.pkg.altStacks src) (attachXY s.pkg.altStacks dst)).any (fun n => (s.pkg.links.getD n Link.reset).retraining)

/-- Where the fabric of this package meets a core: of another package, the router of the port to it (R450). -/
def State.here (s : State) (c : CoreId) : CoreId := if c < 32768 then c else portCore (s.peerPort (pkgOf c))

/-- The end of a route exists: a core that is not absent, or a peer whose port is open (R447, R450). -/
def State.endOpen (s : State) (c : CoreId) : Bool := if c < 32768 then !s.coreAbsent c else s.peerOpen (pkgOf c)

/-- A packet from one core gets to another. -/
def State.delivers (s : State) (src dst : CoreId) : Bool := src == dst || (s.endOpen dst && s.routeOpen (s.here src) (s.here dst))

/-- A core reaches a home and hears its answer (R24): neither the route of the request nor that of the reply is closed. -/
def State.reaches (s : State) (src dst : CoreId) : Bool :=
  src == dst || (s.endOpen dst && s.routeOpen (s.here src) (s.here dst) && s.routeOpen (s.here dst) (s.here src))

/-- The core from whose router a packet goes on: a request that the carafe has injected starts at its attach router (07_access R202). -/
def Msg.from_ (m : Msg) : CoreId := if m.body.toThread && m.body != .wake then m.src else m.via.getD m.src

/-- What an engine of a partition sends to a core is performed and answered there: neither way is closed (R24), and the gate of its bulkhead does not
answer absent (16_package R435, R436, R438); no window admits an engine's requests (log 88, DEDUCED). -/
def State.answers (s : State) (part : Option Nat) (src dst : CoreId) : Bool :=
  s.reaches src dst && (!isCompute dst || ((s.bulkhead (bulkheadOf dst)).park == 0
    && (part.isNone || (s.bulkhead (bulkheadOf dst)).owner == part)))

/-- The core that hears the answer to a packet; none for a packet that has no answer. -/
def Msg.answersTo (m : Msg) : Option CoreId :=
  match m.body with
  | .wake | .withdraw | .keyGrant _ | .keyRelease _ _ | .mail _ _ true _ | .abort _ _ false => none
  | .chain _ _ _ _ _ rc _ => some rc
  | _ => some m.src

/-- The bit of WINDAT.KINDS that admits a packet; none for a packet that no window admits. A read of FIT is a load (14_population R375); chain steps,
engine requests, collectives and keys are in none of the four groups that R435 names (log 88, DEDUCED). -/
def Body.windowBit : Body → Option Nat
  | .load _ _ | .pieces _ _ _ | .fitRead _ => some 0
  | .store _ _ _ | .storing _ _ _ _ | .atomic _ _ _ _ _ | .sync _ _ _ | .withdraw | .logApp _ | .codelet _ _ _ _ => some 1
  | .mail _ _ _ _ => some 2
  | .active _ _ _ _ | .wake => some 3
  | _ => none

/-- Replies and statuses, which follow the request they answer, and class-3 accesses, which the target core itself refuses
(15_system R412), pass a gate whatever their PART. -/
def Body.ungated : Body → Bool
  | .dataReply _ _ _ | .ack _ _ _ _ | .msgStatus _ | .chainReply _ _ _ | .sample _ _ _ => true
  | .control _ _ _ _ => true
  | _ => false

/-- A window admits a packet (R435): its entry, and a map entry of SRCPART whose PBH is DSTBH. -/
def State.windowAdmits (s : State) (part : Nat) (bh : Nat) (kind : Nat) : Bool :=
  (List.range 16).any (fun i =>
    let w := s.pkg.windows.getD i 0
    bit w 63 && bf w 61 56 == part && bf w 45 40 == bh && bit w kind && (s.bulkhead bh).owner == some (bf w 53 48)
      && ((s.part part).vbhOfPhysical bh).isSome)

/-- The gate of the destination's bulkhead delivers the packet (R435, R436, R438). -/
def State.gateAdmits (s : State) (m : Msg) : Bool :=
  if !isCompute m.dst then true
  else
    let bh := bulkheadOf m.dst
    let b := s.bulkhead bh
    decide (b.park = 0) && (m.body.ungated || b.owner == m.part || m.part.isNone
      || (match m.part, m.body.windowBit with
          | some p, some k => s.windowAdmits p bh k
          | _, _ => false))

/-- The route of a packet, or of its answer where it has one, is closed (R24). -/
def State.offRoute (s : State) (m : Msg) : Bool :=
  !s.delivers m.from_ m.dst || (match m.answersTo with | some h => !s.delivers m.dst h | none => false)

/-- The packet is answered with an absent status and performs nothing; a packet for a peer is here only when no port took it. -/
def State.isAbsent (s : State) (m : Msg) : Bool := decide (32768 ≤ m.dst) || s.offRoute m || !s.gateAdmits m

/-- The destination's core clock is stopped by the governor: its messages wait (R440). -/
def State.isStopped (s : State) (c : CoreId) : Bool := isCompute c && (s.bulkhead (bulkheadOf c)).stopped

/-- What an engine sends to a core, or hears from it, waits: its clock is stopped, or a link on the way retrains (R440, R445). -/
def State.engineWaits (s : State) (me h : CoreId) : Bool := s.isStopped h || s.routeStalled me h || s.routeStalled h me

/-- The clock of a core runs: it exists, and its bulkhead is neither parked, nor in reset, nor stopped by the governor (R34; 16_package
R436, R438, R440). -/
def State.clockRuns (s : State) (c : CoreId) : Bool :=
  !s.coreAbsent c && !s.isStopped c
    && (!isCompute c || ((s.bulkhead (bulkheadOf c)).park == 0 && !(s.bulkhead (bulkheadOf c)).absent))

end Sys2Proof.Machine
end

