-- ==== Sys2Proof/Machine/Engines.lean ====
section
/-! DEFINITION. Futures and engine commands: the completion table (12_engines R327-R330), range-scoreboard entries (R324), buffer
headers (R321), the lineage ring (14_population R386), cancellation (R331, R332), and HTST, HWAIT, HDET and HCAN. -/

namespace Sys2Proof.Machine

/-! ### The completion table (R327-R329) -/

/-- A completion status (11_press R298). -/
def completionWord (flags : Flags) (code : Nat) : Word := BitVec.ofNat 64 (code % 256 + flags.toNat * 256)

/-- RUNNING and STALE (R328). -/
def runningWord : Word := 0x8000000000000000#64
def staleWord : Word := 0x4000000000000000#64

/-- A handle (R328). -/
def handleWord (tag : BitVec 16) (kind entry : Nat) : Word :=
  BitVec.ofNat 64 (3 * 2 ^ 62 + tag.toNat * 2 ^ 40 + kind % 16 * 2 ^ 36 + entry % 64)

/-- A token (R328). -/
def tokenWord (pkg : Nat) (core : CoreId) (tag : BitVec 16) (entry : Nat) : Word :=
  BitVec.ofNat 64 (2 ^ 62 + pkg % 2 ^ 12 * 2 ^ 50 + core % 2 ^ 15 * 2 ^ 32 + tag.toNat * 2 ^ 16 + entry % 64)

/-- What a value names (R328, R330): a token, a status, or anything else. STALE itself is no token (log 16, DESIGN CHOICE). -/
def isToken (v : Word) : Bool := decide (bf v 63 62 = 1 ∧ v ≠ staleWord)
def isStatus (v : Word) : Bool := decide (bf v 63 14 = 0)

/-- An entry of the table. -/
def Core.entryAt (x : Core) (e : Nat) : Completion := x.comp.getD e Completion.reset

/-- Set an entry. -/
def Core.setEntry (x : Core) (e : Nat) (q : Completion) : Core := { x with comp := x.comp.put e q }

/-- The lowest-numbered FREE entry (log 16, DESIGN CHOICE). -/
def Core.freeEntry (x : Core) : Option Nat := (List.range 64).find? (fun e => (x.entryAt e).st == .free)

/-- Take an entry for a command of a thread: its TAG advances, the handle register receives the handle and is marked pending, and one
more response is outstanding (R327, R328; 03_strands R89). -/
def State.takeEntry (s : State) (c : CoreId) (k e : Nat) (d : Reg) (kind : Nat) : State :=
  let t := s.slot c k
  let tag := ((s.core c).entryAt e).tag + 1
  let s1 := s.modCore c (fun x => x.setEntry e ⟨tag, .attached k t.gen d⟩)
  setPending (backReg (s1.modSlot c k Slot.addOut) c k d (handleWord tag kind e)) c k d true

/-- A completion reaches its handle register (R329): of the context in the slot, or of its spilled owner's image (03_strands R97), or
it is discarded by generation, and then the mark of a shared register stays (log 61, DESIGN CHOICE). A thread that named the register issues
again from the cycle after the write: n + 3 for a step before the issue of cycle n (03_strands R77, R78). -/
def State.completeRegister (s : State) (c : CoreId) (k gen : Nat) (d : Reg) (v : Word) : State :=
  let t := s.slot c k
  let s0 := s.modSlot c k (fun t => t.subOut gen)
  let owner := match t.spilled with | some o => o.gen == gen | none => false
  if t.accepts gen then (completeReg s0 c k d v).wakePending c k d 3
  else if owner then
    (if 16 ≤ d.toNat then (completeReg s0 c k d v).wakePending c k d 3
     else if d = 0 then s0
     else
       let base := spillAddr c k
       (s0.writeWord (base + 8 * (d.toNat - 1)) v).writeWord (base + 0x350)
         (s0.readWord (base + 0x350) &&& ~~~(BitVec.ofNat 64 (2 ^ d.toNat))))
  else s0

/-- A command of the issuing thread goes on with a free completion entry; with none it is cancelled at EX, before any of its checks (R327). -/
def State.withEntry (s : State) (body : Nat → State) : State :=
  match (s.core s.curCore).freeEntry with
  | none => s.cancel .completionFull
  | some e => body e

/-- An entry becomes FREE; a command that found none issues again (R327). -/
def State.freeEntry (s : State) (c : CoreId) (e : Nat) : State :=
  (s.modCore c (fun x => { x.setEntry e { x.entryAt e with st := .free } with collDone := x.collDone.erase e })).wakeFor c (fun w => w == .completionFull)

/-- Waiters of one entry. -/
def Waiter.onEntry (w : Waiter) (e : Nat) (tag : BitVec 16) : Bool :=
  match w.watch with
  | .entry f t => f == e && t == tag.toNat
  | .word _ _ => false

/-- How a status of an entry is answered: one of a collective also sets the reader's acquire point (14_population R393). -/
def Core.statusAnswer (x : Core) (e : Nat) : Status := if x.collDone.contains e then .collective else .done

/-- A command's status reaches its entry (R329, R330). -/
def State.finishEntry (s : State) (c : CoreId) (e : Nat) (status : Word) : State :=
  let x := s.core c
  let q := x.entryAt e
  match q.st with
  | .attached k gen d => (s.freeEntry c e).completeRegister c k gen d status
  | .running =>
    let ws := x.waiters.filter (fun w => w.onEntry e q.tag)
    if ws.isEmpty then s.modCore c (fun x => x.setEntry e ⟨q.tag, .finished status⟩)
    else
      let s1 := s.modCore c (fun x => { x with waiters := x.waiters.filter (fun w => !w.onEntry e q.tag) })
      (ws.foldl (fun r w => r.answerWaiterAs c w (x.statusAnswer e) status) s1).freeEntry c e
  | _ => s

/-! ### Range-scoreboard entries (R324) -/

/-- Retire a FENCE.I whose entries are all gone (07_access R199). -/
def State.settleFenceI (s : State) (c : CoreId) (k : Nat) : State :=
  match (s.slot c k).st, (s.slot c k).wait with
  | .blocked, .fenceI ids r => if (s.core c).sb.any (fun e => ids.contains e.id) then s else s.retire c k r
  | _, _ => s

/-- The entry belongs to a command, or to a pair of it. -/
def SbOwner.ofCmd (o : SbOwner) (id : Nat) : Bool :=
  match o with
  | .engine i | .pair i _ => i == id
  | .press => false

/-- Retire the entries and requests of a core that p picks out: what they held may issue again, and every waiter sees what they wrote
(09_sync R266, 10_ordering R280). -/
def State.retireSpans (s : State) (c : CoreId) (p : Span → Bool) : State :=
  let s1 := (s.modCore c (fun x =>
    { x with sb := x.sb.filter (fun e => !p e), sbWait := x.sbWait.filter (fun e => !p e) })).wakeFor c
      (fun w => w == .scoreboard || w == .sealBusy)
  let s2 := (List.range 16).foldl (fun q k => q.settleFenceI c k) s1
  ((s.core c).sb.filter p).foldl (fun q e => q.evalRange (scratchAddr c e.lo) (e.hi - e.lo)) s2

/-- An entry over [lo, hi) can be granted: no active entry overlaps and one of the 32 is free. -/
def Core.canGrant (x : Core) (lo hi : Nat) : Bool := !x.sbOverlap lo hi && decide (x.sb.length < 32)

/-! ### Buffer headers (R321) -/

/-- Add n to one field of doubleword 2 of a header, modulo 2^16. -/
def State.bumpHeader (s : State) (pa hi lo n : Nat) : State :=
  let w := s.readWord (pa + 16)
  s.writeWord (pa + 16) (setf w hi lo ((bf w hi lo + n) % 2 ^ 16))

/-- RD of a backing, and WR. -/
def State.headerRd (s : State) (pa k : Nat) : Nat := if k = 0 then bf (s.readWord (pa + 16)) 15 0 else bf (s.readWord (pa + 16)) 31 16
def State.headerWr (s : State) (pa : Nat) : Nat := bf (s.readWord (pa + 16)) 47 32
def State.headerFront (s : State) (pa : Nat) : Nat := bf (s.readWord pa) 0 0

/-- RD of a backing changes by n modulo 2^16. -/
def State.bumpRd (s : State) (pa k n : Nat) : State := if k = 0 then s.bumpHeader pa 15 0 n else s.bumpHeader pa 31 16 n

/-- The members of a command that are not cancelled. -/
def EngCmd.live (cmd : EngCmd) : List Member := cmd.members.filter (fun m => !m.cancelled)

/-- The core of the engine that runs a command, and its partition: those of its first member. -/
def EngCmd.engineCore (cmd : EngCmd) : CoreId := match cmd.live with | m :: _ => m.core | [] => 0
def EngCmd.enginePart (cmd : EngCmd) : Option Nat := match cmd.live with | m :: _ => m.part | [] => none

/-- A request of an engine command leaves for the package that an address names (07_access R210), if a port takes it. -/
def State.toPeer (s : State) (cmd : EngCmd) (ga : Word) (body : Body) : State :=
  if s.peerOpen (gaPkg ga) = false then s else s.launch ⟨cmd.engineCore, peerCore (gaPkg ga), 0, 0, cmd.enginePart, none, 0, 0, 0, 0xFFF, none, false, none, body⟩

/-- The command is past the access to its buffer's header, which counted it. -/
def EngCmd.counted (cmd : EngCmd) : Bool :=
  (cmd.sbuf || cmd.dbuf) && (match cmd.phase with | .grant _ | .moving _ => true | _ => false)

/-- The reader or writer count that a command holds is given back. -/
def State.restoreCounts (s : State) (cmd : EngCmd) : State :=
  if cmd.counted = false then s
  else match cmd.header with
    | .at_ pa => if cmd.sbuf then s.bumpRd pa cmd.front 0xFFFF else s.bumpHeader pa 47 32 0xFFFF
    | .foreign ga => s.toPeer cmd ga (.engine (if cmd.sbuf then 5 else 6) ga cmd.front)
    | .virt _ _ => s

/-! ### The lineage ring (14_population R386) -/

/-- SIZE of a partition's ring; 0 when it is closed. -/
def Part.linRecords (p : Part) : Nat :=
  let n := bf p.linsize 4 0
  if 10 ≤ n ∧ n ≤ 24 then 2 ^ n else 0

/-- HEAD. -/
def Part.linHead (p : Part) : Nat := bf p.linhead 47 0

/-- Physical address of record n, where its page translates. -/
def State.linAddr (s : State) (part n : Nat) : Option Nat :=
  let p := s.part part
  match s.translateNow (some part) 1 (BitVec.ofNat 48 (bf p.linbase 47 5 * 32 + n % p.linRecords * 32)) 1 with
  | .ok pa => some pa
  | _ => none

/-- Write record n and mark it written; one that does not translate is lost (log 17, DESIGN CHOICE). -/
def State.writeLineage (s : State) (part n : Nat) (rec : List Word) : State :=
  let s1 := s.modPart part (fun p => { p with linOpen := p.linOpen.filter (fun m => m != n) })
  if (s.part part).linRecords = 0 then s1
  else match s.linAddr part n with
    | some pa => (s1.writeWords pa rec).carafeAccess pa
    | none => s1

/-- A reservation that was not used: KIND 3 and SEQ only. -/
def unusedLineage (n : Nat) : List Word := [0, 0, BitVec.ofNat 64 (3 * 2 ^ 56), BitVec.ofNat 64 (n % 2 ^ 48)]

/-- Reserve n records (R383): the first sequence number. -/
def State.reserveLineage (s : State) (part n : Nat) : State :=
  s.modPart part (fun p =>
    { p with linhead := BitVec.ofNat 64 ((p.linHead + n) % 2 ^ 48)
             linOpen := p.linOpen ++ (List.range n).map (fun i => (p.linHead + i) % 2 ^ 48) })

/-! ### Cancellation (R331, R332) -/

/-- The physical byte of a place: none while its virtual bulkhead is held, or in another package. -/
def State.resolve (s : State) (part : Option Nat) (p : Place) : Option Nat :=
  match p with
  | .at_ a => some a
  | .virt v off =>
    (match part with
     | some n => match s.xlate n v with | .at_ c => some (scratchAddr c off) | _ => none
     | none => some (scratchAddr v off))
  | .foreign _ => none

/-- The core whose scratchpad a place lies in, for the destinations that take scoreboard entries. -/
def State.placeCore (s : State) (part : Option Nat) (p : Place) : Option CoreId :=
  match s.resolve part p with
  | some a => if addrClass a = 0 then some (homeOf a) else none
  | none => none

/-- Numbers in rising order without repeats. -/
def insertNat (n : Nat) : List Nat → List Nat
  | [] => [n]
  | m :: rest => if n = m then m :: rest else if n < m then n :: m :: rest else m :: insertNat n rest

/-- The core that a virtual coordinate names, or named until its virtual bulkhead was held (07_access R202). -/
def State.lastCore (s : State) (p : Nat) (v : CoreId) : Option CoreId :=
  match (s.part p).images.find v with
  | some i => some i.home
  | none =>
    let x := s.part p
    if entryState (x.entry (vbhOf v)) = 2 then some (onBulkhead (bf (x.entry (vbhOf v)) 5 0) v)
    else match coreXlate x v with | .at_ c => some c | _ => none

/-- The core whose scratchpad a destination lies in, or lay in before its bulkhead was held. -/
def State.lastPlace (s : State) (part : Option Nat) (p : Place) : Option CoreId :=
  match p, part with
  | .at_ a, _ => if addrClass a = 0 then some (homeOf a) else none
  | .virt v _, some n => s.lastCore n v
  | .virt v _, none => some v
  | .foreign _, _ => none

/-- Destination cores of a member, in ascending physical coordinate. -/
def State.memberCores (s : State) (m : Member) : List CoreId :=
  m.stretches.foldl (fun l z => match s.lastPlace m.part z.dst with | some c => insertNat c l | none => l) []

/-- Destination cores of the members that are not cancelled. -/
def State.commandCores (s : State) (cmd : EngCmd) : List CoreId :=
  cmd.live.foldl (fun l m => (s.memberCores m).foldl (fun l c => insertNat c l) l) []

/-- A member of a command is started (R331): one of its entries has been granted, or a buffer counted it. -/
def EngCmd.started (cmd : EngCmd) (m : Member) : Bool :=
  match cmd.phase with
  | .window _ | .header | .publishing _ | .complete | .saved => false
  | .grant _ => cmd.counted || m.granted
  | .moving _ => cmd.counted || m.granted
  | .pairs _ => cmd.granted

/-- The member of a command whose completion entry this is. -/
def EngCmd.member (cmd : EngCmd) (c : CoreId) (e : Nat) : Option Member :=
  cmd.members.find? (fun m => m.core == c && m.entry == e && !m.cancelled)

/-- The command that a completion entry of a core belongs to. -/
def State.commandOf (s : State) (c : CoreId) (e : Nat) : Option (Nat × EngCmd) :=
  s.engine.find? (fun q => (q.2.member c e).isSome)

/-- Write every reserved lineage record of pairs not completed with KIND 3. -/
def State.dropLineage (s : State) (cmd : EngCmd) (left : List Nat) : State :=
  match cmd.seqBase, cmd.members with
  | some base, m :: _ =>
    (match m.part with
     | some p => left.foldl (fun q i => q.writeLineage p ((base + i) % 2 ^ 48) (unusedLineage ((base + i) % 2 ^ 48))) s
     | none => s)
  | _, _ => s

/-- Pairs of a command whose reserved record has not been written. -/
def State.openPairs (s : State) (cmd : EngCmd) : List Nat :=
  match cmd.seqBase, cmd.members with
  | some base, m :: _ => (List.range cmd.pairsTable.length).filter (fun i => (s.part (m.part.getD 0)).linOpen.contains ((base + i) % 2 ^ 48))
  | _, _ => []

/-- The phase of a command. -/
def State.setPhase (s : State) (id : Nat) (cmd : EngCmd) (ph : Phase) : State := { s with engine := s.engine.put id { cmd with phase := ph } }

/-- The span of a command on one core: from the lowest to the highest byte it writes there. -/
def State.commandSpan (s : State) (cmd : EngCmd) (h : CoreId) : Nat × Nat :=
  let bounds := cmd.live.flatMap (fun m => m.stretches.filterMap (fun z =>
    match s.resolve m.part z.dst with
    | some a => if addrClass a = 0 ∧ homeOf a = h then some (scratchOff a, scratchOff a + z.len) else none
    | none => none))
  (bounds.foldl (fun n b => min n b.1) 0x80000, bounds.foldl (fun n b => max n b.2) 0)

/-- Ask for an entry at a core: the request joins the core's queue (R324). -/
def State.askSpan (s : State) (h : CoreId) (lo hi : Nat) (o : SbOwner) : State :=
  s.modCore h (fun x => { x with sbWait := x.sbWait ++ [⟨x.nextSpan, lo, hi, o⟩], nextSpan := x.nextSpan + 1 })

/-- Every destination in a scratchpad of this package is mapped now (07_access R202). -/
def State.mapped (s : State) (cmd : EngCmd) : Bool :=
  cmd.live.all (fun m => m.stretches.all (fun z =>
    (match z.dst with | .virt _ _ => (s.resolve m.part z.dst).isSome | _ => true)
      && (match z.src with | .virt _ _ => (s.resolve m.part z.src).isSome | _ => true)))

/-- Ask for the entries of the cores still to be granted, one after the other (R319). A core that answers absent gets no request, and none is asked
while a place of the command is held. -/
def State.askEntry (s : State) (id : Nat) (cmd : EngCmd) (left : List CoreId) : State :=
  match left with
  | [] => s.setPhase id cmd (.moving 0)
  | h :: _ =>
    let b := s.commandSpan cmd h
    let s1 := if s.answers cmd.enginePart cmd.engineCore h && s.mapped cmd then s.askSpan h b.1 b.2 (.engine id) else s
    s1.setPhase id cmd (.grant left)

/-- Every entry and request of a command's pairs goes. -/
def State.dropPairs (s : State) (id : Nat) : State :=
  (s.cores.filter (fun e => (e.2.sb ++ e.2.sbWait).any (fun z => z.owner.ofCmd id))).foldl
    (fun q e => q.retireSpans e.1 (fun z => z.owner.ofCmd id)) s

/-- Entries of a core leave its image, while its bulkhead is held. -/
def State.dropSaved (s : State) (h : CoreId) (p : Span → Bool) : State :=
  let clean := fun (i : Image) =>
    if i.home = h then { i with core := { i.core with sb := i.core.sb.filter (fun z => !p z), sbWait := i.core.sbWait.filter (fun z => !p z) } } else i
  { s with parts := s.parts.map (fun e => (e.1, { e.2 with images := e.2.images.map (fun i => (i.1, clean i.2)) })) }

/-- Remove one member of a command: its scoreboard entries on cores that no other member writes retire, and the others go on. With the last
member the command itself goes and gives back its buffer count. -/
def State.removeMember (s : State) (id : Nat) (cmd : EngCmd) (c : CoreId) (e : Nat) : State :=
  let cmd1 := { cmd with members := cmd.members.map (fun m => if m.core = c ∧ m.entry = e then { m with cancelled := true } else m) }
  let mine := match cmd.member c e with | some m => s.memberCores m | none => []
  let s1 := (mine.filter (fun h => !(s.commandCores cmd1).contains h)).foldl
    (fun q h => (q.retireSpans h (fun z => z.owner == .engine id)).dropSaved h (fun z => z.owner == .engine id)) s
  if cmd1.members.all (fun m => m.cancelled) then
    let s2 := (s1.dropPairs id).dropAccesses (fun f => f == .engine id)
    let s3 := { s2 with engine := s2.engine.erase id }.restoreCounts cmd
    match cmd.phase with
    | .pairs left => s3.dropLineage cmd left
    | .window _ => s3.dropLineage cmd (List.range cmd.pairsTable.length)
    | .saved => s3.dropLineage cmd (s3.openPairs cmd)
    | _ => s3
  else
    let s2 := if cmd1.engineCore = cmd.engineCore then s1 else s1.dropAccesses (fun f => f == .engine id)
    match cmd.phase with
    | .grant left =>
      let rest := left.filter (fun h => (s.commandCores cmd1).contains h)
      if rest.head? = left.head? then s2.setPhase id cmd1 (.grant rest) else s2.askEntry id cmd1 rest
    | _ => { s2 with engine := s2.engine.put id cmd1 }

/-- Members of a command end with a code, before its last piece (R320). -/
def State.failMembers (s : State) (id : Nat) (p : Member → Bool) (code : Nat) : State :=
  match s.engine.find id with
  | none => s
  | some cmd => (cmd.live.filter p).foldl (fun q m =>
      match q.engine.find id with
      | some g => (q.removeMember id g m.core m.entry).finishEntry m.core m.entry (completionWord 0 code)
      | none => q) s

/-- Fetches of a core's press commands end. -/
def State.dropFetches (s : State) (c : CoreId) (p : TileFetch → Bool) : State :=
  s.modCluster (clusterOf c) (fun u => { u with fetches := u.fetches.filter (fun f => !(f.pos == posOf c && p f)) })

/-- The flags that a command's work has raised so far (14_population R383). -/
def EngCmd.gathered (cmd : EngCmd) : Flags := cmd.work.foldl (fun f w => f ||| w.flags) cmd.flags

/-- Cancel the command of a completion entry (R332): the state and what HCAN writes. -/
def State.cancelCommand (s : State) (c : CoreId) (e : Nat) : State × Word :=
  let x := s.core c
  if x.press.queue.any (fun p => p.entry == e) then
    let s1 := (s.modCore c (fun x => { x with press := { x.press with queue := x.press.queue.filter (fun p => p.entry != e) } })).dropFetches c
      (fun f => f.entry == e)
    ((s1.finishEntry c e (completionWord 0 1)).wakeFor c (fun w => w == .pressFull || w == .epilogueBank), 0)
  else match s.commandOf c e with
    | some (id, cmd) =>
      if cmd.kind = 5 ∨ cmd.phase = .complete then (s, 2)
      else
        let d : Word := match cmd.member c e with | some m => if cmd.started m then 1 else 0 | none => 0
        ((s.removeMember id cmd c e).finishEntry c e (completionWord cmd.gathered 1), d)
    | none => (s, 2)

/-! ### HTST, HWAIT, HDET, HCAN (R330) -/

/-- What a token operation meets at the core of the entry: the state and the value answered, or none where HWAIT waits. -/
def State.tokenAct (s : State) (h : CoreId) (op tag e : Nat) : State × Option Word :=
  let q := (s.core h).entryAt e
  if q.tag.toNat ≠ tag then (s, some staleWord)
  else match q.st with
    | .running =>
      if op = 4 then (s, some runningWord)
      else if op = 7 then
        let r := s.cancelCommand h e
        (r.1, some r.2)
      else (s, none)
    | .finished v => (s.freeEntry h e, some (if op = 7 then 2 else v))
    | _ => (s, some staleWord)

/-- A token operation of the issuing thread on an entry of its own core, at MA1. -/
def State.tokenLocal (s : State) (op tag e : Nat) (d : Reg) (r : Retire) : State :=
  let c := s.curCore
  let k := s.curSlot
  match s.tokenAct c op tag e with
  | (s1, some v) =>
    let s2 := if op ≠ 7 ∧ isStatus v = true ∧ (s.core c).statusAnswer e = .collective then s1.acquire c k else s1
    (s2.putReg d v).done r
  | (s1, none) =>
    let use : ReplyUse := .word d false
    if (s1.core c).waiterRoom then
      ((s1.addWaiter c ⟨.entry e tag, c, k, (s.slot c k).gen⟩).modSlot c k Slot.addOut).blockAt c k (.reply use r (.query op tag e) c)
    else s1.blockAt c k (.retry use r (.query op tag e) c (s.fc + 256))

/-- A query of a token (R330): translated as a target of a message (08_messages R216), or local. -/
def State.queryToken (s : State) (op : Nat) (tok : Word) (d : Reg) (r : Retire) : State :=
  let c := s.curCore
  let k := s.curSlot
  let tag := bf tok 31 16
  let e := bf tok 5 0
  let core := bf tok 46 32
  if s.isOwnPkg (bf tok 61 50) then
    if core = s.virtual (s.partOf c k) c then s.tokenLocal op tag e d r
    else match s.coreTarget core with
      | .error q => s.takeFault c k ⟨0x13, q, tok, 0⟩
      | .ok (dst, held) => s.request c k dst held (.query op tag e) (.word d false) r
  else if s.isPeer (bf tok 61 50) then s.request c k (peerTarget (bf tok 61 50) core) none (.query op tag e) (.word d false) r
  else s.takeFault c k ⟨0x13, 1, tok, 0⟩

/-- The attached entry that a pending handle register names: its number, if the register holds the handle of one of this core. -/
def State.attachedEntry (s : State) (a : Reg) : Option Nat :=
  let h := s.reg a
  let e := bf h 5 0
  let q := (s.core s.curCore).entryAt e
  match q.st with
  | .attached k _ d => if bf h 63 62 = 3 ∧ bf h 55 40 = q.tag.toNat ∧ d = a ∧ (16 ≤ a.toNat ∨ k = s.curSlot) then some e else none
  | _ => none

/-- HTST d, a (R330): a pending register a answers RUNNING. -/
def execHtst (d a : Reg) (s : State) : Result :=
  let r : Retire := ⟨4, [d, a], 0⟩
  let v := s.reg a
  .next (s.unlessPending (if d = a then [] else scalars [d])
    (if s.anyPending (scalars [a]) then (s.putReg d runningWord).done r
     else if isToken v then s.queryToken 4 v d r
     else if isStatus v then (s.putReg d v).done r
     else (s.putReg d staleWord).done r))

/-- HWAIT d, a (R330): blocks on a pending a, then waits at the home of a token. -/
def execHwait (d a : Reg) (s : State) : Result :=
  let r : Retire := ⟨4, [d, a], 0⟩
  let v := s.reg a
  .next (s.unlessPending (scalars [d, a])
    (if isToken v then s.queryToken 5 v d r
     else if isStatus v then (s.putReg d v).done r
     else (s.putReg d staleWord).done r))

/-- HDET d, a (R330): the entry becomes DETACHED-RUNNING, and a and d receive the token at WB; what names a issues again after it. -/
def execHdet (d a : Reg) (s : State) : Result :=
  let c := s.curCore
  let k := s.curSlot
  let r : Retire := ⟨4, [d, a], 0⟩
  let v := s.reg a
  .next (s.unlessPending (if d = a then [] else scalars [d])
    (if s.anyPending (scalars [a]) then
       (match s.attachedEntry a with
        | some e =>
          let q := (s.core c).entryAt e
          let owner := match q.st with | .attached k' g _ => (k', g) | _ => (k, s.cur.gen)
          let tok := tokenWord s.pkgNo (s.virtual (s.partOf c k) c) q.tag e
          let s1 := (s.modCore c (fun x => x.setEntry e ⟨q.tag, .running⟩)).modSlot c owner.1 (fun t => t.subOut owner.2)
          let s2 := (setPending (s1.putReg a tok) c k a false).putReg d tok
          (s2.wakePending c k a 8).done r
        | none => (s.putReg d staleWord).done r)
     else if isToken v || isStatus v then (s.putReg d v).done r
     else (s.putReg d staleWord).done r))

/-- HCAN d, a (R330, R332). -/
def execHcan (d a : Reg) (s : State) : Result :=
  let r : Retire := ⟨4, [d, a], 0⟩
  let v := s.reg a
  .next (s.unlessPending (if d = a then [] else scalars [d])
    (if s.anyPending (scalars [a]) then
       (match s.attachedEntry a with
        | some e =>
          let q := s.cancelCommand s.curCore e
          (q.1.putReg d q.2).done r
        | none => (s.putReg d staleWord).done r)
     else if isToken v then s.queryToken 7 v d r
     else if isStatus v then (s.putReg d 2).done r
     else (s.putReg d staleWord).done r))

end Sys2Proof.Machine
end

