-- ==== Sys2Proof/Machine/Copies.lean ====
section
/-! DEFINITION. Copies, PUBLISH and PUSHT, from the descriptor to the completion (12_engines R315-R326, R339), and MCRD and MCWR
(R336, R337). -/

namespace Sys2Proof.Machine

/-! ### Descriptors (R316, R317) -/

/-- A signed 32-bit field. -/
def field32 (w : Word) (hi lo : Nat) : Int := sintN (bf w hi lo) 32

/-- A copy descriptor of form 0 CPY, 1 CPYG, 2 CPYS, as its doublewords. -/
structure CopyDesc where
  src : Word
  dst : Word
  len : Nat
  boff : Nat
  sbuf : Bool
  dbuf : Bool
  nomerge : Bool
  units : Nat
  offsets : List (Int × Int)
deriving DecidableEq, Repr

/-- Source and destination offsets of the rows. -/
def copyOffsets (form : Nat) (ws : List Word) : List (Int × Int) :=
  let g := fun (i : Nat) => ws.getD i 0
  match form with
  | 0 => [(0, 0)]
  | 1 => (List.range (bf (g 4) 15 0)).map (fun (r : Nat) => ((r : Int) * field32 (g 5) 31 0, (r : Int) * field32 (g 5) 63 32))
  | _ => (List.range (bf (g 4) 4 0)).map (fun j => (field32 (g (5 + j)) 31 0, field32 (g (5 + j)) 63 32))

/-- The descriptor that doublewords hold. -/
def copyDesc (form : Nat) (ws : List Word) : CopyDesc :=
  let g := fun (i : Nat) => ws.getD i 0
  ⟨g 0, g 1, bf (g 2) 31 0, bf (g 2) 63 32, bit (g 3) 0, bit (g 3) 1, bit (g 3) 2, bf (g 3) 39 8, copyOffsets form ws⟩

/-- A row lies in a buffer of the given units. -/
def CopyDesc.inBuffer (q : CopyDesc) (off : Int) : Bool :=
  decide (0 ≤ (q.boff : Int) + off ∧ (q.boff : Int) + off + q.len ≤ 256 * q.units)

/-- Check 2 of R318. -/
def copyFormatOk (form : Nat) (ws : List Word) : Bool :=
  let g := fun (i : Nat) => ws.getD i 0
  let q := copyDesc form ws
  let n := q.offsets.length
  decide (q.len % 8 = 0 ∧ 8 ≤ q.len ∧ q.len ≤ 0x1000000 ∧ q.boff % 8 = 0 ∧ bf (g 3) 7 3 = 0 ∧ bf (g 3) 63 40 = 0)
    && decide (1 ≤ n ∧ n * q.len ≤ 0x1000000)
    && (match form with
        | 0 => true
        | 1 => decide (bf (g 4) 63 16 = 0) && decide (bf (g 5) 2 0 = 0 ∧ bf (g 5) 34 32 = 0)
        | _ => decide (n ≤ 24 ∧ bf (g 4) 63 5 = 0) && (List.range n).all (fun j => decide (bf (g (5 + j)) 2 0 = 0 ∧ bf (g (5 + j)) 34 32 = 0)))
    && !(q.sbuf && q.dbuf) && !((q.sbuf || q.dbuf) && decide (q.units = 0))
    && (!q.sbuf || q.offsets.all (fun o => q.inBuffer o.1)) && (!q.dbuf || q.offsets.all (fun o => q.inBuffer o.2))

/-- A base moved by a signed offset. -/
def moveBase (base : Word) (off : Int) : Word := base + BitVec.ofInt 64 off

/-- The segmented source and destination of a row; on a buffer side the row's place in backing 0 (R319). -/
def CopyDesc.rowSrc (q : CopyDesc) (o : Int × Int) : Word :=
  if q.sbuf then moveBase q.src (256 + (q.boff : Int) + o.1) else moveBase q.src o.1
def CopyDesc.rowDst (q : CopyDesc) (o : Int × Int) : Word :=
  if q.dbuf then moveBase q.dst (256 + (q.boff : Int) + o.2) else moveBase q.dst o.2

/-- Bytes from a buffer's header to the end of its backings. -/
def CopyDesc.bufferBytes (q : CopyDesc) : Nat := 256 + 512 * q.units

/-! ### Checks 3 and 4 (R318) -/

/-- The form of one range of an engine command: no alignment, its rights, every class but 3; only the first byte's capacity. -/
def engineForm (n right : Nat) : Form := ⟨1, n, [rightE, right], false, true, false, 1⟩

/-- A range of a command (07_access R185, orders 2-4): what it names. An unprivileged one may not enter the spill area of a core with
lending (03_strands R96). -/
def State.engineRange (s : State) (a : Word) (n right : Nat) : Except FaultInfo GaTarget :=
  match s.checkAccess s.curCore s.curSlot a (engineForm n right) with
  | .ok (.scratch h off) =>
    if (s.core h).lend && s.cur.level == 0 && inSpillArea off n then .error ⟨0x12, 8, s.cur.segGa a, 0⟩ else .ok (.scratch h off)
  | r => r

/-- The ranges of check 3, in its order: each row's source and destination, then the whole buffer. -/
def CopyDesc.ranges (q : CopyDesc) : List (Word × Nat × Nat) :=
  q.offsets.flatMap (fun o =>
    (if q.sbuf then [] else [(q.rowSrc o, q.len, rightR)]) ++ (if q.dbuf then [] else [(q.rowDst o, q.len, rightW)]))
  ++ (if q.sbuf then [(q.src, q.bufferBytes, rightR)] else []) ++ (if q.dbuf then [(q.dst, q.bufferBytes, rightW)] else [])

/-- A GA in class 3: a copy refuses it only in check 4 (R318). -/
def State.namesControl (s : State) (a : Word) : Bool := gaClass (s.cur.segGa a) == 3

/-- The first fault of check 3 in a list of ranges. -/
def State.firstRangeFault (s : State) : List (Word × Nat × Nat) → Option FaultInfo
  | [] => none
  | (a, n, right) :: rest =>
    match s.engineRange a n right with
    | .error f => if s.namesControl a ∧ f.cls = 0x13 ∧ f.detail = 0 then s.firstRangeFault rest else some f
    | .ok _ => s.firstRangeFault rest

/-- The half-open byte range of a target in one scratchpad: the core, by its physical or, while held, its virtual number. -/
def GaTarget.scratchRange (c : CoreId) (n : Nat) : GaTarget → Option (CoreId × Nat × Nat)
  | .self off => some (c, off, off + n)
  | .scratch h off => some (h, off, off + n)
  | .held v off => some (65536 + v, off, off + n)
  | _ => none

/-- The scratchpad range of a segmented address of the issuing thread; of a core in another package, by package and coordinate. -/
def State.scratchRange (s : State) (a : Word) (n : Nat) : Option (CoreId × Nat × Nat) :=
  let ga := s.cur.segGa a
  match s.gaTarget s.curCore (s.partOf s.curCore s.curSlot) ga 1 with
  | .foreign p => if gaClass ga = 0 then some (131072 + p * 32768 + gaCore ga, bf ga 32 0, bf ga 32 0 + n) else none
  | t => t.scratchRange s.curCore n

/-- A range runs past the end of its core's scratchpad. -/
def rangeCrosses (z : CoreId × Nat × Nat) : Bool := decide ((if z.1 < 65536 then scratchSize z.1 else 0x80000) < z.2.2)

/-- Two ranges overlap in one scratchpad. -/
def rangesMeet (x y : CoreId × Nat × Nat) : Bool := decide (x.1 = y.1 ∧ x.2.1 < y.2.2 ∧ y.2.1 < x.2.2)

/-- Check 4 of R318. A named buffer's header is a 256-aligned class-1 address (R321; log 18, DEDUCED). -/
def State.copyPlaceFault (s : State) (q : CopyDesc) : Option FaultInfo :=
  let t := s.cur
  let plainDst := q.offsets.map (fun o => t.segGa (q.rowDst o))
  let header := if q.sbuf then some (t.segGa q.src) else if q.dbuf then some (t.segGa q.dst) else none
  let badHeader := match header with | some ga => gaClass ga != 1 || ga.toNat % 256 != 0 | none => false
  let srcs := if q.sbuf then [] else q.offsets.filterMap (fun o => s.scratchRange (q.rowSrc o) q.len)
  let dsts := if q.dbuf then [] else q.offsets.filterMap (fun o => s.scratchRange (q.rowDst o) q.len)
  match q.ranges.find? (fun z => s.namesControl z.1) with
  | some z => some ⟨0x13, 0, t.segGa z.1, 0⟩
  | none =>
  if badHeader || (!q.dbuf && plainDst.any (fun ga => gaClass ga == 1)) then some ⟨0x34, 0, (plainDst.getD 0 0), 0⟩
  else if (srcs ++ dsts).any rangeCrosses then some ⟨0x15, 0, t.segGa q.dst, 0⟩
  else if srcs.any (fun x => dsts.any (rangesMeet x)) then some ⟨0x35, 0, t.segGa q.dst, 0⟩
  else none

/-! ### Check 5: translation (07_access R208) -/

/-- The 64 KiB granules of a range of a memory class, with the access kind. -/
def State.granules (s : State) (part : Option Nat) (c : CoreId) (ga : Word) (n access : Nat) : List (Word × Nat) :=
  match s.gaTarget c part ga 1 with
  | .mem _ _ => (pagesOf (ga.toNat % 2 ^ 48) n).map (fun p => (BitVec.ofNat 64 (ga.toNat / 2 ^ 48 * 2 ^ 48 + p % 2 ^ 48), access))
  | _ => []

/-- What translating a list of granules meets: the pages touched, or the first failure with its address and kind. -/
inductive Scan where
  | pages (l : List (Nat × Nat))
  | stop (ga : Word) (access : Nat) (t : Trans)
deriving DecidableEq, Repr

/-- Translate granules through the TLB, gathering the distinct pages of either size. -/
def State.scanGranules (s : State) (c : CoreId) (k : Nat) : List (Word × Nat) → List (Nat × Nat) → Scan
  | [], l => .pages l
  | (ga, access) :: rest, l =>
    let cls := gaClass ga
    let va : BitVec 48 := BitVec.ofNat 48 ga.toNat
    match s.translate c k cls va access with
    | .ok _ =>
      let page := match (s.cluster (clusterOf c)).leafFor c k (s.slot c k).gen cls va with
        | some e => (cls * 2 + e.big.toNat, e.vbase)
        | none => (cls * 2, va.toNat / 2 ^ 16)
      s.scanGranules c k rest (if l.contains page then l else page :: l)
    | t => .stop ga access t

/-- Every listed page's translation succeeded (07_access R207, R212). -/
def State.allPagesOk (s : State) (c : CoreId) (k : Nat) (gs : List (Word × Nat)) : State :=
  gs.foldl (fun q g => (q.touchPage c k (gaClass g.1) (BitVec.ofNat 48 g.1.toNat)).pageOk c (gaClass g.1) (BitVec.ofNat 48 g.1.toNat)) s

/-- Go on with a command once every page it touches is translated: a miss walks, a fault parks, more than 64 pages fault with
"translation limit" (R208). Of a command with both, the manual does not say which is reported: it is the page fault (log 68, DESIGN CHOICE). -/
def State.withPages (s : State) (gs : List (Word × Nat)) (body : State → State) : State :=
  let c := s.curCore
  let k := s.curSlot
  match s.scanGranules c k gs [] with
  | .pages l => if 64 < l.length then s.takeFault c k ⟨0x19, 0, (gs.getD 0 (0, 0)).1, BitVec.ofNat 64 l.length⟩ else body (s.allPagesOk c k gs)
  | .stop ga access t =>
    let cls := gaClass ga
    let va : BitVec 48 := BitVec.ofNat 48 ga.toNat
    match t with
    | .fault cause level => s.pageFault c k cls va ga access cause level
    | _ => s.startWalk cls va access ga

/-! ### Places and stretches -/

/-- The place a GA names for a member of a partition, with a given translation of the memory classes. -/
def State.place (s : State) (c : CoreId) (part : Option Nat) (tr : Nat → BitVec 48 → Nat → Trans) (ga : Word) (access : Nat) : Place :=
  match s.gaTarget c part ga 1 with
  | .self off => if isCompute c && part.isSome then .virt (s.virtual part c) off else .at_ (scratchAddr c off)
  | .scratch h off => if part.isSome then .virt (gaCore ga) off else .at_ (scratchAddr h off)
  | .held v off => .virt v off
  | .mem cls va => (match tr cls va access with | .ok pa => .at_ pa | _ => .foreign ga)
  | _ => .foreign ga

/-- Bytes left in the 64 KiB granule of a GA. -/
def granuleRoom (ga : Word) : Nat := 0x10000 - ga.toNat % 0x10000

/-- Cut a row into stretches that cross no granule boundary on either side or in backing 1 of a buffer. -/
def cutRow (srcAt dstAt : Word → Place) (sbuf : Bool) (altOf : Word → Word → Option Word) : (fuel : Nat) → (src dst : Word) → (len : Nat) → List Stretch
  | 0, _, _, _ => []
  | fuel + 1, src, dst, len =>
    if len = 0 then []
    else
      let alt := altOf src dst
      let room := min (granuleRoom src) (granuleRoom dst)
      let n := min len (match alt with | some a => min room (granuleRoom a) | none => room)
      ⟨srcAt src, dstAt dst, (match alt with | some a => if sbuf then srcAt a else dstAt a | none => .at_ 0), n⟩
        :: cutRow srcAt dstAt sbuf altOf fuel (src + BitVec.ofNat 64 n) (dst + BitVec.ofNat 64 n) (len - n)

/-- Where the buffer side of a row lies in backing 1. -/
def bufferAlt (sbuf dbuf : Bool) (units : Nat) (src dst : Word) : Option Word :=
  if sbuf then some (src + BitVec.ofNat 64 (256 * units)) else if dbuf then some (dst + BitVec.ofNat 64 (256 * units)) else none

/-- The stretches of a member's rows. -/
def State.stretchesOf (s : State) (c : CoreId) (part : Option Nat) (tr : Nat → BitVec 48 → Nat → Trans) (sbuf dbuf : Bool) (units : Nat)
    (rows : List CopyRow) : List Stretch :=
  rows.flatMap (fun r =>
    cutRow (fun ga => s.place c part tr ga 3) (fun ga => s.place c part tr ga 4) sbuf (bufferAlt sbuf dbuf units) (r.len + 1) r.src r.dst r.len)

/-! ### Accepting a command -/

/-- A thread as a member of a command. -/
def State.memberAt (s : State) (c : CoreId) (k entry : Nat) (rows : List CopyRow) (stretches : List Stretch) : Member :=
  let t := s.slot c k
  ⟨c, k, t.gen, entry, s.vtid c k, t.rcbptr, s.partOf c k, t.pc, (s.core c).cycle, rows, stretches, false, false⟩

/-- The issuing thread as a member of a command. -/
def State.newMember (s : State) (entry : Nat) (rows : List CopyRow) (stretches : List Stretch) : Member :=
  s.memberAt s.curCore s.curSlot entry rows stretches

/-- A command with nothing but its kind, phase, member and descriptor. -/
def EngCmd.start (kind : Nat) (phase : Phase) (m : Member) (desc : List Word) (level : Nat) : EngCmd :=
  ⟨kind, phase, [m], desc, false, false, .at_ 0, 0, 0, true, [], none, 0, 0, [], level, 0, none, false, [], none, none⟩

/-- Add a command in progress. -/
def State.addCommand (s : State) (cmd : EngCmd) : State :=
  { s with engine := s.engine.put s.nextCmd cmd, nextCmd := s.nextCmd + 1 }

/-- Two members read the same source and write class-0 destinations at equal offsets (R322). -/
def sameStretches : List Stretch → List Stretch → Bool
  | [], [] => true
  | x :: xs, y :: ys =>
    let dst := match x.dst, y.dst with
      | .virt _ o, .virt _ p => o == p
      | .at_ a, .at_ b => addrClass a == 0 && addrClass b == 0 && scratchOff a == scratchOff b
      | _, _ => false
    x.src == y.src && x.alt == y.alt && x.len == y.len && dst && sameStretches xs ys
  | _, _ => false

/-- An open group that a command of this core may join (R322): it arrives within WIN cycles of the command that opened it, both told by the cycles in
which they issue, and their descriptors differ in nothing but the destination, which lies at equal offsets (log 70, DEDUCED). -/
def State.openGroup (s : State) (c : CoreId) (cmd : EngCmd) (m : Member) : Option (Nat × EngCmd) :=
  s.engine.find? (fun q =>
    let g := q.2
    match g.phase, g.members with
    | .window due, o :: _ =>
      g.kind == 0 && !g.nomerge && !cmd.nomerge && clusterOf o.core == clusterOf c && decide (o.issued ≤ m.issued ∧ m.issued + 8 ≤ due)
        && !(g.live.any (fun x => x.core == c)) && g.desc.length == cmd.desc.length
        && g.desc.eraseIdx 2 == cmd.desc.eraseIdx 2 && sameStretches o.stretches m.stretches && !g.dbuf
    | _, _ => false)

/-- An accepted copy takes its entry and opens or joins a group (R319, R322). -/
def State.acceptCopy (s : State) (form e : Nat) (d a : Reg) (q : CopyDesc) (ws : List Word) (rows : List CopyRow) (header : Word) : State :=
  let c := s.curCore
  let k := s.curSlot
  let part := s.partOf c k
  let tr := fun cls va access => s.translate c k cls va access
  let m := s.newMember e rows (s.stretchesOf c part tr q.sbuf q.dbuf q.units rows)
  let cmd0 := EngCmd.start 0 (.window (s.now + 8 + bf (s.core c).mrgwin 5 0)) m (BitVec.ofNat 64 form :: ws) s.cur.level
  let cmd := { cmd0 with sbuf := q.sbuf, dbuf := q.dbuf, units := q.units, nomerge := q.nomerge, hga := header,
                         header := if q.sbuf || q.dbuf then s.place c part tr header (if q.sbuf then 3 else 4) else .at_ 0 }
  let s1 := s.takeEntry c k e d 0
  let s2 := match s.openGroup c cmd m with
    | some (id, g) => { s1 with engine := s1.engine.put id { g with members := g.members ++ [m] } }
    | none => s1.addCommand cmd
  s2.done ⟨4, [d, a], 0⟩

/-- The granules of check 5: those of each row, then of the whole buffer. -/
def State.copyGranules (s : State) (q : CopyDesc) (rows : List CopyRow) (header : Word) : List (Word × Nat) :=
  let c := s.curCore
  let part := s.partOf c s.curSlot
  rows.flatMap (fun z =>
      (if q.sbuf then [] else s.granules part c z.src z.len 3) ++ (if q.dbuf then [] else s.granules part c z.dst z.len 4))
    ++ (if q.sbuf then s.granules part c header q.bufferBytes 3 else [])
    ++ (if q.dbuf then s.granules part c header q.bufferBytes 4 else [])

/-- Checks 2 to 5 of R318 on a descriptor that has been read. -/
def State.checkCopy (s : State) (form : Nat) (base : Word) (ws : List Word) (body : State → CopyDesc → List CopyRow → Word → State) : State :=
  let c := s.curCore
  let k := s.curSlot
  let t := s.cur
  let q := copyDesc form ws
  if !copyFormatOk form ws then s.takeFault c k ⟨0x34, 0, base, 0⟩
  else match s.firstRangeFault q.ranges with
    | some f => s.takeFault c k f
    | none =>
      match s.copyPlaceFault q with
      | some f => s.takeFault c k f
      | none =>
        let rows := q.offsets.map (fun o => (⟨t.segGa (q.rowSrc o), t.segGa (q.rowDst o), q.len⟩ : CopyRow))
        let header := if q.sbuf then t.segGa q.src else t.segGa q.dst
        s.withPages (s.copyGranules q rows header) (fun s => body s q rows header)

/-- CPY, CPYG, CPYS (R315-R322): form 0, 1, 2. -/
def State.copyOp (s : State) (form : Nat) (d a : Reg) : State :=
  let c := s.curCore
  let k := s.curSlot
  let base := s.reg a
  let first := if form = 0 then 32 else if form = 1 then 48 else 40
  s.unlessPending (scalars [d, a]) (s.withEntry (fun e =>
    match s.checkOwn c k base 8 first [rightR] 0x21 with
    | .error f => s.takeFault c k f
    | .ok pa =>
      if s.isHeld pa first then s.holdLocal pa first
      else
        let n := if form = 2 then bf (s.readWord (pa + 32)) 4 0 else 0
        let bytes := if form = 2 ∧ n ≤ 24 then 40 + 8 * n else first
        match s.checkOwn c k base 8 bytes [rightR] 0x21 with
        | .error f => s.takeFault c k f
        | .ok _ =>
          if s.isHeld pa bytes then s.holdLocal pa bytes
          else
            let ws := s.readWords pa (bytes / 8)
            s.checkCopy form base ws (fun s q rows header => s.acceptCopy form e d a q ws rows header)))

/-- CPY d, [a] (R315). -/
def execCpy (d a : Reg) (s : State) : Result := .next (s.copyOp 0 d a)

/-- CPYG d, [a] (R315). -/
def execCpyg (d a : Reg) (s : State) : Result := .next (s.copyOp 1 d a)

/-- CPYS d, [a] (R315). -/
def execCpys (d a : Reg) (s : State) : Result := .next (s.copyOp 2 d a)

/-- PUBLISH d, [a], b (R326): with a b field of 0 a flip, otherwise the format form. -/
def execPublish (d a b : Reg) (s : State) : Result :=
  let c := s.curCore
  let k := s.curSlot
  let units := bf (s.reg b) 31 0
  let base := s.reg a
  .next (s.unlessPending (scalars [d, a, b]) (s.withEntry (fun e =>
    if b ≠ 0 ∧ units = 0 then s.takeFault c k ⟨0x34, 0, base, 0⟩
    else match s.engineRange base 64 rightW with
      | .error f => s.takeFault c k f
      | .ok _ =>
        let ga := s.cur.segGa base
        if gaClass ga ≠ 1 ∨ ga.toNat % 256 ≠ 0 then s.takeFault c k ⟨0x34, 0, ga, 0⟩
        else
          let part := s.partOf c k
          s.withPages (s.granules part c ga 64 4) (fun s =>
            let tr := fun cls va access => s.translate c k cls va access
            let m := s.newMember e [⟨ga, ga, 64⟩] []
            let cmd := { EngCmd.start 1 .header m [BitVec.ofNat 64 (if b = 0 then 0 else 1), BitVec.ofNat 64 units] s.cur.level with
                         header := s.place c part tr ga 4, hga := ga }
            ((s.takeEntry c k e d 1).addCommand cmd).done ⟨4, [d, a, b], 0⟩))))

/-! ### PUSHT (R339) -/

/-- The virtual cores of a rectangle. -/
def pushCores (w : Word) : List CoreId :=
  let n := fun (x : Nat) => if x = 0 then 32 else x
  (List.range (n (bf w 19 15))).flatMap (fun i =>
    (List.range (n (bf w 24 20))).map (fun j => coreAt (bf w 4 0) (bf w 9 5 + i) (bf w 14 10 + j)))

/-- Check 2 of a push descriptor. -/
def pushFormatOk (ws : List Word) : Bool :=
  let g := fun (i : Nat) => ws.getD i 0
  let len := bf (g 1) 31 0
  decide (len % 8 = 0 ∧ 8 ≤ len ∧ len ≤ 4096 ∧ bf (g 1) 63 32 = 0 ∧ bf (g 2) 2 0 = 0 ∧ bf (g 2) 63 19 = 0 ∧ bf (g 3) 63 25 = 0)

/-- The addresses of a rectangle fail (R339): it leaves its die, or names a core outside the partition. -/
def State.pushFault (s : State) (part : Option Nat) (ws : List Word) : Option FaultInfo :=
  let g := fun (i : Nat) => ws.getD i 0
  let w := g 3
  let n := fun (x : Nat) => if x = 0 then 32 else x
  if 32 < bf w 9 5 + n (bf w 19 15) ∨ 32 < bf w 14 10 + n (bf w 24 20) ∨ 16 ≤ bf w 4 0 then some ⟨0x13, 2, g 3, 0⟩
  else match part with
    | none => none
    | some p => if (pushCores w).any (fun v => s.xlate p v == .outside) then some ⟨0x13, 4, g 3, 0⟩ else none

/-- PUSHT d, [a] (R339). -/
def execPusht (d a : Reg) (s : State) : Result :=
  let c := s.curCore
  let k := s.curSlot
  let base := s.reg a
  .next (s.unlessPending (scalars [d, a]) (s.withEntry (fun e =>
    match s.checkOwn c k base 8 32 [rightR] 0x21 with
    | .error f => s.takeFault c k f
    | .ok pa =>
      if s.isHeld pa 32 then s.holdLocal pa 32
      else
        let ws := s.readWords pa 4
        let len := bf (ws.getD 1 0) 31 0
        if !pushFormatOk ws then s.takeFault c k ⟨0x34, 0, base, 0⟩
        else match s.engineRange (ws.getD 0 0) len rightR with
          | .error f => s.takeFault c k f
          | .ok (.self off) =>
            let part := s.partOf c k
            match s.pushFault part ws with
            | some f => s.takeFault c k f
            | none =>
              if scratchSize c < off + len then s.takeFault c k ⟨0x15, 0, s.cur.segGa (ws.getD 0 0), 0⟩
              else if 0x80000 < bf (ws.getD 2 0) 18 0 + len then s.takeFault c k ⟨0x15, 0, ws.getD 2 0, 0⟩
              else
                let z := (pushCores (ws.getD 3 0)).map (fun v =>
                  (⟨.at_ (scratchAddr c off), .virt v (bf (ws.getD 2 0) 18 0), .at_ 0, len⟩ : Stretch))
                let m := s.newMember e [] z
                ((s.takeEntry c k e d 3).addCommand (EngCmd.start 3 (.window s.now) m ws s.cur.level)).done ⟨4, [d, a], 0⟩
          | .ok _ => s.takeFault c k ⟨0x21, 0, s.cur.segGa (ws.getD 0 0), 0⟩)))

/-! ### Device steps of a command -/

/-- Every granule that a command's ranges touch. -/
def State.commandGranules (s : State) (cmd : EngCmd) : List (Word × Nat) :=
  let head := 256 + 512 * cmd.units
  cmd.members.flatMap (fun m =>
    (if cmd.kind = 1 then s.granules m.part m.core cmd.hga 64 4
     else (m.rows.flatMap (fun z =>
        (if cmd.sbuf then [] else s.granules m.part m.core z.src z.len 3) ++ (if cmd.dbuf then [] else s.granules m.part m.core z.dst z.len 4)))
      ++ (if cmd.sbuf then s.granules m.part m.core cmd.hga head 3 else [])
      ++ (if cmd.dbuf then s.granules m.part m.core cmd.hga head 4 else [])))

/-- A command is complete with a code; its status is still to be delivered. -/
def State.completeCommand (s : State) (id : Nat) (cmd : EngCmd) (code : Nat) : State :=
  let s1 := (s.commandCores cmd).foldl (fun q h => q.retireSpans h (fun z => z.owner == .engine id)) s
  { s1 with engine := s1.engine.put id { cmd with phase := .complete, code := code } }

/-- MERGE_WINDOW_END (R322): the group's wait is over; a buffer's header comes first, then the entries. -/
def execMergeWindowEnd (id : Nat) (s : State) : Result :=
  .next (match s.engine.find id with
    | some cmd =>
      (match cmd.phase, cmd.live with
       | .window due, m :: _ =>
         if cmd.kind ≠ 4 ∧ due ≤ (s.core m.core).cycle ∧ s.mapped cmd = true then
           (if cmd.sbuf || cmd.dbuf then s.setPhase id cmd .header else s.askEntry id cmd (s.commandCores cmd))
         else s
       | _, _ => s)
    | none => s)

/-- A PUBLISH waits at this header, from before a step. -/
def State.publishWaits (s : State) (pa before : Nat) : Bool :=
  s.engine.any (fun q => match q.2.phase with | .publishing n => decide (n < before) && q.2.header == .at_ pa | _ => false)

/-- The home holds the access of a command to its header: a writer while a PUBLISH waits or the back backing has readers (R319), a PUBLISH that
formats behind one that waits (R326). -/
def State.headerHeld (s : State) (cmd : EngCmd) (pa : Nat) : Bool :=
  if cmd.kind = 1 then cmd.desc.getD 0 0 != 0 && s.publishWaits pa s.tick
  else cmd.dbuf && (s.publishWaits pa s.tick || s.headerRd pa (1 - s.headerFront pa) != 0)

/-- A header is formatted for backings of n units (R326). -/
def State.formatHeader (s : State) (pa n : Nat) : State := s.writeWords pa [0, BitVec.ofNat 64 (n * 256), 0]

/-- FRONT of a header flips and VERSION advances (R326). -/
def State.flipHeader (s : State) (pa : Nat) : State :=
  let w := s.readWord pa
  s.writeWord pa (setf (setf w 0 0 (1 - bf w 0 0)) 63 32 (bf w 63 32 + 1))

/-- What the home of a header does for a command (R319, R320, R326): a PUBLISH formats or begins to wait, a reader samples FRONT and is counted, a
writer takes the back backing and is counted. -/
def State.headerAct (s : State) (id : Nat) (cmd : EngCmd) (pa : Nat) : State :=
  if s.headerHeld cmd pa then s
  else if cmd.kind = 1 then
    (if cmd.desc.getD 0 0 = 0 then s.setPhase id cmd (.publishing s.tick)
     else if bf (s.readWord (pa + 16)) 47 0 ≠ 0 then s.completeCommand id cmd 6
     else (s.formatHeader pa (bf (cmd.desc.getD 1 0) 31 0)).completeCommand id cmd 0)
  else if bf (s.readWord (pa + 8)) 39 0 ≠ 256 * cmd.units then s.completeCommand id cmd 6
  else if cmd.sbuf then
    let cmd1 := { cmd with front := s.headerFront pa }
    (s.bumpRd pa cmd1.front 1).askEntry id cmd1 (s.commandCores cmd1)
  else
    let cmd1 := { cmd with front := 1 - s.headerFront pa }
    (s.bumpHeader pa 47 32 1).askEntry id cmd1 (s.commandCores cmd1)

/-- The access to a header in another package leaves for it, and how it ends there is a free value (log 19, DESIGN CHOICE). -/
def State.foreignHeader (s : State) (id : Nat) (cmd : EngCmd) (ga : Word) : State :=
  let op := if cmd.kind = 1 then (if cmd.desc.getD 0 0 = 0 then 3 else 4) else if cmd.sbuf then 1 else 2
  let n := if cmd.kind = 1 then bf (cmd.desc.getD 1 0) 31 0 else cmd.units
  let x := (Config.freeWord s.free).toNat
  let code := [0, 2, 5, 6].getD (x % 4) 0
  let s1 := s.fresh.toPeer cmd ga (.engine op ga n)
  if cmd.kind = 1 then s1.completeCommand id cmd code
  else if code = 0 then s1.askEntry id { cmd with front := x / 4 % 2 } (s.commandCores cmd)
  else s1.failMembers id (fun _ => true) code

/-- BUFFER_HEADER_ACCESS (R319, R326). -/
def execBufferHeaderAccess (id : Nat) (s : State) : Result :=
  .next (match s.engine.find id with
    | some cmd =>
      (match cmd.phase, cmd.header with
       | .header, .at_ pa =>
         if !s.answers cmd.enginePart cmd.engineCore (homeOf pa) then s.failMembers id (fun _ => true) 5
         else if s.headerHeld cmd pa || s.engineWaits cmd.engineCore (homeOf pa) then s
         else s.throughChannel cmd.engineCore (.engine id) pa (fun s => s.headerAct id cmd pa)
       | .header, .foreign ga =>
         if !s.peerOpen (gaPkg ga) then s.failMembers id (fun _ => true) 5
         else if s.portDrains (gaPkg ga) then s
         else s.foreignHeader id cmd ga
       | _, _ => s)
    | none => s)

/-- PUBLISH_FLIP (R326): once earlier writers have retired, FRONT flips and VERSION advances. -/
def execPublishFlip (id : Nat) (s : State) : Result :=
  .next (match s.engine.find id with
    | some cmd =>
      (match cmd.phase, cmd.header with
       | .publishing n, .at_ pa =>
         if s.headerWr pa ≠ 0 ∨ s.publishWaits pa n = true then s
         else s.throughChannel cmd.engineCore (.engine id) pa (fun s => (s.flipHeader pa).completeCommand id cmd 0)
       | _, _ => s)
    | none => s)

/-- The entry of a request has been granted to its owner: a copy asks for its next core, or begins to move; a pair begins to move. An owner that is
gone gives it back. -/
def State.spanGranted (s : State) (h : CoreId) (z : Span) : State :=
  match z.owner with
  | .press => s
  | .engine id =>
    (match s.engine.find id with
     | some cmd =>
       (match cmd.phase with
        | .grant left => s.askEntry id { cmd with members := cmd.members.map (fun m => if (s.memberCores m).contains h then { m with granted := true } else m) }
            (left.drop 1)
        | _ => s.retireSpans h (fun y => y.id == z.id))
     | none => s.retireSpans h (fun y => y.id == z.id))
  | .pair id i =>
    (match s.engine.find id with
     | some cmd => { s with engine := s.engine.put id { cmd with granted := true, work := cmd.work.map (fun w => if w.pair = i then { w with next := some 0 } else w) } }
     | none => s.retireSpans h (fun y => y.id == z.id))

/-- The command of a request names a core that is not mapped now, or a link on its way retrains: it waits (07_access R202; 16_package R445). -/
def State.spanWaits (s : State) (h : CoreId) (z : Span) : Bool :=
  match z.owner with
  | .engine id => (match s.engine.find id with | some cmd => !s.mapped cmd || s.engineWaits cmd.engineCore h | none => false)
  | _ => false

/-- SCOREBOARD_GRANT (R324): the oldest request of a core is granted once no active entry overlaps it and one is free. -/
def execScoreboardGrant (h : Nat) (s : State) : Result :=
  let x := s.core h
  .next (match x.sbWait with
    | [] => s
    | z :: rest =>
      if !x.canGrant z.lo z.hi || s.midAccess h z.lo z.hi || s.isStopped h || s.spanWaits h z then s
      else (s.modCore h (fun x => { x with sbWait := rest, sb := x.sb ++ [z] })).spanGranted h z)

/-- The stretch that holds byte position n of a list, and the offset in it. -/
def stretchAt : List Stretch → Nat → Option (Stretch × Nat)
  | [], _ => none
  | z :: rest, n => if n < z.len then some (z, n) else stretchAt rest (n - z.len)

/-- Bytes of a list of stretches. -/
def stretchBytes (l : List Stretch) : Nat := l.foldl (fun n z => n + z.len) 0

/-- A place moved by n bytes. -/
def Place.plus (p : Place) (n : Nat) : Place :=
  match p with
  | .at_ a => .at_ (a + n)
  | .virt v off => .virt v (off + n)
  | .foreign ga => .foreign (ga + BitVec.ofNat 64 n)

/-- The low three bits of a place. -/
def Place.low (p : Place) : Nat :=
  match p with
  | .at_ a => a % 8
  | .virt _ off => off % 8
  | .foreign ga => ga.toNat % 8

/-- One destination of a piece: the member, where, and which of its bytes. -/
structure PiecePart where
  member : Member
  place : Place
  first : Nat
  len : Nat
deriving DecidableEq, Repr

/-- Source and destination of a place in a stretch, by the backing that the command took. -/
def EngCmd.srcOf (cmd : EngCmd) (z : Stretch) (o : Nat) : Place := if cmd.sbuf && cmd.front == 1 then z.alt.plus o else z.src.plus o
def EngCmd.dstOf (cmd : EngCmd) (z : Stretch) (o : Nat) : Place := if cmd.dbuf && cmd.front == 1 then z.alt.plus o else z.dst.plus o

/-- Where the u bytes of a piece at position n go for a member: to one stretch, or to two where one ends within it. -/
def EngCmd.partsAt (cmd : EngCmd) (m : Member) (n u : Nat) : List PiecePart :=
  match stretchAt m.stretches n with
  | none => []
  | some (z, o) =>
    if u ≤ z.len - o then [⟨m, cmd.dstOf z o, 0, u⟩]
    else match stretchAt m.stretches (n + (z.len - o)) with
      | some (w, p) => [⟨m, cmd.dstOf z o, 0, z.len - o⟩, ⟨m, cmd.dstOf w p, z.len - o, u - (z.len - o)⟩]
      | none => [⟨m, cmd.dstOf z o, 0, z.len - o⟩]

/-- Bytes of one row of a copy. -/
def EngCmd.rowLen (cmd : EngCmd) : Nat := bf (cmd.desc.getD 3 0) 31 0

/-- The piece of a command at position n: its source, its bytes, which lie in one aligned doubleword of the source (10_ordering R278), and its
destinations. -/
def EngCmd.piece (cmd : EngCmd) (n : Nat) : Option (Place × Nat × List PiecePart) :=
  match cmd.live with
  | [] => none
  | m :: rest =>
    if cmd.kind = 3 then
      match m.stretches with
      | z :: _ =>
        let u := min (8 - (z.src.plus n).low) (z.len - n)
        if n < z.len then some (z.src.plus n, u, m.stretches.map (fun y => ⟨m, y.dst.plus n, 0, u⟩)) else none
      | [] => none
    else
      match stretchAt m.stretches n with
      | some (z, o) =>
        let u := min (8 - (cmd.srcOf z o).low) (cmd.rowLen - n % cmd.rowLen)
        some (cmd.srcOf z o, u, (m :: rest).flatMap (fun y => cmd.partsAt y n u))
      | none => none

/-- Active entries of other owners hold a byte range of a scratchpad; its own entries do not (R325; log 20, DEDUCED). -/
def State.pieceHeld (s : State) (own : SbOwner → Bool) (a n : Nat) : Bool :=
  decide (addrClass a = 0) && (((s.core (homeOf a)).sb.any (fun e =>
      !own e.owner && decide (e.lo < scratchOff a + n ∧ scratchOff a < e.hi)))
    || (s.core (homeOf a)).bankDown (scratchOff a) n)

/-- A place is in a virtual bulkhead that is held: the piece waits (07_access R202). -/
def State.unmapped (s : State) (part : Option Nat) (p : Place) : Bool :=
  match p with | .virt _ _ => (s.resolve part p).isNone | _ => false

/-- Write bytes of a copy at their home. What lands in a scratchpad is seen when its entry retires (10_ordering R280); elsewhere at once (R282). -/
def State.writeCopied (s : State) (a : Nat) (bs : List Byte) (bad : Bool) : State :=
  if bad then s.putPoison a bs else if addrClass a = 0 then s.putMem a bs else s.performWrite a bs

/-- Write one part of a piece. One in another package leaves for it. -/
def State.writePart (s : State) (cmd : EngCmd) (v : List Byte × Bool) (p : PiecePart) : State :=
  let bs := (v.1.drop p.first).take p.len
  match p.place with
  | .foreign ga => s.toPeer cmd ga (.store ga.toNat bs.length (BitVec.ofNat 256 (ofBytes bs)))
  | q =>
    match s.resolve p.member.part q with
    | some a => (s.noteRow p.member.part a).writeCopied a bs v.2
    | none => s

/-- The position after the last byte that a command writes on a core. -/
def State.coreEnd (s : State) (cmd : EngCmd) (h : CoreId) : Nat :=
  cmd.live.foldl (fun n m => max n
    (m.stretches.foldl (fun (p : Nat × Nat) z =>
      let e := (if cmd.kind = 3 then 0 else p.1) + z.len
      (e, if s.lastPlace m.part z.dst = some h then e else p.2)) (0, 0)).2) 0

/-- Each entry whose last piece has been written retires (R319). -/
def State.retireWritten (s : State) (id : Nat) (cmd : EngCmd) (n : Nat) : State :=
  ((s.commandCores cmd).filter (fun h => decide (s.coreEnd cmd h ≤ n))).foldl (fun q h => q.retireSpans h (fun z => z.owner == .engine id)) s

/-- The last piece is written: a count at the buffer's home is given back through its channel, and the command is complete (R319). -/
def State.copyEnd (s : State) (id : Nat) (cmd : EngCmd) : State :=
  match cmd.counted, cmd.header with
  | true, .at_ pa => s.throughChannel cmd.engineCore (.engine id) pa (fun q => (q.restoreCounts cmd).completeCommand id cmd cmd.code)
  | _, _ => (s.restoreCounts cmd).completeCommand id cmd cmd.code

/-- A piece of u bytes at position n has been written: the command goes on, or with the last one it ends. -/
def State.pieceWritten (s : State) (id : Nat) (cmd : EngCmd) (n u : Nat) (bad : Bool) : State :=
  let cmd1 := { cmd with phase := .moving (n + u), buf := none, code := if bad then 3 else cmd.code }
  let s1 := s.retireWritten id cmd1 (n + u)
  let s2 : State := { s1 with engine := s1.engine.put id cmd1 }
  if (cmd1.piece (n + u)).isNone then s2.copyEnd id cmd1 else s2

/-- Write the piece that a command has read: once no entry or bank holds a destination, and one in HBM4E through its channel. A destination in another
package ends the command with a free code (log 19, DESIGN CHOICE). -/
def State.writePiece (s : State) (id : Nat) (cmd : EngCmd) (n u : Nat) (parts : List PiecePart) (v : List Byte × Bool) : State :=
  let s1 : State := { s with engine := s.engine.put id { cmd with buf := some v } }
  let at_ := parts.filterMap (fun p => (s.resolve p.member.part p.place).map (fun a => (a, p.len)))
  let abroad := parts.any (fun p => match p.place with | .foreign _ => true | _ => false)
  let code := if abroad then [0, 2, 5].getD ((Config.freeWord s.free).toNat % 3) 0 else 0
  let ask := match at_.find? (fun z => addrClass z.1 == 1) with | some z => z.1 | none => 0
  if at_.any (fun z => s.pieceHeld (fun o => o == .engine id) z.1 z.2) then at_.foldl (fun q z => q.powerFor z.1 z.2) s1
  else if code ≠ 0 then s1.fresh.failMembers id (fun _ => true) code
  else s1.throughChannel cmd.engineCore (.engine id) ask (fun q =>
    (parts.foldl (fun q p => q.writePart cmd v p) (if abroad then q.fresh else q)).pieceWritten id cmd n u v.2)

/-- Read a piece and go on to write it: once no entry or bank holds its source, and one in HBM4E through its channel. What a source in another package
brings, and how its read ends, is a free value (log 19, DESIGN CHOICE). -/
def State.readPiece (s : State) (id : Nat) (cmd : EngCmd) (n u : Nat) (src : Place) (parts : List PiecePart) : State :=
  let part := cmd.enginePart
  match s.resolve part src, src with
  | some a, _ =>
    if s.pieceHeld (fun o => o == .engine id) a u then s.powerFor a u
    else s.throughChannel cmd.engineCore (.engine id) a (fun q =>
      (q.noteRow part a).writePiece id cmd n u parts (q.readBytes a u, q.isPoisoned a u))
  | none, .foreign ga =>
    let code := [0, 2, 3, 5].getD ((Config.freeWord (s.free + 1)).toNat % 4) 0
    let s1 := s.fresh.fresh.toPeer cmd ga (.engine 0 ga u)
    if code = 2 ∨ code = 5 then s1.failMembers id (fun _ => true) code
    else s1.writePiece id cmd n u parts (bytesOf (Config.freeWord s.free).toNat u, decide (code = 3))
  | none, _ => s

/-- A place answers an engine's requests absent: its home does, or no port takes what is for its package (01_machine R24; 16_package R450). -/
def State.placeAbsent (s : State) (me : CoreId) (part : Option Nat) (p : Place) : Bool :=
  match p, s.resolve part p with
  | .foreign ga, _ => !s.peerOpen (gaPkg ga)
  | _, some a => !s.answers part me (homeOf a)
  | _, none => false

/-- An engine's requests to a place wait, at its home or for its port. -/
def State.placeWaits (s : State) (me : CoreId) (part : Option Nat) (p : Place) : Bool :=
  match p, s.resolve part p with
  | .foreign ga, _ => s.portDrains (gaPkg ga)
  | _, some a => s.engineWaits me (homeOf a)
  | _, none => false

/-- COPY_PIECE (R319, R320): one piece is read and written to its destinations. An absent source ends the command, an absent destination its member,
and what came before stays. -/
def execCopyPiece (id : Nat) (s : State) : Result :=
  .next (match s.engine.find id with
    | some cmd =>
      (match cmd.phase with
       | .moving n =>
         (match cmd.piece n with
          | none => s.copyEnd id cmd
          | some (src, u, parts) =>
            let me := cmd.engineCore
            let absent := fun (part : Option Nat) (p : Place) => s.placeAbsent me part p
            let stopped := fun (part : Option Nat) (p : Place) => s.placeWaits me part p
            if s.unmapped cmd.enginePart src || parts.any (fun p => s.unmapped p.member.part p.place) then s
            else if cmd.buf = none ∧ absent cmd.enginePart src = true then s.failMembers id (fun _ => true) 5
            else if parts.any (fun p => absent p.member.part p.place) then
              s.failMembers id (fun m => parts.any (fun p => p.member == m && absent p.member.part p.place)) 5
            else if stopped cmd.enginePart src || parts.any (fun p => stopped p.member.part p.place) then s
            else match cmd.buf with
              | some v => s.writePiece id cmd n u parts v
              | none => s.readPiece id cmd n u src parts)
       | _ => s)
    | none => s)

/-- A command waits for its next entry and has no request at its core: it asks once its places are mapped, and where the core answers absent the members
that write there end with CODE 5 (R320). -/
def State.askAgain (s : State) (id : Nat) (cmd : EngCmd) : State :=
  match cmd.phase with
  | .grant (h :: rest) =>
    if !s.mapped cmd || ((s.core h).sb ++ (s.core h).sbWait).any (fun z => z.owner == .engine id) then s
    else if s.answers cmd.enginePart cmd.engineCore h then s.askEntry id cmd (h :: rest)
    else s.failMembers id (fun m => (s.memberCores m).contains h) 5
  | _ => s

/-- The status with which a pair that came in from another package is answered (14_population R383, R388). -/
def pairStatus (code : Nat) : Status := match code with | 0 => .done | 3 => .poisoned | _ => .absent

/-- ENGINE_COMPLETION (R320, R329): the status reaches the entry of every member, and of a pair from another package its sender; or a destination has answered absent to the request for its entry, and
the members that write there end with CODE 5. -/
def execEngineCompletion (id : Nat) (s : State) : Result :=
  .next (match s.engine.find id with
    | some cmd =>
      if cmd.phase = .complete then (match cmd.inbound with
        | some q => ({ s with engine := s.engine.erase id }).answer q (pairStatus cmd.code) 0 cmd.flags 0 0
        | none => cmd.live.foldl (fun q m => q.finishEntry m.core m.entry (completionWord cmd.flags cmd.code)) { s with engine := s.engine.erase id })
      else s.askAgain id cmd
    | none => s)

/-! ### MCRD and MCWR (R336, R337) -/

/-- The form of MCRD and MCWR: check 5 of R185 is skipped. -/
def channelForm (right : Nat) : Form := ⟨8, 8, [right], false, true, false, 8⟩

/-- The access of a channel instruction: its class-1 GA must have its home on the issuing core. -/
def State.channelOp (s : State) (d a : Reg) (right access : Nat) (body : State → Nat → State) : State :=
  let c := s.curCore
  let k := s.curSlot
  s.unlessPending (scalars [d, a])
    (let ga := s.cur.segGa (s.reg a)
     match s.checkAccess c k (s.reg a) (channelForm right) with
     | .error f => s.takeFault c k f
     | .ok (.mem 1 va) =>
       s.withTranslation ga 1 va access (fun s pa => if homeOf pa = c then body s pa else s.takeFault c k ⟨0x13, 2, ga, 0⟩)
     | .ok _ => s.takeFault c k ⟨0x13, 0, ga, 0⟩)

/-- An access joins the channel's waiting list; its thread is BLOCKED until it completes. -/
def State.waitChannel (s : State) (d : Reg) (r : Retire) (pa : Nat) (data : Option Word) : State :=
  let c := s.curCore
  let k := s.curSlot
  ((s.modChannel c (fun h => { h with waiting := h.waiting ++ [⟨c, pa, .thread k s.cur.gen data⟩] })).modCur Slot.addOut).block (.channel d (s.now + 5) r)

/-- MCRD d, [a] (R336). -/
def execMcrd (d a : Reg) (s : State) : Result := .next (s.channelOp d a rightR 0 (fun s pa => s.waitChannel d ⟨4, [d, a], 0⟩ pa none))

/-- MCWR d, [a] (R337): firmware slots only; in a user slot it takes a privilege fault. -/
def execMcwr (d a : Reg) (s : State) : Result :=
  if s.curSlot < 8 then
    .next (s.channelOp d a rightW 1 (fun s pa => s.waitChannel 0 ⟨4, [d, a], 0⟩ pa (some (s.reg d))))
  else .next (s.unlessPending (scalars [d, a]) (s.takeFault s.curCore s.curSlot ⟨0x03, 4, 0, 0⟩))

end Sys2Proof.Machine
end

