-- ==== Sys2Proof/Machine/Special.lean ====
section
/-! DEFINITION. Special functions (05_numbers R147, 06_vector R173): the cases the manual decides, and otherwise a free value within 2 ulp of the
exact one (log 5, DESIGN CHOICE). The exact value is computed in fixed point with 1,400 fraction bits, more than 300 of them correct at the
least magnitude of FP64 (log 81, DEDUCED). -/

namespace Sys2Proof.Machine

/-! ### Fixed point -/

/-- Fraction bits, and 1. -/
def fixBits : Nat := 1400
def fixOne : Nat := 2 ^ fixBits

/-- m * 2^e, and products and quotients. -/
def fixOf (m : Nat) (e : Int) : Nat := shiftInt m (e + fixBits)
def fixMul (x y : Nat) : Nat := x * y / fixOne
def fixDiv (x y : Nat) : Nat := x * fixOne / y

/-- The sum of z^(2k+1) / (2k+1), alternating in sign or not, from term k on; p is z^(2k+1) and q is z². -/
def oddSeries (alternate : Bool) (q : Nat) : (fuel k p : Nat) → Int
  | 0, _, _ => 0
  | fuel + 1, k, p => ((p / (2 * k + 1) : Nat) : Int) + (if alternate then -1 else 1) * oddSeries alternate q fuel (k + 1) (fixMul p q)

/-- The arc tangent of 1 / n, and the area tangent of a number of at most 1/3. -/
def fixAtanInv (n : Nat) : Nat := (oddSeries true (fixOne / (n * n)) 400 0 (fixOne / n)).toNat
def fixAtanh (z : Nat) : Nat := (oddSeries false (fixMul z z) 500 0 z).toNat

/-- π by Machin's formula, and the natural logarithm of 2. -/
def fixPi : Nat := 16 * fixAtanInv 5 - 4 * fixAtanInv 239
def fixLn2 : Nat := 2 * fixAtanh (fixOne / 3)

/-- The sum of x^k / k! from the term p of number k on. -/
def expSeries (x : Nat) : (fuel k p : Nat) → Nat
  | 0, _, p => p
  | fuel + 1, k, p => p + expSeries x fuel (k + 1) (fixMul p x / (k + 1))

/-- 2^v for v = n / 2^fixBits, n an integer. -/
def fixExp2 (n : Int) : Nat :=
  shiftInt (expSeries (fixMul (n % (fixOne : Int)).toNat fixLn2) 400 0 fixOne) (n / (fixOne : Int))

/-- e^(-y) for y at least 0. -/
def fixExpNeg (y : Nat) : Nat := if 1100 * fixOne ≤ y then 0 else fixExp2 (-((fixDiv y fixLn2 : Nat) : Int))

/-- log2 of m * 2^e. -/
def fixLog2 (m : Nat) (e : Int) : Int :=
  let b := Nat.log2 m
  let x := fixOf m (-(b : Int))
  ((b : Int) + e) * (fixOne : Int) + (fixDiv (2 * fixAtanh (fixDiv (x - fixOne) (x + fixOne))) fixLn2 : Nat)

/-- The sum of the terms (-1)^j x^k / k!, k rising by 2, from the term p of number k on. -/
def trigSeries (q : Nat) : (fuel k p : Nat) → Int
  | 0, _, _ => 0
  | fuel + 1, k, p => (p : Int) - trigSeries q fuel (k + 2) (fixMul p q / ((k + 1) * (k + 2)))

/-- Sine and cosine of x at least 0. -/
def fixSin (x : Nat) : Int :=
  let r := x % (2 * fixPi)
  trigSeries (fixMul r r) 300 1 r
def fixCos (x : Nat) : Int :=
  let r := x % (2 * fixPi)
  trigSeries (fixMul r r) 300 0 fixOne

/-- The integer square root, bit by bit from 2^n down. -/
def sqrtBits (x : Nat) : (n r : Nat) → Nat
  | 0, r => if (r + 1) * (r + 1) ≤ x then r + 1 else r
  | n + 1, r => sqrtBits x n (if (r + 2 ^ (n + 1)) * (r + 2 ^ (n + 1)) ≤ x then r + 2 ^ (n + 1) else r)

/-! ### Results -/

/-- Codes of Config.specialFunction. -/
inductive Sfu where
  | rcp | rsq | exp2 | log2 | sin | cos | tanh | sigm
deriving DecidableEq, Repr

def Sfu.code : Sfu → Nat
  | .rcp => 0 | .rsq => 1 | .exp2 => 2 | .log2 => 3 | .sin => 4 | .cos => 5 | .tanh => 6 | .sigm => 7

/-- The exact value at (-1)^neg * m * 2^e with m > 0, in fixed point. -/
def Sfu.fix (fn : Sfu) (neg : Bool) (m : Nat) (e : Int) : Int :=
  let x := fixOf m e
  let odd := fun (v : Int) => if neg then -v else v
  match fn with
  | .rcp => odd (shiftInt (fixOne * 2 ^ 2000 / m) (-e - 2000))
  | .rsq => sqrtBits (shiftInt (fixOne * fixOne * 2 ^ 4000 / m) (-e - 4000)) 2200 0
  | .exp2 => fixExp2 (odd x)
  | .log2 => fixLog2 m e
  | .sin => odd (fixSin x)
  | .cos => fixCos x
  | .tanh =>
    let u := fixExpNeg (2 * x)
    odd (fixDiv (fixOne - u) (fixOne + u) : Nat)
  | .sigm =>
    let u := fixExpNeg x
    (fixDiv (if neg then u else fixOne) (fixOne + u) : Nat)

/-- The value of an encoding in fixed point. -/
def Fmt.fix (f : Fmt) (x : Nat) : Nat :=
  match f.value x with
  | .fin _ m e => fixOf m e
  | _ => 2 ^ 4000

/-- An ulp of a format at a magnitude (R147), in fixed point. -/
def Fmt.ulpAt (f : Fmt) (n : Nat) : Nat := fixOf 1 (max ((Nat.log2 n : Int) - fixBits - f.frac) (f.emin - f.frac))

/-- The encodings within 2 ulp of a fixed-point magnitude (R147, R173). -/
def Fmt.near (f : Fmt) (n : Nat) : List Nat :=
  let m := (f.round .rz false false n (-(fixBits : Int)) false).1
  ((List.range 9).map (fun i => m + i - 4)).filter (fun x =>
    decide (f.fix x ≤ n + 2 * f.ulpAt n ∧ n ≤ f.fix x + 2 * f.ulpAt n))

/-- A free value of a special function among those the manual allows; one fixed algorithm, so one value for each argument. It keeps the sign of
the exact value: -0 and a subnormal of the other sign lie within 2 ulp of a least result too and are not chosen (log 5, DESIGN CHOICE). -/
def Fmt.freeResult (f : Fmt) (fn : Sfu) (x : Nat) (v : Int) : Nat :=
  let l := f.near v.natAbs
  let i := (Config.specialFunction fn.code (decide (f.width = 64)) (BitVec.ofNat 64 x)).toNat
  f.withSign (decide (v < 0)) (l.getD (i % l.length) 0)

/-- A finite value is a whole number. -/
def isWhole (m : Nat) (e : Int) : Bool := decide (0 ≤ e) || decide (m % 2 ^ (-e).toNat = 0)

/-- m is a power of two. -/
def isPow2 (m : Nat) : Bool := decide (m = 2 ^ Nat.log2 m)

/-- The special functions on FP32 and FP64: the cases of R147 and R173, and a free value near the exact one otherwise. The power of two half
way between 0 and the least subnormal has no nearer neighbour: either is a result (log 5, DESIGN CHOICE). A tiny and inexact result of a
function other than FEXP2 sets NX alone, as R147 says of every other result, and not the UF of R130 (log 5, DESIGN CHOICE). -/
def Fmt.special (f : Fmt) (fn : Sfu) (x : Nat) : Nat × Flags :=
  let one := f.encodeMag (2 ^ f.frac) (-(f.frac : Int))
  match f.value x with
  | .nan sig => f.nanWith (flagIf sig flagNV)
  | .inf n =>
    match fn with
    | .rcp => (f.zeroBits n, 0)
    | .rsq => if n then f.nanWith flagNV else (f.zeroBits false, 0)
    | .exp2 => if n then (f.zeroBits false, 0) else (f.infBits false, 0)
    | .log2 => if n then f.nanWith flagNV else (f.infBits false, 0)
    | .sin => f.nanWith flagNV
    | .cos => f.nanWith flagNV
    | .tanh => (f.withSign n one, 0)
    | .sigm => if n then (f.zeroBits false, 0) else (one, 0)
  | .fin n m e =>
    let top : Int := (Nat.log2 m : Int) + e
    let near : Unit → Nat × Flags := fun _ => (f.freeResult fn x (fn.fix n m e), flagNX)
    match fn with
    | .rcp =>
      if m = 0 then (f.infBits n, flagDZ)
      else
        let q := f.quotient .rne n 1 0 m e
        if q.2 = flagNX then near () else q
    | .rsq =>
      if m = 0 then (f.infBits n, flagDZ)
      else if n then f.nanWith flagNV
      else if isPow2 m && decide (top % 2 = 0) then f.round .rne false false 1 (-(top / 2)) false
      else near ()
    | .exp2 =>
      let v := if n then -((shiftInt m e : Nat) : Int) else ((shiftInt m e : Nat) : Int)
      if m = 0 then (one, 0)
      else if !n && decide ((f.bias : Int) + 1 ≤ v) then (f.infBits false, flagOF ||| flagNX)
      else if isWhole m e && decide (f.emin - f.frac ≤ v) then f.round .rne false false 1 v false
      else if n && decide (v ≤ f.emin - f.frac - 2) then (f.zeroBits false, flagUF ||| flagNX)
      else if isWhole m e then
        ((Config.specialFunction fn.code (decide (f.width = 64)) (BitVec.ofNat 64 x)).toNat % 2, flagUF ||| flagNX)
      else if n && decide (v ≤ f.emin) then
        ((f.round .rne false false (fn.fix n m e).toNat (-(fixBits : Int)) true).1, flagUF ||| flagNX)
      else near ()
    | .log2 =>
      if m = 0 then (f.infBits true, flagDZ)
      else if n then f.nanWith flagNV
      else if isPow2 m then
        (if top = 0 then (f.zeroBits false, 0) else f.round .rne false (decide (top < 0)) top.natAbs 0 false)
      else near ()
    | .sin =>
      if m = 0 then (f.zeroBits n, 0)
      else if decide ((if f.width = 64 then 30 else 20) ≤ top) then f.nanWith flagRG
      else near ()
    | .cos =>
      if m = 0 then (one, 0)
      else if decide ((if f.width = 64 then 30 else 20) ≤ top) then f.nanWith flagRG
      else near ()
    | .tanh => if m = 0 then (f.zeroBits n, 0) else near ()
    | .sigm =>
      if m = 0 then (f.encodeMag (2 ^ f.frac) (-(f.frac : Int) - 1), 0)
      else
        let v := (fn.fix n m e).toNat
        let r := f.round .rne false false v (-(fixBits : Int)) true
        if r.2 &&& flagUF = 0 then near () else r

/-- The special functions in a lane: FP16 and BF16 go through FP32 exactly and round RNE at the end (R173). -/
def Fmt.specialLane (f : Fmt) (fn : Sfu) (x : Nat) : Nat × Flags :=
  if f.width = 16 then
    let wide := fp32.ofNum .rne false (f.value x)
    let y := fp32.special fn wide.1
    let z := f.ofNum .rne false (fp32.value y.1)
    (z.1, wide.2 ||| y.2 ||| z.2)
  else f.special fn x

end Sys2Proof.Machine
end

