-- ==== Sys2Proof/Machine/ScalarFp.lean ====
section
/-! DEFINITION. Scalar floating point and conversion (05_numbers R128, R138-R149). -/

namespace Sys2Proof.Machine

/-- The format of a .S or .D instruction (R128). -/
def fpFormat (p : BitVec 1) : Fmt := if p = 0 then fp32 else fp64

/-- A floating-point operand: bits [31:0] or all of the register. -/
def State.fpReg (s : State) (p : BitVec 1) (r : Reg) : Nat := (s.reg r).toNat % 2 ^ (fpFormat p).width

/-- FPCTL's rounding mode. -/
def State.rounding (s : State) : Rounding := roundingOf s.rm

/-- An instruction that writes a scalar register and raises flags at WB. -/
def State.flagOp (s : State) (names : List Reg) (d : Reg) (v : Word) (f : Flags) : Result :=
  .next (s.plain 4 (scalars names) (fun s => (s.putReg d v).raise f))

/-- A result in a float format, zero-extended (R128). -/
def State.floatOp (s : State) (names : List Reg) (d : Reg) (v : Nat × Flags) : Result :=
  s.flagOp names d (BitVec.ofNat 64 v.1) v.2

/-- A result from the iterative floating-point unit (R148). -/
def State.floatIter (s : State) (names : List Reg) (d : Reg) (v : Nat × Flags) (p : BitVec 1) (single double : Nat) : Result :=
  s.iterative .fp (scalars names) (.scalar d) (BitVec.ofNat 256 v.1) v.2 (if p = 0 then single else double)

/-! ### FP-A (R138-R147) -/

/-- FADD (R139). -/
def execFadd (d a b : Reg) (p : BitVec 1) (s : State) : Result :=
  s.floatOp [d, a, b] d ((fpFormat p).add s.rounding (s.fpReg p a) (s.fpReg p b))

/-- FSUB (R139). -/
def execFsub (d a b : Reg) (p : BitVec 1) (s : State) : Result :=
  s.floatOp [d, a, b] d ((fpFormat p).sub s.rounding (s.fpReg p a) (s.fpReg p b))

/-- FMUL (R139). -/
def execFmul (d a b : Reg) (p : BitVec 1) (s : State) : Result :=
  s.floatOp [d, a, b] d ((fpFormat p).mul s.rounding (s.fpReg p a) (s.fpReg p b))

/-- FDIV (R139, R148). -/
def execFdiv (d a b : Reg) (p : BitVec 1) (s : State) : Result :=
  s.floatIter [d, a, b] d ((fpFormat p).div s.rounding (s.fpReg p a) (s.fpReg p b)) p 19 33

/-- FSQRT (R139, R148). -/
def execFsqrt (d a : Reg) (p : BitVec 1) (s : State) : Result :=
  s.floatIter [d, a] d ((fpFormat p).sqrt s.rounding (s.fpReg p a)) p 19 33

/-- FMIN (R140). -/
def execFmin (d a b : Reg) (p : BitVec 1) (s : State) : Result :=
  s.floatOp [d, a, b] d ((fpFormat p).minmax false (s.fpReg p a) (s.fpReg p b))

/-- FMAX (R140). -/
def execFmax (d a b : Reg) (p : BitVec 1) (s : State) : Result :=
  s.floatOp [d, a, b] d ((fpFormat p).minmax true (s.fpReg p a) (s.fpReg p b))

/-- FEQ (R141). -/
def execFeq (d a b : Reg) (p : BitVec 1) (s : State) : Result :=
  let v := (fpFormat p).compare 0 (s.fpReg p a) (s.fpReg p b)
  s.flagOp [d, a, b] d (truth v.1) v.2

/-- FLT (R141). -/
def execFlt (d a b : Reg) (p : BitVec 1) (s : State) : Result :=
  let v := (fpFormat p).compare 1 (s.fpReg p a) (s.fpReg p b)
  s.flagOp [d, a, b] d (truth v.1) v.2

/-- FLE (R141). -/
def execFle (d a b : Reg) (p : BitVec 1) (s : State) : Result :=
  let v := (fpFormat p).compare 2 (s.fpReg p a) (s.fpReg p b)
  s.flagOp [d, a, b] d (truth v.1) v.2

/-- FCLASS (R142). -/
def execFclass (d a : Reg) (p : BitVec 1) (s : State) : Result :=
  s.flagOp [d, a] d ((fpFormat p).classWord (s.fpReg p a)) 0

/-- FSGNJ (R143). -/
def execFsgnj (d a b : Reg) (p : BitVec 1) (s : State) : Result :=
  s.floatOp [d, a, b] d ((fpFormat p).signInject (s.fpReg p a) (s.fpReg p b) false, 0)

/-- FSGNJN (R143). -/
def execFsgnjn (d a b : Reg) (p : BitVec 1) (s : State) : Result :=
  s.floatOp [d, a, b] d ((fpFormat p).signInject (s.fpReg p a) (s.fpReg p b) true, 0)

/-- The range of an integer kind (R144): 0 I64, 1 N64, 2 I32, 3 N32. -/
def kindMin (k : Nat) : Int := if k = 0 then -(2 : Int) ^ 63 else if k = 2 then -(2 : Int) ^ 31 else 0
def kindMax (k : Nat) : Int :=
  if k = 0 then (2 : Int) ^ 63 - 1 else if k = 1 then (2 : Int) ^ 64 - 1 else if k = 2 then (2 : Int) ^ 31 - 1 else (2 : Int) ^ 32 - 1

/-- An integer operand of a kind (R145). -/
def kindValue (k : Nat) (x : Word) : Int :=
  if k = 0 then x.toInt else if k = 1 then (x.toNat : Int) else if k = 2 then sintN x.toNat 32 else ((x.toNat % 2 ^ 32 : Nat) : Int)

/-- FCVT.FI (R144): kind in k[1:0]; k[2] rounds toward zero. -/
def execFcvtFi (d a : Reg) (k : BitVec 3) (p : BitVec 1) (s : State) : Result :=
  let kind := k.toNat % 4
  let r := if bit k 2 then Rounding.rz else s.rounding
  let v := ((fpFormat p).value (s.fpReg p a)).toInteger r (kindMin kind) (kindMax kind)
  s.flagOp [d, a] d (BitVec.ofInt 64 v.1) v.2

/-- FCVT.IF (R145). -/
def execFcvtIf (d a : Reg) (k : BitVec 2) (p : BitVec 1) (s : State) : Result :=
  s.floatOp [d, a] d ((fpFormat p).ofNum s.rounding false (Num.ofInt (kindValue k.toNat (s.reg a))))

/-- FCVT.P (R146): .S widens FP32 exactly, .D rounds FP64 to FP32. -/
def execFcvtP (d a : Reg) (p : BitVec 1) (s : State) : Result :=
  let other := if p = 0 then fp64 else fp32
  s.floatOp [d, a] d (other.ofNum s.rounding false ((fpFormat p).value (s.fpReg p a)))

/-- FSIN (R147, R148). -/
def execFsin (d a : Reg) (p : BitVec 1) (s : State) : Result :=
  s.floatIter [d, a] d ((fpFormat p).special .sin (s.fpReg p a)) p 23 39

/-- FCOS (R147, R148). -/
def execFcos (d a : Reg) (p : BitVec 1) (s : State) : Result :=
  s.floatIter [d, a] d ((fpFormat p).special .cos (s.fpReg p a)) p 23 39

/-- FEXP2 (R147, R148). -/
def execFexp2 (d a : Reg) (p : BitVec 1) (s : State) : Result :=
  s.floatIter [d, a] d ((fpFormat p).special .exp2 (s.fpReg p a)) p 23 39

/-- FLOG2 (R147, R148). -/
def execFlog2 (d a : Reg) (p : BitVec 1) (s : State) : Result :=
  s.floatIter [d, a] d ((fpFormat p).special .log2 (s.fpReg p a)) p 23 39

/-! ### FMA-A (R149) -/

/-- FMA (R149): one rounding. -/
def execFma (d a b : Reg) (p : BitVec 1) (s : State) : Result :=
  s.floatOp [d, a, b] d ((fpFormat p).fma s.rounding (s.fpReg p d) (s.fpReg p a) (s.fpReg p b) false false)

/-- FMS (R149): one rounding. -/
def execFms (d a b : Reg) (p : BitVec 1) (s : State) : Result :=
  s.floatOp [d, a, b] d ((fpFormat p).fma s.rounding (s.fpReg p d) (s.fpReg p a) (s.fpReg p b) false true)

/-- FNMA (R149): one rounding. -/
def execFnma (d a b : Reg) (p : BitVec 1) (s : State) : Result :=
  s.floatOp [d, a, b] d ((fpFormat p).fma s.rounding (s.fpReg p d) (s.fpReg p a) (s.fpReg p b) true true)

end Sys2Proof.Machine
end

