-- ==== Sys2Proof/Machine/Vector.lean ====
section
/-! DEFINITION. Packed SIMD instructions (06_vector R157-R173). -/

namespace Sys2Proof.Machine

/-! ### Lanes (R158, 02_encoding R45) -/

/-- Lane width of a type code. -/
def laneWidth (t : Nat) : Nat :=
  if t ≤ 1 ∨ t = 8 ∨ t = 9 then 8
  else if t ≤ 3 ∨ t = 10 ∨ t = 11 then 16
  else if t ≤ 5 ∨ t = 12 then 32
  else if t ≤ 7 ∨ t = 13 then 64
  else 4

/-- Lanes of a register for a type. -/
def laneCount (t : Nat) : Nat := 256 / laneWidth t

/-- An integer type, and a signed one. -/
def isIntType (t : Nat) : Bool := decide (t < 8)
def isSignedType (t : Nat) : Bool := decide (t < 8 ∧ t % 2 = 0)

/-- The floating-point format of a type code 8-14. -/
def laneFormat (t : Nat) : Fmt :=
  match t with
  | 8 => fpE4m3
  | 9 => fpE5m2
  | 10 => fp16
  | 11 => bf16
  | 12 => fp32
  | 13 => fp64
  | _ => fp4

/-- Lane k of w bits. -/
def laneOf (v : Vec) (w k : Nat) : Nat := v.toNat / 2 ^ (w * k) % 2 ^ w

/-- The lanes of a register. -/
def lanesOf (v : Vec) (w : Nat) : List Nat := (List.range (256 / w)).map (laneOf v w)

/-- A register from lanes of w bits, lane 0 first. -/
def ofLanes (w : Nat) (ls : List Nat) : Vec := BitVec.ofNat 256 (ls.foldr (fun x n => x % 2 ^ w + 2 ^ w * n) 0)

/-- A lane as an integer, signed for I types (R161). -/
def laneInt (t x : Nat) : Int := if isSignedType t then sintN x (laneWidth t) else (x : Int)

/-- An integer as a lane of w bits. -/
def intLane (w : Nat) (i : Int) : Nat := (i % (2 : Int) ^ w).toNat

/-- Apply a lane operation to three registers lane by lane: the lanes and the flags. -/
def mapLanes (t : Nat) (z x y : Vec) (op : Nat → Nat → Nat → Nat × Flags) : Vec × Flags :=
  let w := laneWidth t
  let rs := (List.range (laneCount t)).map (fun k => op (laneOf z w k) (laneOf x w k) (laneOf y w k))
  (ofLanes w (rs.map (fun r => r.1)), gatherFlags (rs.map (fun r => r.2)))

/-- A vector instruction that retires at WB with a vector result. -/
def State.vectorOp (s : State) (names : List Dest) (d : Reg) (v : Vec × Flags) : Result :=
  .next (s.plain 4 names (fun s => (s.putVec d v.1).raise v.2))

/-- One that goes through the vector iterative unit (R179). -/
def State.vectorIter (s : State) (names : List Dest) (d : Reg) (v : Vec × Flags) (delay : Nat) : Result :=
  s.iterative .vector names (.vector d) v.1 v.2 delay

/-- Vector register fields as names. -/
def vectors (rs : List Reg) : List Dest := rs.map .vector

/-- A lane operation on d, a, b: integers by one function, FL lanes by another (R161, R162). -/
def State.laneOp (s : State) (d a b : Reg) (t : BitVec 4) (intOp : Nat → Nat → Nat → Nat) (flOp : Fmt → Nat → Nat → Nat → Nat × Flags) :
    Result :=
  let ty := t.toNat
  let op := fun z x y => if isIntType ty then (intOp z x y, 0) else flOp (laneFormat ty) z x y
  s.vectorOp (vectors [d, a, b]) d (mapLanes ty (s.vec d) (s.vec a) (s.vec b) op)

/-- A lane operation on d, a. -/
def State.laneOp1 (s : State) (d a : Reg) (t : BitVec 4) (intOp : Nat → Nat) (flOp : Fmt → Nat → Nat) : Result :=
  let ty := t.toNat
  let op := fun (_ x _ : Nat) => (if isIntType ty then intOp x else flOp (laneFormat ty) x, (0 : Flags))
  s.vectorOp (vectors [d, a]) d (mapLanes ty 0 (s.vec a) 0 op)

/-- A lane of a sum, difference or product modulo 2^w. -/
def wrapLane (t : BitVec 4) (i : Int) : Nat := intLane (laneWidth t.toNat) i

/-- An exact integer clamped to the type (R161). -/
def clampLane (t : BitVec 4) (i : Int) : Nat :=
  let w := laneWidth t.toNat
  let lo : Int := if isSignedType t.toNat then -(2 : Int) ^ (w - 1) else 0
  let hi : Int := if isSignedType t.toNat then (2 : Int) ^ (w - 1) - 1 else (2 : Int) ^ w - 1
  intLane w (max lo (min hi i))

/-- A shift amount: taken modulo the lane width (R161). -/
def laneShift (t : BitVec 4) (y : Nat) : Nat := y % laneWidth t.toNat

/-! ### V-ARITH (R161-R163) -/

/-- VADD (R161, R162). -/
def execVadd (d a b : Reg) (t : BitVec 4) (s : State) : Result :=
  s.laneOp d a b t (fun _ x y => wrapLane t (laneInt t.toNat x + laneInt t.toNat y)) (fun f _ x y => f.add s.rounding x y)

/-- VSUB (R161, R162). -/
def execVsub (d a b : Reg) (t : BitVec 4) (s : State) : Result :=
  s.laneOp d a b t (fun _ x y => wrapLane t (laneInt t.toNat x - laneInt t.toNat y)) (fun f _ x y => f.sub s.rounding x y)

/-- VMUL (R161, R162). -/
def execVmul (d a b : Reg) (t : BitVec 4) (s : State) : Result :=
  s.laneOp d a b t (fun _ x y => wrapLane t (laneInt t.toNat x * laneInt t.toNat y)) (fun f _ x y => f.mul s.rounding x y)

/-- VFMA (R161, R162): reads d. -/
def execVfma (d a b : Reg) (t : BitVec 4) (s : State) : Result :=
  s.laneOp d a b t (fun z x y => wrapLane t (laneInt t.toNat z + laneInt t.toNat x * laneInt t.toNat y)) (fun f z x y => f.fma s.rounding z x y false false)

/-- VMIN (R161, R162). -/
def execVmin (d a b : Reg) (t : BitVec 4) (s : State) : Result :=
  s.laneOp d a b t (fun _ x y => if laneInt t.toNat y < laneInt t.toNat x then y else x) (fun f _ x y => f.minmax false x y)

/-- VMAX (R161, R162). -/
def execVmax (d a b : Reg) (t : BitVec 4) (s : State) : Result :=
  s.laneOp d a b t (fun _ x y => if laneInt t.toNat x < laneInt t.toNat y then y else x) (fun f _ x y => f.minmax true x y)

/-- VABS (R161, R162): no flag, and a NaN is not made canonical. -/
def execVabs (d a : Reg) (t : BitVec 4) (s : State) : Result :=
  s.laneOp1 d a t (fun x => wrapLane t ((laneInt t.toNat x).natAbs : Int)) (fun f x => x % 2 ^ (f.width - 1))

/-- VNEG (R161, R162). -/
def execVneg (d a : Reg) (t : BitVec 4) (s : State) : Result :=
  s.laneOp1 d a t (fun x => wrapLane t (-laneInt t.toNat x)) (fun f x => (x + 2 ^ (f.width - 1)) % 2 ^ f.width)

/-- VAND (R161): all 256 bits. -/
def execVand (d a b : Reg) (_t : BitVec 4) (s : State) : Result := s.vectorOp (vectors [d, a, b]) d (s.vec a &&& s.vec b, 0)

/-- VOR (R161). -/
def execVor (d a b : Reg) (_t : BitVec 4) (s : State) : Result := s.vectorOp (vectors [d, a, b]) d (s.vec a ||| s.vec b, 0)

/-- VXOR (R161). -/
def execVxor (d a b : Reg) (_t : BitVec 4) (s : State) : Result := s.vectorOp (vectors [d, a, b]) d (s.vec a ^^^ s.vec b, 0)

/-- Block scaling of a lane by the E8M0 byte of y (R163, 05_numbers R126). -/
def Fmt.scale (f : Fmt) (r : Rounding) (x y : Nat) : Nat × Flags :=
  let e := y % 256
  if e = 255 then (f.canon, 0)
  else match f.value x with
    | .nan sig => f.nanWith (flagIf sig flagNV)
    | .inf n => (f.infBits n, 0)
    | .fin n m ex => f.round r false n m (ex + e - 127) false

/-- VSHL (R161, R163): a shift, or block scaling on FL types. -/
def execVshl (d a b : Reg) (t : BitVec 4) (s : State) : Result :=
  s.laneOp d a b t (fun _ x y => x * 2 ^ laneShift t y % 2 ^ laneWidth t.toNat) (fun f _ x y => f.scale s.rounding x y)

/-- VSHR (R161). -/
def execVshr (d a b : Reg) (t : BitVec 4) (s : State) : Result :=
  s.laneOp d a b t (fun _ x y => x / 2 ^ laneShift t y) (fun _ _ x _ => (x, 0))

/-- VSRA (R161): fills with the top bit for I and N types alike. -/
def execVsra (d a b : Reg) (t : BitVec 4) (s : State) : Result :=
  s.laneOp d a b t (fun _ x y => intLane (laneWidth t.toNat) (sintN x (laneWidth t.toNat) / (2 : Int) ^ laneShift t y)) (fun _ _ x _ => (x, 0))

/-- VADDS (R161): clamped to the type. -/
def execVadds (d a b : Reg) (t : BitVec 4) (s : State) : Result :=
  s.laneOp d a b t (fun _ x y => clampLane t (laneInt t.toNat x + laneInt t.toNat y)) (fun _ _ x _ => (x, 0))

/-- VSUBS (R161): clamped to the type. -/
def execVsubs (d a b : Reg) (t : BitVec 4) (s : State) : Result :=
  s.laneOp d a b t (fun _ x y => clampLane t (laneInt t.toNat x - laneInt t.toNat y)) (fun _ _ x _ => (x, 0))

/-- VMULH (R161): the high half. -/
def execVmulh (d a b : Reg) (t : BitVec 4) (s : State) : Result :=
  s.laneOp d a b t (fun _ x y => intLane (laneWidth t.toNat) ((laneInt t.toNat x * laneInt t.toNat y) / (2 : Int) ^ laneWidth t.toNat)) (fun _ _ x _ => (x, 0))

/-- A quotient lane (R161, 04_integer R110): a zero divisor gives all ones. -/
def divLane (t : BitVec 4) (x y : Nat) : Nat :=
  if y = 0 then 2 ^ laneWidth t.toNat - 1 else wrapLane t ((laneInt t.toNat x).tdiv (laneInt t.toNat y))

/-- VDIV (R161, R162, R179): delivered by the vector iterative unit. -/
def execVdiv (d a b : Reg) (t : BitVec 4) (s : State) : Result :=
  let ty := t.toNat
  let op := fun (_ x y : Nat) => if isIntType ty then (divLane t x y, 0) else (laneFormat ty).div s.rounding x y
  s.vectorIter (vectors [d, a, b]) d (mapLanes ty 0 (s.vec a) (s.vec b) op) (if isIntType ty then 25 else if ty = 13 then 33 else 19)

/-! ### V-MISC (R164-R169) -/

/-- A compare mask lane: all ones or zero. -/
def maskLane (t : Nat) (b : Bool) : Nat := if b then 2 ^ laneWidth t - 1 else 0

/-- A lane compare with its flags. -/
def State.compareOp (s : State) (d a b : Reg) (t : BitVec 4) (code : Nat) (intTest : Int → Int → Bool) : Result :=
  let ty := t.toNat
  let op := fun (_ x y : Nat) =>
    if isIntType ty then (maskLane ty (intTest (laneInt ty x) (laneInt ty y)), 0)
    else ((laneFormat ty).compare code x y).map (maskLane ty) id
  s.vectorOp (vectors [d, a, b]) d (mapLanes ty 0 (s.vec a) (s.vec b) op)

/-- VCMPEQ (R164). -/
def execVcmpeq (d a b : Reg) (t : BitVec 4) (s : State) : Result := s.compareOp d a b t 0 (fun x y => decide (x = y))

/-- VCMPLT (R164). -/
def execVcmplt (d a b : Reg) (t : BitVec 4) (s : State) : Result := s.compareOp d a b t 1 (fun x y => decide (x < y))

/-- VCMPLE (R164). -/
def execVcmple (d a b : Reg) (t : BitVec 4) (s : State) : Result := s.compareOp d a b t 2 (fun x y => decide (x ≤ y))

/-- VSEL (R165): d ← (a AND d) OR (b AND NOT d). -/
def execVsel (d a b : Reg) (_t : BitVec 4) (s : State) : Result :=
  s.vectorOp (vectors [d, a, b]) d ((s.vec a &&& s.vec d) ||| (s.vec b &&& ~~~(s.vec d)), 0)

/-- VSHUF (R166): the top bit of an index lane gives zero. -/
def execVshuf (d a b : Reg) (t : BitVec 4) (s : State) : Result :=
  let w := laneWidth t.toNat
  let v := s.vec a
  let op := fun (_ _ y : Nat) => (if 2 ^ (w - 1) ≤ y then 0 else laneOf v w (y % laneCount t.toNat), (0 : Flags))
  s.vectorOp (vectors [d, a, b]) d (mapLanes t.toNat 0 v (s.vec b) op)

/-- VBCAST (R167). -/
def execVbcast (d a : Reg) (t : BitVec 4) (s : State) : Result :=
  let w := laneWidth t.toNat
  s.vectorOp [.vector d, .scalar a] d (ofLanes w (List.replicate (laneCount t.toNat) (s.reg a).toNat), 0)

/-- VEXTR (R167): one lane to a scalar, sign-extended for I types. -/
def execVextr (d a b : Reg) (t : BitVec 4) (s : State) : Result :=
  let j := (s.reg b).toNat
  let x := laneOf (s.vec a) (laneWidth t.toNat) j
  let v : Word := if laneCount t.toNat ≤ j then 0 else BitVec.ofInt 64 (laneInt t.toNat x)
  .next (s.plain 4 [.scalar d, .vector a, .scalar b] (fun s => s.putReg d v))

/-- VINS (R167): one lane of d from a scalar. -/
def execVins (d a b : Reg) (t : BitVec 4) (s : State) : Result :=
  let w := laneWidth t.toNat
  let j := (s.reg b).toNat
  let lanes := (lanesOf (s.vec d) w).set j ((s.reg a).toNat % 2 ^ w)
  s.vectorOp [.vector d, .scalar a, .scalar b] d (ofLanes w lanes, 0)

/-- One level of the pairwise tree of R168. -/
def pairLevel (op : Nat → Nat → Nat × Flags) : List Nat → List (Nat × Flags)
  | x :: y :: rest => op x y :: pairLevel op rest
  | _ => []

/-- The pairwise tree over n levels. -/
def treeReduce (op : Nat → Nat → Nat × Flags) : (levels : Nat) → List Nat → Flags → Nat × Flags
  | 0, v, f => (v.headD 0, f)
  | n + 1, v, f =>
    let l := pairLevel op v
    treeReduce op n (l.map (fun r => r.1)) (f ||| gatherFlags (l.map (fun r => r.2)))

/-- A reduction (R168): integers by one fold, FL lanes by the tree. -/
def State.reduceOp (s : State) (d a : Reg) (t : BitVec 4) (intFold : List Int → Int) (flOp : Fmt → Nat → Nat → Nat × Flags) : Result :=
  let ty := t.toNat
  let lanes := lanesOf (s.vec a) (laneWidth ty)
  let v : Word × Flags :=
    if isIntType ty then (BitVec.ofInt 64 (intFold (lanes.map (laneInt ty))), 0)
    else
      let r := treeReduce (flOp (laneFormat ty)) (Nat.log2 (laneCount ty)) lanes 0
      (BitVec.ofNat 64 r.1, r.2)
  .next (s.plain 4 [.scalar d, .vector a] (fun s => (s.putReg d v.1).raise v.2))

/-- The greatest and the least of a list. -/
def maxOf (l : List Int) : Int := l.foldl max (l.headD 0)
def minOf (l : List Int) : Int := l.foldl min (l.headD 0)

/-- VREDADD (R168): RNE at every level. -/
def execVredadd (d a : Reg) (t : BitVec 4) (s : State) : Result := s.reduceOp d a t (fun l => l.foldl (· + ·) 0) (fun f x y => f.add .rne x y)

/-- VREDMAX (R168). -/
def execVredmax (d a : Reg) (t : BitVec 4) (s : State) : Result := s.reduceOp d a t maxOf (fun f x y => f.minmax true x y)

/-- VREDMIN (R168). -/
def execVredmin (d a : Reg) (t : BitVec 4) (s : State) : Result := s.reduceOp d a t minOf (fun f x y => f.minmax false x y)

/-- The lane z plus the exact sum of products of a group (R169), rounded once by RNE. -/
def dotLane (f : Fmt) (z : Nat) (pairs : List (Nat × Nat)) : Nat × Flags :=
  let ps := pairs.map (fun p => (f.value p.1).mul (f.value p.2))
  let terms := ps.map (fun p => p.1)
  fp32.sum .rne (fp32.value z :: terms) (ps.any (fun p => p.2) || (anyInf false terms && anyInf true terms))

/-- VDOT (R169): groups of g = 32 / w lanes into 32-bit lanes of d. -/
def execVdot (d a b : Reg) (t : BitVec 4) (s : State) : Result :=
  let ty := t.toNat
  let w := laneWidth ty
  let g := 32 / w
  let lane := fun (k : Nat) =>
    let z := laneOf (s.vec d) 32 k
    let pairs := (List.range g).map (fun i => (laneOf (s.vec a) w (k * g + i), laneOf (s.vec b) w (k * g + i)))
    if isIntType ty then
      (intLane 32 (pairs.foldl (fun n p => n + laneInt ty p.1 * laneInt ty p.2) (z : Int)), (0 : Flags))
    else dotLane (laneFormat ty) z pairs
  let rs := (List.range 8).map lane
  s.vectorOp (vectors [d, a, b]) d (ofLanes 32 (rs.map (fun r => r.1)), gatherFlags (rs.map (fun r => r.2)))

/-- VMOV (R167). -/
def execVmov (d a : Reg) (_t : BitVec 4) (s : State) : Result := s.vectorOp (vectors [d, a]) d (s.vec a, 0)

/-! ### V-CVT (R170-R172) -/

/-- The bounds of an integer type. -/
def typeMin (t : Nat) : Int := if isSignedType t then -(2 : Int) ^ (laneWidth t - 1) else 0
def typeMax (t : Nat) : Int := if isSignedType t then (2 : Int) ^ (laneWidth t - 1) - 1 else (2 : Int) ^ laneWidth t - 1

/-- One element from type st to type dt (R171). With one type on both sides the element is copied, an infinite lane under SATRNE or SATSR too;
only a NaN becomes the quiet one (log 60, DESIGN CHOICE). -/
def convertElement (st dt : Nat) (r : Rounding) (sat : Bool) (x : Nat) : Nat × Flags :=
  if st = dt then
    (if isIntType st then (x, 0)
     else match (laneFormat st).value x with
       | .nan sig => (laneFormat st).nanWith (flagIf sig flagNV)
       | _ => (x, 0))
  else if isIntType st then
    let v := laneInt st x
    if isIntType dt then
      (if typeMax dt < v then (intLane (laneWidth dt) (typeMax dt), flagNV)
       else if v < typeMin dt then (intLane (laneWidth dt) (typeMin dt), flagNV)
       else (intLane (laneWidth dt) v, 0))
    else (laneFormat dt).ofNum r sat (Num.ofInt v)
  else
    let v := (laneFormat st).value x
    if isIntType dt then
      let i := v.toInteger r (typeMin dt) (typeMax dt)
      (intLane (laneWidth dt) i.1, i.2)
    else (laneFormat dt).ofNum r sat v

/-- SRSEED as the thread's core reads it (05_numbers R132). -/
def State.seed (s : State) (c : CoreId) (k : Nat) : Word :=
  match s.partOf c k with
  | some p => (s.part p).srseed
  | none => 0

/-- VCVT (R170-R172): element e of min(lanes) takes the word of R153; SR and SATSR advance CVTCNT once. -/
def execVcvt (d a : Reg) (t st : BitVec 4) (n : BitVec 5) (s : State) : Result :=
  let src := st.toNat
  let dst := t.toNat
  let rnd := n.toNat
  let count := min (laneCount src) (laneCount dst)
  let elem := fun (e : Nat) =>
    let h := stochasticWord (s.seed s.curCore s.curSlot) (s.vtid s.curCore s.curSlot) s.cur.cvtcnt e
    let r := conversionRounding rnd h
    convertElement src dst r.1 r.2 (laneOf (s.vec a) (laneWidth src) e)
  let rs := (List.range count).map elem
  let v := ofLanes (laneWidth dst) (rs.map (fun r => r.1))
  let fl := gatherFlags (rs.map (fun r => r.2))
  .next (s.plain 4 (vectors [d, a]) (fun s =>
    let s1 := (s.putVec d v).raise fl
    if rnd = 4 ∨ rnd = 6 then s1.countConversion else s1))

/-! ### V-SFU (R173) -/

/-- A special function in each lane, from the vector iterative unit. -/
def State.sfuOp (s : State) (fn : Sfu) (d a : Reg) (t : BitVec 4) : Result :=
  s.vectorIter (vectors [d, a]) d (mapLanes t.toNat 0 (s.vec a) 0 (fun _ x _ => (laneFormat t.toNat).specialLane fn x))
    (if t.toNat = 13 then 39 else 23)

/-- VRCP (R173). -/
def execVrcp (d a : Reg) (t : BitVec 4) (s : State) : Result := s.sfuOp .rcp d a t

/-- VRSQ (R173). -/
def execVrsq (d a : Reg) (t : BitVec 4) (s : State) : Result := s.sfuOp .rsq d a t

/-- VEXP2 (R173). -/
def execVexp2 (d a : Reg) (t : BitVec 4) (s : State) : Result := s.sfuOp .exp2 d a t

/-- VLOG2 (R173). -/
def execVlog2 (d a : Reg) (t : BitVec 4) (s : State) : Result := s.sfuOp .log2 d a t

/-- VSIN (R173). -/
def execVsin (d a : Reg) (t : BitVec 4) (s : State) : Result := s.sfuOp .sin d a t

/-- VCOS (R173). -/
def execVcos (d a : Reg) (t : BitVec 4) (s : State) : Result := s.sfuOp .cos d a t

/-- VTANH (R173). -/
def execVtanh (d a : Reg) (t : BitVec 4) (s : State) : Result := s.sfuOp .tanh d a t

/-- VSIGM (R173). -/
def execVsigm (d a : Reg) (t : BitVec 4) (s : State) : Result := s.sfuOp .sigm d a t

end Sys2Proof.Machine
end

