-- ==== Sys2Proof/Machine/Press.lean ====
section
/-! DEFINITION. The press: tiles, matrix instructions, the epilogue, fetch and arbitration (11_press R287-R314). -/

namespace Sys2Proof.Machine

/-! ### Formats and elements (R288-R290) -/

/-- Whether block scales are allowed. -/
def pressScaled (f : Nat) : Bool := f == 3 || f == 4 || f == 6

/-- The number format of a code other than I8. -/
def pressFmt (f : Nat) : Fmt :=
  match f with
  | 0 => fp32
  | 1 => bf16
  | 2 => fp16
  | 3 => fpE4m3
  | 4 => fpE5m2
  | _ => fp4

/-- The bits of element k of row r of an operand's bytes. -/
def operandBits (f : Nat) (bs : List Byte) (r k : Nat) : Nat :=
  let w := pressBits f
  let bitAt := k * w
  ofBytes ((bs.drop (r * pressRow f + bitAt / 8)).take ((w + 7) / 8)) / 2 ^ (bitAt % 8) % 2 ^ w

/-- A value multiplied by a power of two. -/
def Num.scale (v : Num) (e : Int) : Num :=
  match v with
  | .fin n m x => .fin n m (x + e)
  | v => v

/-- val(X, r, k) (R290). -/
def operandValue (f : Nat) (scaled : Bool) (bs : List Byte) (r k : Nat) : Num :=
  let v := (pressFmt f).value (operandBits f bs r k)
  if scaled then
    let sc := ((bs.drop (32 * pressRow f + r * (pressK f / 32) + k / 32)).headD 0).toNat
    if sc = 255 then .nan false else v.scale ((sc : Int) - 127)
  else v

/-! ### One output element (R291, R292) -/

/-- One group sum S: its value, and whether NV is raised. -/
def groupSum (products : List (Num × Bool)) (signalling : Bool) : Num × Bool :=
  let ts := products.map (fun p => p.1)
  let zeroInf := products.any (fun p => p.2)
  let both := anyInf false ts && anyInf true ts
  let nv := zeroInf || both || signalling
  if zeroInf || both || ts.any Num.isNan then (.nan false, nv)
  else if anyInf false ts then (.inf false, nv)
  else if anyInf true ts then (.inf true, nv)
  else
    let lo := minExp ts
    let v := sumFin lo ts
    if v = 0 then (.fin (allZero true ts) 0 0, nv) else (.fin (decide (v < 0)) v.natAbs lo, nv)

/-- Add a group sum into an accumulator word, rounding once. A NaN accumulator raises nothing. -/
def accumulate (acc : Nat) (sum : Num × Bool) : Nat × Flags :=
  let a := match fp32.value acc with | .nan _ => Num.nan false | v => v
  let r := fp32.sum .rne [a, sum.1] false
  (r.1, r.2 ||| flagIf sum.2 flagNV)

/-- Element (m, n) of an MMA: every group in ascending order. -/
def mmaElement (f : Nat) (sa sb : Bool) (as bs : List Byte) (m n acc : Nat) : Nat × Flags :=
  let groups := (pressK f + 15) / 16
  (List.range groups).foldl (fun z g =>
    let ks := (List.range (min 16 (pressK f - 16 * g))).map (fun i => 16 * g + i)
    if f = 5 then
      let sum := ks.foldl (fun (t : Int) k => t + sintN (operandBits f as m k) 8 * sintN (operandBits f bs n k) 8) 0
      ((((z.1 : Int) + sum) % (2 : Int) ^ 32).toNat, z.2)
    else
      let xs := ks.map (fun k => (operandValue f sa as m k, operandValue f sb bs n k))
      let sig := xs.any (fun x => x.1.isSignalling || x.2.isSignalling)
      let r := accumulate z.1 (groupSum (xs.map (fun x => x.1.mul x.2)) sig)
      (r.1, z.2 ||| r.2)) (acc, 0)

/-! ### Tiles -/

/-- A tile index. -/
def tileIx (n : Nat) : Fin 4 := ⟨n % 4, Nat.mod_lt _ (by decide)⟩

/-- Word i of a tile. -/
def PressCore.word (p : PressCore) (n i : Nat) : Nat := (p.acc[tileIx n].getD i 0).toNat

/-- A tile from its 1,024 words. -/
def tileOf (ws : List Nat) : Assoc (BitVec 32) :=
  (List.range 1024).filterMap (fun i =>
    let v : BitVec 32 := BitVec.ofNat 32 (ws.getD i 0)
    if v = 0 then none else some (i, v))

/-- Set a tile and its poison mark. -/
def Core.setTile (x : Core) (n : Nat) (t : Assoc (BitVec 32)) (mark : Bool) : Core :=
  { x with press := { x.press with acc := x.press.acc.set (tileIx n) t, marks := putBit x.press.marks (tileIx n).val mark } }

/-- The poison mark of a tile. -/
def PressCore.mark (p : PressCore) (n : Nat) : Bool := bit p.marks (tileIx n).val

/-! ### The epilogue (R303, R304) -/

/-- Fields of an epilogue bank. -/
def epiOfmt (b : List Word) : Nat := bf (b.getD 0 0) 3 0
def epiRnd (b : List Word) : Nat := bf (b.getD 0 0) 7 4
def epiAct (b : List Word) : Nat := bf (b.getD 0 0) 9 8
def epiBiasen (b : List Word) : Bool := bit (b.getD 0 0) 10
def epiAcct (b : List Word) : Bool := bit (b.getD 0 0) 11
def epiGmask (b : List Word) : Bool := bit (b.getD 0 0) 12
def epiClr (b : List Word) : Bool := bit (b.getD 0 0) 13

/-- A bank of the core. -/
def PressCore.bank (p : PressCore) (n : Nat) : List Word := if n = 0 then p.bank0 else p.bank1

/-- OFMT, RND and ACT are valid. -/
def epilogueOk (b : List Word) : Bool :=
  [0, 4, 8, 9, 10, 11, 12, 14].contains (epiOfmt b) && decide (epiRnd b < 7 ∧ epiAct b < 2)

/-- Element bits of an output type, and bytes of the output tile. -/
def outBits (ofmt : Nat) : Nat := laneWidth ofmt
def outBytes (ofmt : Nat) : Nat := 128 * outBits ofmt

/-- Element e of a tile through the epilogue: the output bits and the flags. -/
def epilogueElement (b : List Word) (base : Word) (x e : Nat) : Nat × Flags :=
  if epiAcct b && epiOfmt b == 4 && epiAct b == 0 && !epiBiasen b then (x, 0)
  else
    let t0 : Nat × Flags := if epiAcct b then fp32.ofNum .rne false (Num.ofInt (sintN x 32)) else (x, 0)
    let t1 := fp32.mul .rne t0.1 (bf (b.getD 1 0) 31 0)
    let bias := (bf (b.getD (2 + e % 32 / 2) 0) (32 * (e % 2) + 31) (32 * (e % 2)))
    let t2 := if epiBiasen b then fp32.add .rne t1.1 bias else (t1.1, 0)
    let t3 := if epiAct b = 1 then
        (match fp32.value t2.1 with
         | .nan _ => fp32.canon
         | .inf n => if n then 0 else t2.1
         | .fin n m _ => if n || m == 0 then 0 else t2.1)
      else t2.1
    let r := conversionRounding (epiRnd b) (mix (base ^^^ BitVec.ofNat 64 e))
    let out := if epiOfmt b = 12 then fp32.ofNum r.1 r.2 (fp32.value t3) else convertElement 12 (epiOfmt b) r.1 r.2 t3
    (out.1, t0.2 ||| t1.2 ||| t2.2 ||| out.2)

/-- The bytes of one output row, given the bytes that stand there: elements at or beyond ncols keep theirs. -/
def outRow (w : Nat) (els : List Nat) (ncols : Nat) (old : List Byte) : List Byte :=
  let n := min ncols 32
  let value := (List.range n).foldl (fun v j => v + els.getD j 0 % 2 ^ w * 2 ^ (w * j)) 0
  let kept := ofBytes old / 2 ^ (w * n) * 2 ^ (w * n)
  bytesOf (value + kept) ((w * n + 7) / 8)

/-! ### Place in the group (R294, R295) -/

/-- Inside the group, valid rows, valid columns, and the bytes added to the A and B addresses. -/
def groupPlace (geom : Word) (v : CoreId) : Bool × Nat × Nat × Int × Int :=
  let full := fun (n : Nat) => if n = 0 then 32 else n
  let rem := fun (n : Nat) => if 1 ≤ n ∧ n ≤ 32 then n else 32
  let ti : Int := (rowOf v : Int) - bf geom 4 0
  let tj : Int := (colOf v : Int) - bf geom 9 5
  let gh := full (bf geom 14 10)
  let gw := full (bf geom 19 15)
  (decide (0 ≤ ti ∧ ti < gh ∧ 0 ≤ tj ∧ tj < gw),
   if ti = (gh : Int) - 1 then rem (bf geom 25 20) else 32,
   if tj = (gw : Int) - 1 then rem (bf geom 31 26) else 32,
   ti * bf geom 44 32 * 64, tj * bf geom 57 45 * 64)

/-- The issuing thread's place. -/
def State.place_ (s : State) : Bool × Nat × Nat × Int × Int :=
  groupPlace s.cur.geom (s.virtual (s.partOf s.curCore s.curSlot) s.curCore)

/-! ### Checks (R297) -/

/-- A range of an unprivileged thread enters the spill area of a core with lending, wherever it ends (R297 order 3, 03_strands R96). -/
def State.entersSpill (s : State) (c : CoreId) (part : Option Nat) (level : Nat) (ga : Word) (n : Nat) : Bool :=
  let v := gaCore ga
  let h := if s.ownCoord c part v then some c else match part with
    | none => some v
    | some p => (match s.xlate p v with | .at_ h => some h | _ => none)
  decide (gaClass ga = 0) && s.isOwnPkg (gaPkg ga) && level == 0
    && (match h with | some h => isCompute h && (s.core h).lend && inSpillArea (bf ga 32 0) n | none => false)

/-- The core of the issuing core's own cluster that a virtual coordinate names: the press reaches it without a message, so no queue holds it
(R297, R306; 07_access R202). -/
def State.clusterMate (s : State) (c : CoreId) (part : Option Nat) (v : CoreId) : Option CoreId :=
  part.bind (fun p => match coreXlate (s.part p) v with
    | .at_ h => if clusterOf h = clusterOf c then some h else none
    | _ => none)

/-- Orders 2 to 5 on one range: its physical address. -/
def State.pressRange (s : State) (a : Word) (n : Nat) : Except FaultInfo Nat :=
  let c := s.curCore
  let t := s.cur
  let ga := t.segGa a
  let seg := bf a 63 61
  let part := s.partOf c s.curSlot
  match t.rangeFault a ⟨1, n, [], false, true, false, n⟩ with
  | some f => .error f
  | none =>
    if !bit (t.segWord a) rightE then .error ⟨0x12, seg, a, 0⟩
    else if s.entersSpill c part t.level ga n then .error ⟨0x12, 8, ga, 0⟩
    else match s.gaTarget c part ga n with
      | .bad d => .error ⟨0x13, d, ga, 0⟩
      | .self off => .ok (scratchAddr c off)
      | .scratch h off => if clusterOf h = clusterOf c then .ok (scratchAddr h off) else .error ⟨0x31, 0, ga, 0⟩
      | .held v off => match s.clusterMate c part v with
        | some h => .ok (scratchAddr h off)
        | none => .error ⟨0x31, 0, ga, 0⟩
      | _ => .error ⟨0x31, 0, ga, 0⟩

/-- Order 1 on an operand word. -/
def operandFormatOk (f : Nat) (w : Word) : Bool := decide (bf w 5 1 = 0) && (!bit w 0 || pressScaled f)

/-- The segmented address of an operand's tile. -/
def operandAddr (w : Word) (delta : Int) : Word := keepf w 63 6 + BitVec.ofInt 64 delta

/-- All checks on one operand: its physical address. -/
def State.operand (s : State) (f : Nat) (w : Word) (delta : Int) (rows : Nat) : Except FaultInfo Nat :=
  if !operandFormatOk f w then .error ⟨0x30, 0, w, 0⟩
  else s.pressRange (operandAddr w delta) (operandBytes f (bit w 0) rows)

/-! ### Commands (R298, R299) -/

/-- The cancels at EX of a press command: a full queue, or no free completion entry (R299; 12_engines R327). -/
def State.pressBusy (s : State) : Option Why :=
  let x := s.core s.curCore
  if 8 ≤ x.press.queue.length then some .pressFull else if x.freeEntry.isNone then some .completionFull else none

/-- Accept a command of the issuing thread: an entry, the handle, the queue (R298, R299, R306). -/
def State.acceptPress (s : State) (d : Reg) (r : Retire) (mk : Nat → PressCmd) : State :=
  let c := s.curCore
  match s.pressBusy, (s.core c).freeEntry with
  | some why, _ => s.cancel why
  | none, none => s.cancel .completionFull
  | none, some e =>
    ((s.takeEntry c s.curSlot e d 2).modCore c (fun x => { x with press := { x.press with queue := x.press.queue ++ [mk e] } })).done r

/-- A command with no operands of its own yet. -/
def State.pressCmd (s : State) (fn tile : Nat) (e : Nat) : PressCmd :=
  ⟨fn, 0, tile, 0, false, 0, false, 32, 32, true, 0, e, s.curSlot, s.cur.gen, s.vtid s.curCore s.curSlot, s.cur.cvtcnt,
    s.seed s.curCore s.curSlot, 0, 0⟩

/-- MMA and MMAG (R299): function 0 or 1. -/
def State.matrix (s : State) (fn : Nat) (f : BitVec 3) (n : BitVec 2) (a b : Reg) : State :=
  let c := s.curCore
  let k := s.curSlot
  let fmt := f.toNat
  let wa := s.reg a
  let wb := s.reg b
  let g := if fn = 1 then s.place_ else (true, 32, 32, 0, 0)
  let r : Retire := ⟨4, [a, b], 0⟩
  s.unlessPending (scalars [a, b])
    (if !g.1 then
       (if !operandFormatOk fmt wa then s.takeFault c k ⟨0x30, 0, wa, 0⟩
        else if !operandFormatOk fmt wb then s.takeFault c k ⟨0x30, 0, wb, 0⟩
        else s.acceptPress b r (fun e => { s.pressCmd fn n.toNat e with fmt := fmt, inside := false }))
     else match s.operand fmt wa g.2.2.2.1 g.2.1 with
       | .error x => s.takeFault c k x
       | .ok pa =>
         match s.operand fmt wb g.2.2.2.2 g.2.2.1 with
         | .error x => s.takeFault c k x
         | .ok pb =>
           s.acceptPress b r (fun e =>
             { s.pressCmd fn n.toNat e with fmt := fmt, aAddr := pa, aScale := bit wa 0, bAddr := pb, bScale := bit wb 0,
                                            mrows := g.2.1, ncols := g.2.2.1, aGa := s.cur.segGa (operandAddr wa g.2.2.2.1)
                                            bGa := s.cur.segGa (operandAddr wb g.2.2.2.2) }))

/-- MMA.fmt accN, a, b (R299). -/
def execMma (f : BitVec 3) (n : BitVec 2) (a b : Reg) (s : State) : Result := .next (s.matrix 0 f n a b)

/-- MMAG.fmt accN, a, b (R299, R295). -/
def execMmag (f : BitVec 3) (n : BitVec 2) (a b : Reg) (s : State) : Result := .next (s.matrix 1 f n a b)

/-- MXZERO d, accN (R300). -/
def execMxzero (d b : Reg) (s : State) : Result :=
  .next (s.unlessPending (scalars [d]) (s.acceptPress d ⟨4, [d], 0⟩ (fun e => s.pressCmd 2 b.toNat e)))

/-- MXLDA d, [a], accN (R301). -/
def execMxlda (d a b : Reg) (s : State) : Result :=
  let w := s.reg a
  .next (s.unlessPending (scalars [d, a])
    (if w.toNat % 64 ≠ 0 then s.takeFault s.curCore s.curSlot ⟨0x30, 0, w, 0⟩
     else match s.pressRange w 4096 with
       | .error x => s.takeFault s.curCore s.curSlot x
       | .ok pa => s.acceptPress d ⟨4, [d, a], 0⟩ (fun e => { s.pressCmd 3 b.toNat e with fmt := 8, aAddr := pa, aGa := s.cur.segGa w })))

/-- MXST d, [a], accN (R302): bound to the current bank; CVTCNT advances when that bank rounds stochastically. -/
def execMxst (d a b : Reg) (s : State) : Result :=
  let w := s.reg a
  let c := s.curCore
  let p := (s.core c).press
  let bank := p.bank p.current
  let g := if epiGmask bank then s.place_ else (true, 32, 32, 0, 0)
  .next (s.unlessPending (scalars [d, a])
    (if w.toNat % 64 ≠ 0 then s.takeFault c s.curSlot ⟨0x30, 0, w, 0⟩
     else match s.pressBusy, s.pressRange w (outBytes (epiOfmt bank)) with
       | some why, _ => s.cancel why
       | none, .error x => s.takeFault c s.curSlot x
       | none, .ok pa =>
         let s1 := s.acceptPress d ⟨4, [d, a], 0⟩ (fun e =>
           { s.pressCmd 4 b.toNat e with aAddr := pa, mrows := g.2.1, ncols := g.2.2.1, inside := g.1, bank := p.current })
         if (epiRnd bank = 4 ∨ epiRnd bank = 6) ∧ s1.cur.st ≠ .blocked then s1.countConversion else s1))

/-- An accepted MXST of a core is bound to a bank and has not completed. -/
def State.bankBusy (s : State) (c : CoreId) (n : Nat) : Bool :=
  (s.core c).press.queue.any (fun p => p.fn == 4 && p.bank == n)
    || (match (s.cluster (clusterOf c)).running with
        | some r => r.pos == posOf c && r.cmd.fn == 4 && r.cmd.bank == n
        | none => false)

/-- A reload of a core's idle bank is on its way to its WB. -/
def Core.reloading (x : Core) : Bool := x.landing.any (fun e => match e.effect with | .epilogue _ => true | _ => false)

/-- The idle epilogue bank takes a descriptor and becomes the current one (R305). -/
def PressCore.reload (p : PressCore) (b : List Word) : PressCore :=
  if p.current = 1 then { p with bank0 := b, current := 0 } else { p with bank1 := b, current := 1 }

/-- MXEPI [a] (R305): an MXST binds its bank in cycle i + 7 of its own issue, and the reload takes place in i + 11, after which the thread issues
again. A second reload waits for the first. -/
def execMxepi (a : Reg) (s : State) : Result :=
  let c := s.curCore
  let k := s.curSlot
  let idle := 1 - (s.core c).press.current
  .next (s.unlessPending (scalars [a])
    (match s.checkOwn c k (s.reg a) 32 160 [rightR] 0x21 with
     | .error f => s.takeFault c k f
     | .ok pa =>
       if s.isHeld pa 160 then s.holdLocal pa 160
       else if s.bankBusy c idle || (s.core c).reloading then s.cancel .epilogueBank
       else
         let b := s.readWords pa 20
         if !epilogueOk b then s.takeFault c k ⟨0x32, 0, s.reg a, 0⟩
         else ((s.modCore c (fun x => x.addLanding k 4 (.epilogue b))).done ⟨4, [a], 0⟩).modCur
           (fun t => { t with readyAt := max t.readyAt (s.now + 12) })))

/-! ### Fetch (R306, R307) -/

/-- Whether a command has a fetch. -/
def PressCmd.fetches (p : PressCmd) : Bool := p.inside && (p.fn == 0 || p.fn == 1 || p.fn == 3)

/-- The span of an MXST in its destination core. -/
def State.mxstSpan (s : State) (c : CoreId) (p : PressCmd) : Nat × Nat :=
  let lo := scratchOff p.aAddr
  (lo, lo + outBytes (epiOfmt ((s.core c).press.bank p.bank)))

/-- Pieces of at most 8 bytes of n bytes at an offset. -/
def piecesOf (off n : Nat) : List (Nat × Nat) := (List.range ((n + 7) / 8)).map (fun i => (off + 8 * i, min 8 (n - 8 * i)))

/-- The pieces that a fetch reads, by offset in the tile and length: rows, then scales. -/
def fetchPieces (fmt : Nat) (scaled : Bool) (rows : Nat) : List (Nat × Nat) :=
  if fmt = 8 then piecesOf 0 4096
  else piecesOf 0 (rows * pressRow fmt) ++ (if scaled then piecesOf (32 * pressRow fmt) (rows * (pressK fmt / 32)) else [])

/-- The operands that a command reads: number, GA, scale flag, rows and physical address. -/
def PressCmd.operands (p : PressCmd) : List (Nat × Word × Bool × Nat × Nat) :=
  if !p.fetches then []
  else if p.fn = 3 then [(0, p.aGa, false, 32, p.aAddr)]
  else [(0, p.aGa, p.aScale, p.mrows, p.aAddr), (1, p.bGa, p.bScale, p.ncols, p.bAddr)]

/-- A fetch of a command's operand, if it has begun. -/
def Cluster.fetchOf (u : Cluster) (pos : Nat) (p : PressCmd) (op : Nat) : Option TileFetch :=
  u.fetches.find? (fun f => f.pos == pos && f.entry == p.entry && f.op == op)

/-- Every piece is read. -/
def TileFetch.finished (f : TileFetch) : Bool := f.joined || decide ((fetchPieces f.fmt f.scaled f.rows).length ≤ f.next)

/-- The acquire point that a command's fetch must not precede: that of the thread that issued it; one that has left its slot takes no
tile of another fetch (log 82, DESIGN CHOICE). -/
def State.pressAcquire (s : State) (c : CoreId) (p : PressCmd) : Nat :=
  let t := s.slot c p.slot
  if t.accepts p.gen then t.acq else s.tick

/-- Whether a command takes an operand from another core's fetch (R307): the same tile, no byte of it written since that fetch began, and the
fetch after the thread's acquire point. -/
def TileFetch.serves (f g : TileFetch) (acq : Nat) : Bool :=
  f.pos != g.pos && f.ga == g.ga && f.base == g.base && f.fmt == g.fmt && f.scaled == g.scaled && f.rows == g.rows
    && f.clean && !f.joined && decide (acq < f.began)

/-- Add a piece at an offset to the bytes of a tile. -/
def TileFetch.take (f : TileFetch) (off : Nat) (bs : List Byte) (bad : Bool) : TileFetch :=
  { f with next := f.next + 1, bytes := f.bytes ++ List.replicate (off - f.bytes.length) 0 ++ bs, bad := f.bad || bad }

/-- All pieces of a tile as they stand at their home. -/
def State.readTile (s : State) (f : TileFetch) : TileFetch :=
  (fetchPieces f.fmt f.scaled f.rows).foldl (fun g z => g.take z.1 (s.readBytes (f.base + z.1) z.2) (s.isPoisoned (f.base + z.1) z.2)) f

/-- Replace a fetch. -/
def Cluster.setFetch (u : Cluster) (f : TileFetch) : Cluster :=
  { u with fetches := u.fetches.filter (fun g => !(g.pos == f.pos && g.entry == f.entry && g.op == f.op)) ++ [f] }

/-- The order in which a source core serves the fetches that reach it: as they began, with ties in ascending cluster position, and A before B (R306). -/
def TileFetch.before (f g : TileFetch) : Bool :=
  decide (f.began < g.began) || (f.began == g.began && (decide (f.pos < g.pos) || (f.pos == g.pos && decide (f.op < g.op))))

/-- The source core of a fetch serves it now. -/
def Cluster.turnOf (u : Cluster) (f : TileFetch) : Bool :=
  u.fetches.all (fun g => g.finished || homeOf g.base != homeOf f.base || !g.before f)

/-- The packet of a piece that a press reads at its source (08_messages R214): taken up where its gate admits it, within the step that performs it
(log 86). -/
def State.operandPacket (s : State) (c : CoreId) (a n : Nat) : Msg :=
  ⟨c, homeOf a, 0, 0, (s.bulkhead (bulkheadOf c)).owner, none, 0x7FFFF, 0, ones, 0xFFF, none, false, none, .operand a n⟩

/-- One operand of the head of a core's queue: its fetch begins, or, when it is its turn, reads its next piece unless that is held; a tile that it
takes from another fetch is read at once, unless it is held (10_ordering R280). -/
def State.fetchOperand (s : State) (c : CoreId) (p : PressCmd) (z : Nat × Word × Bool × Nat × Nat) : State :=
  let u := s.cluster (clusterOf c)
  match u.fetchOf (posOf c) p z.1 with
  | none =>
    let f : TileFetch := ⟨posOf c, p.entry, z.1, z.2.1, p.fmt, z.2.2.1, z.2.2.2.1, z.2.2.2.2, s.tick, 0, [], false, true, false⟩
    if u.fetches.any (fun h => h.serves f (s.pressAcquire c p)) then
      (if s.isHeld f.base f.size then s.powerFor f.base f.size
       else s.modCluster (clusterOf c) (fun u => u.setFetch { s.readTile f with joined := true }))
    else s.modCluster (clusterOf c) (fun u => u.setFetch f)
  | some f =>
    match (fetchPieces f.fmt f.scaled f.rows)[f.next]? with
    | none => s
    | some (off, n) =>
      if f.joined || !u.turnOf f then s
      else if s.isAbsent (s.operandPacket c (f.base + off) n) then s
      else if s.isHeld (f.base + off) n then s.powerFor (f.base + off) n
      else s.modCluster (clusterOf c) (fun u => u.setFetch (f.take off (s.readBytes (f.base + off) n) (s.isPoisoned (f.base + off) n)))

/-- The press of a core works for it: its core clock runs and no pre-emption has halted it (R287, R313). -/
def State.pressRuns (s : State) (c : CoreId) : Bool := s.clockRuns c && !(s.core c).halted

/-- PRESS_FETCH (R306): the next piece of each operand of the head is read into the staging buffer. -/
def execPressFetch (c : Nat) (s : State) : Result :=
  .next (match (s.core c).press.queue with
    | p :: _ =>
      if s.pressRuns c = false then s
      else if p.fn = 4 then
        let b := s.mxstSpan c p
        s.powerFor p.aAddr (b.2 - b.1)
      else p.operands.foldl (fun q z => q.fetchOperand c p z) s
    | [] => s)

/-! ### Start (R288, R306, R308) -/

/-- Every operand of a command is in the staging buffer. -/
def Cluster.staged (u : Cluster) (pos : Nat) (p : PressCmd) : Bool :=
  p.operands.all (fun z => match u.fetchOf pos p z.1 with | some f => f.finished | none => false)

/-- A head is ready (R306). -/
def State.pressReady (s : State) (c : CoreId) : Bool :=
  s.pressRuns c && match (s.core c).press.queue with
  | [] => false
  | p :: _ =>
    if p.fn = 4 then
      let b := s.mxstSpan c p
      let h := s.core (homeOf p.aAddr)
      h.sbWait.isEmpty && h.canGrant b.1 b.2 && !s.midAccess (homeOf p.aAddr) b.1 b.2 && !h.bankDown b.1 (b.2 - b.1)
    else (s.cluster (clusterOf c)).staged (posOf c) p

/-- The choice of the arbiter: the position, and the new count (R308). -/
def State.arbitrate (s : State) (cl : Nat) : Option (Nat × Nat) :=
  let u := s.cluster cl
  let ready := fun (j : Nat) => s.pressReady (clusterCore cl j)
  if ready u.arbPos && decide (u.arbCount < bf (s.core (clusterCore cl u.arbPos)).pxw 3 0) then some (u.arbPos, u.arbCount + 1)
  else ((List.range 8).map (fun i => (u.arbPos + 1 + i) % 8)).find? ready |>.map (fun p => (p, 1))

/-- Every row of an MXST written: the output, or poison (R304, R311). Nothing sees it before the scoreboard entry retires (R302). -/
def State.storeTile (s : State) (p : PressCmd) (ofmt : Nat) (els : List Nat) (poisoned : Bool) : State :=
  let w := outBits ofmt
  (List.range p.mrows).foldl (fun q m =>
    let at_ := p.aAddr + m * (4 * w)
    let old := q.readBytes at_ (4 * w)
    let row := outRow w ((els.drop (32 * m)).take 32) p.ncols old
    if poisoned then q.putPoison at_ (old.take row.length) else q.putMem at_ row) s

/-- The effect of a command at its start: the state and the status (R299-R304, R311). An MMAG, or an MXST under GMASK, outside its group answers
CODE 4 on a poisoned tile too, where R311 alone would say 3 (log 58, DESIGN CHOICE). -/
def State.pressEffect (s : State) (c : CoreId) (p : PressCmd) : State × Word :=
  let pc := (s.core c).press
  let mark := pc.mark p.tile
  let data := fun (op : Nat) => (s.cluster (clusterOf c)).fetchOf (posOf c) p op
  match p.fn with
  | 2 => (s.modCore c (fun x => x.setTile p.tile [] false), completionWord 0 0)
  | 3 =>
    (match data 0 with
     | some f =>
       if f.bad then (s.modCore c (fun x => x.setTile p.tile x.press.acc[tileIx p.tile] true), completionWord 0 3)
       else
         let ws := (List.range 1024).map (fun i => ofBytes ((f.bytes.drop (4 * i)).take 4))
         (s.modCore c (fun x => x.setTile p.tile (tileOf ws) false), completionWord 0 0)
     | none => (s, completionWord 0 0))
  | 4 =>
    let b := pc.bank p.bank
    let clear := fun (q : State) => if epiClr b then q.modCore c (fun x => x.setTile p.tile [] false) else q
    if !p.inside then (s, completionWord 0 4)
    else if mark then (clear (s.storeTile p (epiOfmt b) [] true), completionWord 0 3)
    else
      let base := stochasticBase p.seed p.vtid p.cvt
      let outs := (List.range 1024).map (fun e => epilogueElement b base (pc.word p.tile e) e)
      let written := (List.range 1024).filter (fun e => decide (e / 32 < p.mrows ∧ e % 32 < p.ncols))
      let fl := gatherFlags (written.map (fun e => (outs.getD e (0, 0)).2))
      (clear (s.storeTile p (epiOfmt b) (outs.map (fun o => o.1)) false), completionWord fl 0)
  | _ =>
    if !p.inside then (s, completionWord 0 4)
    else match data 0, data 1 with
      | some fa, some fb =>
        if mark || fa.bad || fb.bad then (s.modCore c (fun x => x.setTile p.tile x.press.acc[tileIx p.tile] true), completionWord 0 3)
        else
          let outs := (List.range 1024).map (fun e =>
            if e / 32 < p.mrows ∧ e % 32 < p.ncols then mmaElement p.fmt p.aScale p.bScale fa.bytes fb.bytes (e / 32) (e % 32) (pc.word p.tile e)
            else (pc.word p.tile e, 0))
          (s.modCore c (fun x => x.setTile p.tile (tileOf (outs.map (fun o => o.1))) false),
           completionWord (gatherFlags (outs.map (fun o => o.2))) 0)
      | _, _ => (s, completionWord 0 0)

/-- PRESS_START (R308): the arbiter starts one ready head; an MXST takes its scoreboard entry in that cycle (R302). -/
def execPressStart (cl : Nat) (s : State) : Result :=
  let u := s.cluster cl
  .next (if u.running.isSome then s
    else match s.arbitrate cl with
      | none => s
      | some (j, count) =>
        let c := clusterCore cl j
        match (s.core c).press.queue with
        | [] => s
        | p :: rest =>
          let s1 := (s.modCore c (fun x => { x with press := { x.press with queue := rest } })).wakeFor c (fun w => w == .pressFull)
          let h := homeOf p.aAddr
          let span := if p.fn = 4 then some (s.core h).nextSpan else none
          let b := s.mxstSpan c p
          let s2 := if p.fn = 4 then
              s1.modCore h (fun x => { x with sb := x.sb ++ [⟨x.nextSpan, b.1, b.2, .press⟩], nextSpan := x.nextSpan + 1 })
            else s1
          let q := s2.pressEffect c p
          q.1.modCluster cl (fun u => { u with arbPos := j, arbCount := count, running := some ⟨j, p, span, q.2⟩ }))

/-- PRESS_COMPLETE (R309): the status is written, and an MXST's entry retires and its waiters see what it wrote (09_sync R266). -/
def execPressComplete (cl : Nat) (s : State) : Result :=
  .next (match (s.cluster cl).running with
    | none => s
    | some r =>
      let c := clusterCore cl r.pos
      if s.clockRuns c = false then s
      else
        let s1 := (s.modCluster cl (fun u => { u with running := none })).dropFetches c (fun f => f.entry == r.cmd.entry)
        let s2 := match r.span with
          | some id => s1.retireSpans (homeOf r.cmd.aAddr) (fun z => z.id == id && z.owner == SbOwner.press)
          | none => s1
        (s2.finishEntry c r.cmd.entry r.status).wakeFor c (fun w => w == Why.epilogueBank))

end Sys2Proof.Machine
end

