-- ==== Sys2Proof/Machine/Tasks.lean ====
section
/-! DEFINITION. Codelet counters, CLEND, the carafe's queues and chunk counters: the instructions (13_tasks R348-R354, R366-R369). -/

namespace Sys2Proof.Machine

/-! ### Operations on a descriptor (R350-R352) -/

/-- What an operation on a descriptor does at its home: the state, the result word, whether a decrement found COUNT = 0. -/
structure CodeletDone where
  s : State
  word : Word
  under : Bool

/-- The result word (R350). -/
def codeletWord (w : Word) (pushed under busy : Bool) : Word :=
  BitVec.ofNat 64 (descCount w + descState w * 2 ^ 32 + pushed.toNat * 2 ^ 40 + under.toNat * 2 ^ 41 + busy.toNat * 2 ^ 42)

/-- The operation would push its codelet onto the ready ring (R351). -/
def codeletPushes (op : Nat) (w : Word) (n : Nat) : Bool :=
  let st := descState w
  match op with
  | 0 => decide (n = 0) && (st == 0 || st == 1 || st == 5 || st == 6)
  | 1 => decide (descCount w = 1 ∧ st = 1)
  | _ => st == 0 || st == 1 || st == 5

/-- Perform CLINIT (0), CLDEC (1) or CLPUSH (2) on the descriptor at an offset of its owner (R351). -/
def State.performCodelet (s : State) (h : CoreId) (op desc n : Nat) (rcb : Word) : CodeletDone :=
  let at4 := descAddr h desc 4
  let w := s.readWord at4
  let st := descState w
  let put := fun (q : State) (v : Word) => q.writeWord at4 v
  match op with
  | 0 =>
    if st = 4 then
      ⟨(put s (setf (setf w 31 0 n) 38 38 1)).writeWord (descAddr h desc 5) rcb, codeletWord w false false false, false⟩
    else if st = 2 ∨ st = 3 ∨ st = 7 then ⟨s, codeletWord w false false true, false⟩
    else
      let w1 := setf (setf (setf w 31 0 n) 39 38 0) 34 32 1
      let s1 := s.writeWord (descAddr h desc 5) rcb
      if n = 0 then ⟨s1.pushDesc h desc w1, codeletWord w true false false, false⟩
      else ⟨put s1 w1, codeletWord w false false false, false⟩
  | 1 =>
    if descCount w = 0 then ⟨put s (setf w 39 39 1), codeletWord w false true false, true⟩
    else
      let w1 := setf w 31 0 (descCount w - 1)
      if st = 1 ∧ descCount w = 1 then ⟨s.pushDesc h desc w1, codeletWord w true false false, false⟩
      else ⟨put s w1, codeletWord w false false false, false⟩
  | _ =>
    if st = 4 then ⟨put s (setf (setf w 31 0 0) 38 38 1), codeletWord w false false false, false⟩
    else if st = 2 ∨ st = 3 ∨ st = 6 ∨ st = 7 then ⟨s, codeletWord w false false true, false⟩
    else ⟨s.pushDesc h desc (setf w 31 0 0), codeletWord w true false false, false⟩

/-- The operation's push must wait because the ring is full (R357). -/
def State.codeletHeld (s : State) (h : CoreId) (op desc n : Nat) : Bool :=
  (s.core h).ringFull && codeletPushes op (s.readWord (descAddr h desc 4)) n

/-- The entry of the ring that the operation's push would write is held (10_ordering R280; 03_strands R90). -/
def State.codeletWaits (s : State) (h : CoreId) (op desc n : Nat) : Bool :=
  codeletPushes op (s.readWord (descAddr h desc 4)) n && s.isHeld (s.ringSlot h) 8

/-- The record of an underflow (R352): the descriptor's GA. -/
def underflowInfo (ga : Word) : FaultInfo := ⟨0x38, 0, ga, 0⟩

/-- The request leaves, after the release wait of CLDEC and CLPUSH (10_ordering R284). -/
def State.codeletSend (s : State) (op : Nat) (d : Reg) (r : Retire) (dst : CoreId) (held : Option CoreId) (addr n : Nat) : State :=
  let c := s.curCore
  let k := s.curSlot
  let body : Body := .codelet op addr n s.cur.rcbptr
  let scope := some (releaseScope c dst held)
  if op ≠ 0 ∧ s.cur.released scope c = false then
    s.block (.release scope (s.waitingPacket c k dst held body) (if d = 0 then none else some (.word d false)) r)
  else if d = 0 then (if s.cur.postRoom then (s.post c k dst held body).done r else s.cancel .postedFull)
  else s.request c k dst held body (.word d false) r

/-- A codelet operation of the issuing thread (R349, R353). -/
def State.codeletOp (s : State) (op : Nat) (names : List Reg) (d a : Reg) (n : Nat) : State :=
  let c := s.curCore
  let k := s.curSlot
  let r : Retire := ⟨4, names, 0⟩
  let ga := s.cur.segGa (s.reg a)
  s.unlessPending (scalars names)
    (match s.checkScratch c k (s.reg a) ⟨8, 48, [rightA], false, true, false, 48⟩ with
     | .error f => s.takeFault c k f
     | .ok (.self off) =>
       if !isCompute c then s.takeFault c k ⟨0x13, 2, ga, 0⟩
       else if s.isHeld (scratchAddr c off) 48 then s.holdLocal (scratchAddr c off) 48
       else if s.isPoisoned (descAddr c off 4) 8 then
         (if d = 0 then (s.report c (s.who c k) (poisonedUpdate ga)).done r else s.contain c k (poisonFault ga))
       else if s.codeletHeld c op off n then s.cancel .ringFull
       else if s.codeletWaits c op off n then s.holdLocal (s.ringSlot c) 8
       else
         let q := s.performCodelet c op off n s.cur.rcbptr
         let s1 := if q.under then q.s.report c (q.s.who c k) (underflowInfo ga) else q.s
         (s1.putReg d q.word).done r
     | .ok (.scratch h off) =>
       if !isCompute h then s.takeFault c k ⟨0x13, 2, ga, 0⟩ else s.codeletSend op d r h none (scratchAddr h off) n
     | .ok tgt =>
       match tgt.route (s.partOf c k) ga with
       | some (dst, held, addr) => s.codeletSend op d r dst held addr n
       | none => s.takeFault c k ⟨0x14, 0, ga, 0⟩)

/-- CLINIT d, [a], b (R351). -/
def execClinit (d a b : Reg) (s : State) : Result := .next (s.codeletOp 0 [d, a, b] d a (bf (s.reg b) 31 0))

/-- CLDEC d, [a] (R351, R352). -/
def execCldec (d a : Reg) (s : State) : Result := .next (s.codeletOp 1 [d, a] d a 0)

/-- CLPUSH d, [a] (R351). -/
def execClpush (d a : Reg) (s : State) : Result := .next (s.codeletOp 2 [d, a] d a 0)

/-- CLEND b or CLEND (R354): the context ends; a codelet from the ring is re-armed, re-counted or done. -/
def execClend (b : Reg) (s : State) : Result :=
  .next (s.unlessPending (scalars [b])
    (if b = 0 then s.halt ⟨4, [], 0⟩ none 0 0 else s.halt ⟨4, [b], 0⟩ (some (bf (s.reg b) 31 0)) 0 0))

/-! ### Queues and chunk counters (R366-R369) -/

/-- The scope of QPUSH (10_ordering R284): the narrowest that encloses the issuing core and every bulkhead of the effective bulkhead
mask of its RCB; package wide while one of them is held. -/
def State.queueScope (s : State) (c : CoreId) (k : Nat) : Nat :=
  match s.partOf c k with
  | none => 0
  | some p =>
    let mask := (s.part p).budget (s.slot c k).rcbptr
    let es := ((List.range 64).filter (fun v => bit mask v && entryState ((s.part p).entry v) != 0)).map (fun v => (s.part p).entry v)
    if es.any (fun e => entryState e == 2) then 4
    else
      let bhs := es.map (fun e => bf e 5 0)
      let dieOfBh := fun (b : Nat) => b / 8 / 2 * 4 + b % 8 / 2
      if bhs.isEmpty then 0
      else if !isCompute c then 4
      else if bhs.all (fun b => b == bulkheadOf c) then 2
      else if bhs.all (fun b => dieOfBh b == dieOf c) then 3
      else 4

/-- QPUSH d, a, b (R367). -/
def execQpush (d a b : Reg) (s : State) : Result :=
  let c := s.curCore
  let k := s.curSlot
  let q := bf (s.reg a) 9 0
  let dst := queueCore q
  let r : Retire := ⟨4, [d, a, b], 0⟩
  let body : Body := .queue 4 q (keepf (s.reg b) 62 0)
  let scope := some (s.queueScope c k)
  .next (s.unlessPending (scalars [d, a, b])
    (if !s.cur.released scope c then
       s.block (.release scope (s.waitingPacket c k dst none body) (if d = 0 then none else some (.word d false)) r)
     else if d = 0 then (if s.cur.postRoom then (s.post c k dst none body).done r else s.cancel .postedFull)
     else s.request c k dst none body (.word d false) r))

/-- QPOP d, a (R368). -/
def execQpop (d a : Reg) (s : State) : Result :=
  let q := bf (s.reg a) 9 0
  .next (s.unlessPending (scalars [d, a])
    (s.request s.curCore s.curSlot (queueCore q) none (.queue 5 q 0) (.word d false) ⟨4, [d, a], 0⟩))

/-- QPOPW d, a, b (R368): waits at the carafe; the timeout counts from EX. -/
def execQpopw (d a b : Reg) (s : State) : Result :=
  let q := bf (s.reg a) 9 0
  let t := bf (s.reg b) 31 0
  let r : Retire := ⟨4, [d, a, b], 0⟩
  let deadline := if t = 0 then none else some (s.now + 4 + t)
  .next (s.unlessPending (scalars [d, a, b])
    ((s.request s.curCore s.curSlot (queueCore q) none (.queue 6 q 0) (.word d false) r).modCur
      (fun x => { x with wait := .qpopw d deadline q (queueCore q) false none r })))

/-- CHNK d, a, b (R369): a b field of 0 takes, another initialises; always reply-bearing. -/
def execChnk (d a b : Reg) (s : State) : Result :=
  let q := bf (s.reg a) 9 0
  let body : Body := if b = 0 then .queue 7 q 0 else .queue 8 q (s.reg b)
  .next (s.unlessPending (scalars [d, a, b])
    (s.request s.curCore s.curSlot (queueCore q) none body (.word d false) ⟨4, [d, a, b], 0⟩))

end Sys2Proof.Machine
end

