-- ==== Sys2Proof/Machine/Population.lean ====
section
/-! DEFINITION. Fitness, ranking, the blend engine, the lineage log and collectives (14_population R372-R395). -/

namespace Sys2Proof.Machine

/-! ### Population sets (R376) -/

/-- Position of a virtual core in its virtual bulkhead. -/
def memberPos (v : CoreId) : Nat := rowOf v % 16 * 16 + colOf v % 16

/-- Bit p of a 256-bit mask of four doublewords. -/
def maskBit (ms : List Word) (p : Nat) : Bool := bit (ms.getD (p / 64) 0) (p % 64)

/-- A virtual bulkhead of the budget that has a physical one, mapped or held. -/
def Part.inSet (p : Part) (mask : BitVec 64) (v : Nat) : Bool := bit mask v && entryState (p.entry v) != 0

/-- Keys of the members of a set, rising (R376). -/
def Part.members (p : Part) (mask : BitVec 64) (ms : List Word) : List Nat :=
  ((List.range 16).filter (fun d => [0, 1, 8, 9].any (fun i => p.inSet mask (d / 4 * 16 + d % 4 * 2 + i)))).flatMap (fun d =>
    ((List.range 1024).map (fun i => d * 1024 + i)).filter (fun v => maskBit ms (memberPos v) && p.inSet mask (vbhOf v)))

/-- Members of the set that a thread names. -/
def State.membersOf (s : State) (part : Option Nat) (rcb : Word) (ms : List Word) : List Nat :=
  match part with
  | some p => (s.part p).members ((s.part p).budget rcb) ms
  | none => []

/-! ### Fitness (R374, R375) -/

/-- VALUE of a core. -/
def Core.fitness (x : Core) : Nat := bf x.fit 31 0

/-- VALUE is read, and set where a value is given, at the WB of an instruction of slot k that issues in cycle i: after the steps before the issue
of i + 4, which stand in i + 6, and before an engine's write in i + 7 (R374). -/
def State.fitAtWb (s : State) (c : CoreId) (k : Nat) (d : Reg) (v : Option Word) : State := s.modCore c (fun x => x.addLanding k 4 (.fit d v))

/-- FITSET d, a (R374). -/
def execFitset (d a : Reg) (s : State) : Result :=
  .next (s.unlessPending (scalars [d, a])
    ((s.fitAtWb s.curCore s.curSlot d (some (keepf (s.reg a) 31 0))).done ⟨4, [d, a], 0⟩))

/-- FITGET d, a (R375): an a field of 0 reads the issuing core. -/
def execFitget (d a : Reg) (s : State) : Result :=
  let c := s.curCore
  let r : Retire := ⟨4, [d, a], 0⟩
  let w := s.reg a
  .next (s.unlessPending (scalars [d, a])
    (if a = 0 then (s.fitAtWb c s.curSlot d none).done r
     else match s.targetWord w with
       | .error e => s.takeFault c s.curSlot ⟨0x13, e, w, 0⟩
       | .ok (dst, held) => s.request c s.curSlot dst held (.fitRead none) (.word d false) r))

/-! ### Ranking (R377-R380) -/

/-- The memory core at whose attach router the cupping unit of a die stands (R379). -/
def cuppingCore (die : Nat) : CoreId := carafeCore (die % 4 + 4 * (die / 8)) (16 * (die / 4 % 2))

/-- Check 2 of R378, for N members. -/
def rankFormatOk (ws : List Word) (n : Nat) : Bool :=
  let g := fun (i : Nat) => ws.getD i 0
  let policy := bf (g 0) 1 0
  let tsize := bf (g 0) 7 4
  let q := bf (g 0) 27 16
  decide (bf (g 0) 3 2 = 0 ∧ bf (g 0) 15 8 = 0 ∧ bf (g 0) 63 28 = 0 ∧ bf (g 1) 63 32 = 0)
    && decide (2 ≤ n ∧ n ≤ 16384 ∧ 1 ≤ q)
    && (if policy = 0 then decide (tsize = 0 ∧ q ≤ min (n / 2) 2048)
        else decide (policy = 1 ∧ 2 ≤ tsize ∧ tsize ≤ 8 ∧ q ≤ min (n - 1) 2048))

/-- The order of R379 on (key, VALUE): better first. -/
def ranksBefore (x y : Nat × Nat) : Bool :=
  let a := fp32.value x.2
  let b := fp32.value y.2
  if a.isNan then b.isNan && decide (x.1 < y.1)
  else if b.isNan then true
  else if b.lt a then true
  else if a.lt b then false
  else decide (x.1 < y.1)

/-- Insert a sample by rank. -/
def insertSample (x : Nat × Nat) : List (Nat × Nat) → List (Nat × Nat)
  | [] => [x]
  | y :: rest => if ranksBefore x y then x :: y :: rest else y :: insertSample x rest

/-- Samples by rank, best first. -/
def rankSamples (l : List (Nat × Nat)) : List (Nat × Nat) := l.foldr insertSample []

/-- The rank of the parent of pair i under tournament (R379). -/
def tournamentRank (seed : Word) (round n q i : Nat) : (tsize : Nat) → Nat
  | 0 => n
  | j + 1 =>
    let u := mix (mix (mix (mix (seed ^^^ 0x5B1D2E97C04A6F83#64) ^^^ BitVec.ofNat 64 round) ^^^ BitVec.ofNat 64 i) ^^^ BitVec.ofNat 64 j)
    min (tournamentRank seed round n q i j) (bf u 31 0 * (n - q) / 2 ^ 32)

/-- The pair table (R379). -/
def pairTable (ws : List Word) (ranked : List (Nat × Nat)) : List Word :=
  let g := fun (i : Nat) => ws.getD i 0
  let n := ranked.length
  let q := bf (g 0) 27 16
  (List.range q).map (fun i =>
    let child := ranked.getD (n - 1 - i) (0, 0)
    let rank := if bf (g 0) 1 0 = 0 then i else tournamentRank (g 2) (bf (g 1) 31 0) n q i (bf (g 0) 7 4)
    let parent := ranked.getD rank (0, 0)
    BitVec.ofNat 64 (child.1 + parent.1 * 2 ^ 16 + parent.2 * 2 ^ 32))

/-- One request of the cupping unit to member k of the set. -/
def State.sampleMember (s : State) (v k : Nat) : State :=
  let c := s.curCore
  match s.coreTarget v with
  | .error _ => s
  | .ok (dst, held) =>
    s.launch { s.packet c s.curSlot dst held none (.fitRead (some (k, c))) with src := cuppingCore (dieOf c) }

/-- The result word with CODE 2: what it says of N and NNAN is not stated (log 22, DESIGN CHOICE). -/
def absentRank (free : Word) : Word := BitVec.ofNat 64 (bf free 31 0 + 2 * 2 ^ 32)

/-- The samples of a set, each at its member's port (R379). -/
def State.sampleAll (s : State) (keys : List Nat) : State :=
  (keys.zipIdx).foldl (fun q x => q.sampleMember x.1 x.2) s

/-- POPRANK d, [a] (R378-R380). -/
def execPoprank (d a : Reg) (s : State) : Result :=
  let c := s.curCore
  let k := s.curSlot
  let base := s.reg a
  let r : Retire := ⟨4, [d, a], 0⟩
  .next (s.unlessPending (scalars [d, a])
    (match s.checkOwn c k base 8 64 [rightR] 0x21 with
     | .error f => s.takeFault c k f
     | .ok pa =>
       if s.isHeld pa 64 then s.holdLocal pa 64
       else
         let ws := s.readWords pa 8
         let keys := s.membersOf (s.partOf c k) s.cur.rcbptr (ws.drop 4)
         if !rankFormatOk ws keys.length then s.takeFault c k ⟨0x40, 0, base, 0⟩
         else match s.checkOwn c k (ws.getD 3 0) 8 (8 * bf (ws.getD 0 0) 27 16) [rightW] 0x22 with
           | .error f => s.takeFault c k f
           | .ok out =>
             if s.coreAbsent (cuppingCore (dieOf c)) then (s.fresh.putReg d (absentRank (Config.freeWord s.free))).done r
             else
               ((s.sampleAll keys).modCur (fun t =>
                 { t with outst := t.outst.putSparse 0 t.gen (t.outstanding t.gen + keys.length) })).block
                   (.poprank d out ws keys [] r)))

/-- The ranking of a thread whose members are all sampled: the table is written and the thread retires (R380). -/
def State.finishRank (s : State) (c : CoreId) (k : Nat) (d : Reg) (out : Nat) (desc : List Word) (keys : List Nat)
    (got : List (Nat × Option Word)) (r : Retire) : State :=
  if got.any (fun x => x.2.isNone) then (writeReg s.fresh c k d (absentRank (Config.freeWord s.free))).retire c k r
  else
    let samples := got.map (fun x => (keys.getD x.1 0, match x.2 with | some w => bf w 31 0 | none => 0))
    let nan := (samples.filter (fun x => (fp32.value x.2).isNan)).length
    let s1 := s.writeWords out (pairTable desc (rankSamples samples))
    (writeReg s1 c k d (BitVec.ofNat 64 (keys.length % 2 ^ 16 + nan % 2 ^ 16 * 2 ^ 16))).retire c k r

/-- A sample reaches the cupping unit: one for a thread that no longer waits is discarded. -/
def State.takeSample (s : State) (m : Msg) (req : CoreId) (index : Nat) (value : Option Word) : State :=
  let s0 := s.modSlot req m.slot (fun t => t.subOut m.gen)
  let t := s.slot req m.slot
  if !t.accepts m.gen then s0
  else match t.wait with
    | .poprank d out desc keys got r =>
      let got1 := got ++ [(index, value)]
      if got1.length < keys.length then s0.modSlot req m.slot (fun t => { t with wait := .poprank d out desc keys got1 r })
      else s0.finishRank req m.slot d out desc keys got1 r
    | _ => s0

/-- The table of a POPRANK waits for a hold at its own core (12_engines R325). -/
def State.sampleHeld (s : State) (m : Msg) (req : CoreId) : Bool :=
  let t := s.slot req m.slot
  match t.wait with
  | .poprank _ out desc keys got _ =>
    t.accepts m.gen && decide (keys.length ≤ got.length + 1) && s.isHeld out (8 * bf (desc.getD 0 0) 27 16)
  | _ => false

/-- The banks that the table of a POPRANK waits for power up (03_strands R90). -/
def State.powerSample (s : State) (m : Msg) (req : CoreId) : State :=
  match (s.slot req m.slot).wait with
  | .poprank _ out desc _ _ _ => s.powerFor out (8 * bf (desc.getD 0 0) 27 16)
  | _ => s

/-- FIT_READ (R375, R379): the VALUE of the target core, answered to the thread or to the cupping unit. -/
def State.serveFit (s : State) (m : Msg) : State :=
  let v : Word := BitVec.ofNat 64 (s.core m.dst).fitness
  match m.body with
  | .fitRead none => s.answerWith m .done (v.setWidth 256)
  | .fitRead (some (k, req)) => s.launch { m with src := m.dst, dst := m.src, held := none, body := .sample k (some v) req }
  | _ => s

/-! ### The blend engine (R381-R385) -/

/-- Fields of a blend descriptor (R381), in its eight doublewords. -/
def blendPairs (ws : List Word) : Nat := bf (ws.getD 0 0) 11 0
def blendFmt (ws : List Word) : Nat := bf (ws.getD 0 0) 15 12
def blendSat (ws : List Word) : Bool := bit (ws.getD 0 0) 16
def blendFitclr (ws : List Word) : Bool := bit (ws.getD 0 0) 17
def blendLog (ws : List Word) : Bool := bit (ws.getD 0 0) 18
def blendDpkg (ws : List Word) : Nat := bf (ws.getD 0 0) 59 48
def blendSoff (ws : List Word) : Nat := bf (ws.getD 2 0) 18 0
def blendDoff (ws : List Word) : Nat := bf (ws.getD 2 0) 50 32
def blendCount (ws : List Word) : Nat := bf (ws.getD 3 0) 31 0
def blendRound (ws : List Word) : Nat := bf (ws.getD 4 0) 63 32

/-- B of R381. -/
def blendBytes (ws : List Word) : Nat := blendCount ws * laneWidth (blendFmt ws) / 8

/-- Check 2 of R382. -/
def blendFormatOk (ws : List Word) (group : Bool) : Bool :=
  let g := fun (i : Nat) => ws.getD i 0
  let f := blendFmt ws
  let n := blendPairs ws
  decide (1 ≤ n ∧ n ≤ 2048) && [8, 9, 10, 11, 12, 14].contains f && (group || blendDpkg ws == 0)
    && decide (bf (g 0) 31 19 = 0 ∧ bf (g 0) 63 60 = 0 ∧ bf (g 2) 31 19 = 0 ∧ bf (g 2) 63 51 = 0 ∧ bf (g 3) 63 32 = 0 ∧ g 6 = 0 ∧ g 7 = 0)
    && decide (blendSoff ws % 8 = 0 ∧ blendDoff ws % 8 = 0 ∧ 1 ≤ blendCount ws)
    && (f != 14 || blendCount ws % 2 == 0)
    && decide (blendSoff ws + blendBytes ws ≤ 0x80000 ∧ blendDoff ws + blendBytes ws ≤ 0x80000)

/-- CHILD and PARENT of a pair. -/
def pairChild (w : Word) : CoreId := bf w 14 0
def pairParent (w : Word) : CoreId := bf w 30 16

/-- DETAIL of class "address" of a key that is no core of the partition (R29). -/
def State.keyFault (s : State) (part : Option Nat) (v : CoreId) : Option Nat :=
  match part with
  | none => some 4
  | some p =>
    if 16 ≤ dieOf v then some 2
    else match s.xlate p v with
      | .outside => some 4
      | _ => none

/-- Lending is enabled on the core that a key names; of a held one, in its image (03_strands R95; 07_access R202). -/
def State.lendsAt (s : State) (p : Nat) (v : CoreId) : Bool :=
  match s.xlate p v with
  | .at_ h => (s.core h).lend
  | .held => (match (s.part p).images.find v with | some i => i.core.lend | none => false)
  | .outside => false

/-- Checks 4 to 6 of R382 on the pairs; of a BLENDX, whose children are checked where they lie, the first two (R388). -/
def State.pairsFault (s : State) (part : Option Nat) (ws table : List Word) (group : Bool) (level : Nat) : Option FaultInfo :=
  let address := table.findSome? (fun w =>
    ((if group then none else s.keyFault part (pairChild w)).orElse (fun _ => s.keyFault part (pairParent w))).map
      (fun e => (⟨0x13, e, w, 0⟩ : FaultInfo)))
  let overlap := (table.find? (fun w => pairChild w == pairParent w)).map (fun w => (⟨0x35, 0, w, 0⟩ : FaultInfo))
  let spill := if group || level != 0 || !inSpillArea (blendDoff ws) (blendBytes ws) then none
    else (table.find? (fun w => match part with | some p => s.lendsAt p (pairChild w) | none => false)).map
      (fun w => (⟨0x12, 8, w, 0⟩ : FaultInfo))
  (address.orElse (fun _ => overlap)).orElse (fun _ => spill)

/-- The pair table of a BLEND or BLENDX has been read: checks 4 to 6 of R382, and then the command with its entry (R383, R388). -/
def State.acceptBlend (s : State) (c : CoreId) (k e : Nat) (d : Reg) (ws table : List Word) (group : Bool) : Except FaultInfo State :=
  let part := s.partOf c k
  let level := (s.slot c k).level
  match s.pairsFault part ws table group level with
  | some f => .error f
  | none =>
    let n := table.length
    let log := blendLog ws && !group
    let p := part.getD 0
    let cmd := { EngCmd.start 4 (.pairs (List.range n)) (s.memberAt c k e [] []) ws level with
                 pairsTable := table, seqBase := if log then some (s.part p).linHead else none
                 peer := if group then some (blendDpkg ws) else none }
    let s1 := s.takeEntry c k e d 4
    .ok ((if log then s1.reserveLineage p n else s1).addCommand cmd)

/-- BLEND and BLENDX (R382, R383, R388): the table is read at 32 bytes per cycle. -/
def State.blendOp (s : State) (d a : Reg) (group : Bool) : State :=
  let c := s.curCore
  let k := s.curSlot
  let base := s.reg a
  let part := s.partOf c k
  let r : Retire := ⟨4, [d, a], 0⟩
  s.unlessPending (scalars [d, a]) (s.withEntry (fun e =>
    match s.checkOwn c k base 8 64 [rightR] 0x21 with
    | .error f => s.takeFault c k f
    | .ok pa =>
      if s.isHeld pa 64 then s.holdLocal pa 64
      else
        let ws := s.readWords pa 8
        let n := blendPairs ws
        match s.checkOwn c k (ws.getD 1 0) 8 (8 * n) [rightR] 0x21 with
        | .error f => s.takeFault c k f
        | .ok pt =>
          if !blendFormatOk ws group then s.takeFault c k ⟨0x40, 0, base, 0⟩
          else if blendLog ws && (match part with | some p => (s.part p).linRecords == 0 | none => true) then
            s.takeFault c k ⟨0x41, 0, base, 0⟩
          else if s.isHeld pt (8 * n) then s.holdLocal pt (8 * n)
          else if group && (s.isOwnPkg (blendDpkg ws) || !s.isPeer (blendDpkg ws)) then
            s.takeFault c k ⟨0x13, 1, BitVec.ofNat 64 (blendDpkg ws), 0⟩
          else if 4 < n then s.block (.blend d group ws (pt + 32) (n - 4) (s.readWords pt 4) r)
          else match s.acceptBlend c k e d ws (s.readWords pt n) group with
            | .error f => s.takeFault c k f
            | .ok t => t.done r))

/-- The next 32 bytes of a pair table (R382); after the last the command is accepted, unless no completion entry is free by then (12_engines R327). -/
def State.blendStep (s : State) (c : CoreId) (k : Nat) : State :=
  match (s.slot c k).st, (s.slot c k).wait with
  | .blocked, .blend d group ws at_ left got r =>
    let got1 := got ++ s.readWords at_ (min left 4)
    if 4 < left then s.blockAt c k (.blend d group ws (at_ + 32) (left - 4) got1 r)
    else match (s.core c).freeEntry with
      | none => s.cancelAt c k .completionFull
      | some e => match s.acceptBlend c k e d ws got1 group with
        | .error f => (s.takeFault c k f).meetWake c k
        | .ok t => t.retire c k r
  | _, _ => s

/-- BLEND d, [a] (R383). -/
def execBlend (d a : Reg) (s : State) : Result := .next (s.blendOp d a false)

/-- BLENDX d, [a] (R388). -/
def execBlendx (d a : Reg) (s : State) : Result := .next (s.blendOp d a true)

/-- The exact sum of two values (R384). -/
def Num.plus (x t : Num) : Num × Flags :=
  let ts := [x, t]
  if ts.any Num.isNan then (.nan false, flagIf (ts.any Num.isSignalling) flagNV)
  else if anyInf false ts && anyInf true ts then (.nan false, flagNV)
  else if anyInf false ts then (.inf false, 0)
  else if anyInf true ts then (.inf true, 0)
  else
    let lo := minExp ts
    let v := sumFin lo ts
    if v = 0 then (.fin (allZero true ts) 0 lo, 0) else (.fin (decide (v < 0)) v.natAbs lo, 0)

/-- g of R384 as FP32 bits. -/
def noiseOf (h : Word) : Nat :=
  let v : Int := (bf h 15 0 + bf h 31 16 + bf h 47 32 + bf h 63 48 : Nat) - 131070
  (fp32.ofNum .rne false (.fin (decide (v < 0)) v.natAbs (-15))).1

/-- Element e of a pair (R384): the child's element and the flags. -/
def blendElement (ws : List Word) (key e x : Nat) : Nat × Flags :=
  let f := laneFormat (blendFmt ws)
  let v := fp32.ofNum .rne false (f.value x)
  let h0 := mix (mix (ws.getD 5 0 ^^^ 0x9E6CB7D14F28A35B#64) ^^^ BitVec.ofNat 64 (key % 2 ^ 27))
  let h := mix (mix (h0 ^^^ BitVec.ofNat 64 (blendRound ws)) ^^^ BitVec.ofNat 64 (e % 2 ^ 20))
  let t := fp32.mul .rne (bf (ws.getD 4 0) 31 0) (noiseOf h)
  let y := (fp32.value v.1).plus (fp32.value t.1)
  let z := f.ofNum (.sr (bf (mix (h ^^^ 0xD1B54A32D192ED03#64)) 31 0)) (blendSat ws) y.1
  (z.1, v.2 ||| t.2 ||| y.2 ||| z.2)

/-- The elements of one piece of n bytes, packed; `first` is the index of its first element. -/
def blendPiece (ws : List Word) (key first : Nat) (bs : List Byte) : List Byte × Flags :=
  let w := laneWidth (blendFmt ws)
  let v := ofBytes bs
  let rs := (List.range (8 * bs.length / w)).map (fun i => blendElement ws key (first + i) (v / 2 ^ (w * i) % 2 ^ w))
  (bytesOf (rs.foldr (fun r n => r.1 % 2 ^ w + 2 ^ w * n) 0) bs.length, gatherFlags (rs.map (fun r => r.2)))

/-- The pieces of a pair: offset and bytes. -/
def pairPieces (n : Nat) : List (Nat × Nat) := (List.range ((n + 7) / 8)).map (fun i => (8 * i, min 8 (n - 8 * i)))

/-- The flags of a whole pair (R383); an element of a poisoned piece raises none. -/
def blendFlags (ws : List Word) (key : Nat) (data : List Byte) (bad : List Nat) : Flags :=
  gatherFlags ((pairPieces (blendBytes ws)).map (fun p =>
    if bad.contains (p.1 / 8) then 0
    else (blendPiece ws key (8 * p.1 / laneWidth (blendFmt ws)) ((data.drop p.1).take p.2)).2))

/-- A lineage record (R386). -/
def lineageRecord (ws : List Word) (pair : Word) (kind cpkg ppkg n : Nat) : List Word :=
  [BitVec.ofNat 64 (blendRound ws + bf pair 63 32 * 2 ^ 32), ws.getD 5 0,
   BitVec.ofNat 64 (pairChild pair + pairParent pair * 2 ^ 16 + cpkg % 2 ^ 12 * 2 ^ 32 + ppkg % 2 ^ 12 * 2 ^ 44 + kind % 4 * 2 ^ 56),
   BitVec.ofNat 64 (n % 2 ^ 48 + bf (ws.getD 0 0) 47 32 * 2 ^ 48)]

/-- The engine that serves a pair: that of the child's cluster; of a child in another package, by package and virtual number. -/
def State.pairCluster (s : State) (m : Member) (peer : Option Nat) (w : Word) : Nat :=
  match peer with
  | some n => 262144 + n * 4096 + clusterOf (pairChild w)
  | none => match s.resolve m.part (.virt (pairChild w) 0) with
    | some a => clusterOf (homeOf a)
    | none => 131072 + pairChild w

/-- A pair waits for its engine (R383): the engine has another in service, or an earlier pair of this thread's core goes there first. Pairs of different
cores arrive in the order in which the engine takes them up (log 73, DESIGN CHOICE). -/
def State.pairBehind (s : State) (id pair : Nat) (m : Member) (cl : Nat) : Bool :=
  s.engine.any (fun q =>
    q.2.kind == 4 && (match q.2.phase, q.2.members with
      | .pairs left, o :: _ =>
        let at_ := fun (i : Nat) => s.pairCluster o q.2.peer (q.2.pairsTable.getD i 0) == cl
        q.2.work.any (fun w => at_ w.pair)
          || (o.core == m.core && decide (q.1 ≤ id) && left.any (fun i => (decide (q.1 < id) || decide (i < pair)) && at_ i))
      | _, _ => false))

/-- The first code of the pairs in table order. -/
def firstCode (codes : Assoc Nat) : Nat := match codes with | (_, v) :: _ => v | [] => 0

/-- A pair of a command has ended with a code and flags (R383); with the last one the command is complete. -/
def State.endPair (s : State) (id pair : Nat) (cmd : EngCmd) (left : List Nat) (code : Nat) (f : Flags) : State :=
  let codes := if code = 0 then cmd.codes else cmd.codes.put pair code
  let rest := left.filter (fun i => i != pair)
  let cmd1 := { cmd with codes := codes, flags := cmd.flags ||| f, phase := .pairs rest, work := cmd.work.filter (fun w => w.pair != pair) }
  { s with engine := s.engine.put id (if rest.isEmpty then { cmd1 with phase := .complete, code := firstCode codes } else cmd1) }

/-- Poisoned pieces of n bytes from a, by number. -/
def State.badPieces (s : State) (a n : Nat) : List Nat :=
  (pairPieces n).filterMap (fun p => if s.isPoisoned (a + p.1) p.2 then some (p.1 / 8) else none)

/-- The sequence number of a pair that arrives from another package: its block is reserved with the first pair (R388). -/
def State.arrivalSeq (s : State) (l peer cmd pair n : Nat) : State × Nat :=
  let x := s.part l
  match x.arrivals.find? (fun b => b.peer == peer && b.cmd == cmd) with
  | some b =>
    let rest := x.arrivals.filter (fun y => !(y.peer == peer && y.cmd == cmd))
    (s.modPart l (fun y => { y with arrivals := if b.left ≤ 1 then rest else rest ++ [{ b with left := b.left - 1 }] }), (b.base + pair) % 2 ^ 48)
  | none =>
    ((s.reserveLineage l n).modPart l (fun y => { y with arrivals := if n ≤ 1 then y.arrivals else y.arrivals ++ [⟨peer, cmd, x.linHead, n - 1⟩] }),
     (x.linHead + pair) % 2 ^ 48)

/-- A pair that came in takes its reserved number in the partition's ring, where its record is written: of the pair copied, or of a number
not used (R383, R388). -/
def State.recordArrival (s : State) (l : Nat) (q : Msg) (copied : Bool) : State :=
  match q.body with
  | .migrate desc pair _ _ cmd index count =>
    if blendLog desc then
      let r := s.arrivalSeq l q.pkg cmd index count
      r.1.writeLineage l r.2 (if copied then lineageRecord desc pair 1 s.pkgNo q.pkg r.2 else unusedLineage r.2)
    else s
  | _ => s

/-- The lineage record that a pair of a command reserved: of a pair copied, or not used (R383, R386). -/
def State.pairLineage (s : State) (cmd : EngCmd) (m : Member) (pair : Nat) (copied : Bool) : State :=
  match cmd.inbound, cmd.seqBase, m.part with
  | some q, _, some p => s.recordArrival p q copied
  | none, some base, some p =>
    let seq := (base + pair) % 2 ^ 48
    s.writeLineage p seq (if copied then lineageRecord cmd.desc (cmd.pairsTable.getD pair 0) 0 s.pkgNo s.pkgNo seq else unusedLineage seq)
  | _, _, _ => s

/-- A pair ends because its child or parent is absent (R383): its entry retires, its record is not used, and the flags of what it has written stay
gathered. -/
def State.pairAbsent (s : State) (id pair : Nat) (cmd : EngCmd) (m : Member) (left : List Nat) (f : Flags) : State :=
  let s1 := match s.resolve m.part (.virt (pairChild (cmd.pairsTable.getD pair 0)) 0) with
    | some a => s.retireSpans (homeOf a) (fun z => z.owner == SbOwner.pair id pair)
    | none => s
  (s1.pairLineage cmd m pair false).endPair id pair cmd left 5 f

/-- The bytes of the parent that have come in with a pair of another package: a piece of n bytes, and whether it is poison. -/
def EngCmd.pieceIn (cmd : EngCmd) (off n : Nat) : Option (List Byte × Bool) :=
  match cmd.inbound with
  | some q => (match q.body with | .migrate _ _ data bad _ _ _ => some ((data.drop off).take n, bad.contains (off / 8)) | _ => none)
  | none => none

/-- The key of a pair's noise (R384). -/
def State.pairKey (s : State) (cmd : EngCmd) (pr : Word) : Nat :=
  if cmd.inbound.isSome then s.pkgNo * 2 ^ 15 + pairChild pr else pairChild pr

/-- A pair reaches its engine (R383): it asks for its entry at the child, or, for a child in another package, its parent is read at once. -/
def State.startPair (s : State) (id pair : Nat) (cmd : EngCmd) (m : Member) (left : List Nat) : State :=
  let ws := cmd.desc
  let w := cmd.pairsTable.getD pair 0
  let put := fun (q : State) (next : Option Nat) => ({ q with engine := q.engine.put id { cmd with work := cmd.work ++ [⟨pair, next, [], [], 0⟩] } } : State)
  let parent := if cmd.inbound.isSome then none else s.resolve m.part (.virt (pairParent w) (blendSoff ws))
  let gone := fun (me : CoreId) => match parent with | some a => !s.answers m.part me (homeOf a) | none => false
  if cmd.inbound.isNone ∧ parent = none then s
  else if cmd.peer.isSome then (if gone m.core then s.pairAbsent id pair cmd m left 0 else put s (some 0))
  else match s.resolve m.part (.virt (pairChild w) (blendDoff ws)) with
    | none => s
    | some da =>
      if !s.answers m.part m.core (homeOf da) || gone (homeOf da) then s.pairAbsent id pair cmd m left 0
      else if s.engineWaits m.core (homeOf da) then s
      else put (s.askSpan (homeOf da) (blendDoff ws) (blendDoff ws + blendBytes ws) (SbOwner.pair id pair)) none

/-- Every piece of a pair has been read: a child of this package holds them all, and one in another package takes the parent's bytes over the group link;
how that ends is not stated here (log 19, DESIGN CHOICE). -/
def State.finishPair (s : State) (id : Nat) (cmd : EngCmd) (m : Member) (left : List Nat) (w : PairWork) : State :=
  let ws := cmd.desc
  let pr := cmd.pairsTable.getD w.pair 0
  let code := if w.bad.isEmpty then 0 else 3
  match cmd.peer with
  | some n =>
    if s.peerOpen n = false then s.pairAbsent id w.pair cmd m left w.flags else
    let c := [0, 2, 5].getD ((Config.freeWord s.free).toNat % 3) 0
    let key := n * 2 ^ 15 + pairChild pr
    let s1 := s.fresh.launch ⟨m.core, peerCore n, m.slot, m.gen, m.part, none, m.vtid, m.rcb, m.pc, 0xFFF, none, false, none,
      .migrate ws pr w.data w.bad id w.pair cmd.pairsTable.length⟩
    if c = 0 then s1.endPair id w.pair { cmd with granted := true } left code (blendFlags ws key w.data w.bad)
    else s1.endPair id w.pair cmd left c 0
  | none => match s.resolve m.part (.virt (pairChild pr) 0) with
    | none => s
    | some da =>
      let child := homeOf da
      let s1 := s.retireSpans child (fun z => z.owner == SbOwner.pair id w.pair)
      let s2 := if blendFitclr ws then s1.modCore child (fun x => { x with fit := 0x7FC00000#64 }) else s1
      (s2.pairLineage cmd m w.pair true).endPair id w.pair cmd left code w.flags

/-- A pair goes on behind the piece of n bytes at an offset. -/
def State.pairNext (s : State) (id : Nat) (cmd : EngCmd) (m : Member) (left : List Nat) (w : PairWork) (off n : Nat) : State :=
  if blendBytes cmd.desc ≤ off + n then s.finishPair id cmd m left w
  else { s with engine := s.engine.put id { cmd with work := cmd.work.map (fun y => if y.pair = w.pair then { w with next := some (off + n) } else y) } }

/-- The next piece of a pair in service: the parent's doubleword is read, unless it came in, and perturbed into the child, or left as it stands where
it is poison (R383, R384, R388; 10_ordering R278). -/
def State.pairPiece (s : State) (id : Nat) (cmd : EngCmd) (m : Member) (left : List Nat) (w : PairWork) (off : Nat) : State :=
  let ws := cmd.desc
  let pr := cmd.pairsTable.getD w.pair 0
  let n := min 8 (blendBytes ws - off)
  let own := fun (o : SbOwner) => o == SbOwner.pair id w.pair
  let source : Option (Option Nat × List Byte × Bool) :=
    match cmd.pieceIn off n with
    | some z => some (none, z)
    | none => (s.resolve m.part (.virt (pairParent pr) (blendSoff ws + off))).map (fun a => (some a, s.readBytes a n, s.isPoisoned a n))
  match source with
  | none => s
  | some (sa, bs, bad) =>
    let gone := fun (me : CoreId) => match sa with | some a => !s.answers m.part me (homeOf a) | none => false
    let waits := fun (me : CoreId) => match sa with | some a => s.engineWaits me (homeOf a) | none => false
    let held := match sa with | some a => s.pieceHeld own a n | none => false
    let power := fun (q : State) => match sa with | some a => q.powerFor a n | none => q
    let bads := if bad then w.bad ++ [off / 8] else w.bad
    if cmd.peer.isSome then
      (if held then power s
       else if gone m.core then s.pairAbsent id w.pair cmd m left w.flags
       else if waits m.core then s
       else s.pairNext id cmd m left { w with data := w.data ++ bs, bad := bads } off n)
    else match s.resolve m.part (.virt (pairChild pr) (blendDoff ws + off)) with
      | none => s
      | some da =>
        if !s.answers m.part m.core (homeOf da) || gone (homeOf da) then s.pairAbsent id w.pair cmd m left w.flags
        else if s.engineWaits m.core (homeOf da) || waits (homeOf da) then s
        else if held || s.pieceHeld own da n then (power s).powerFor da n
        else
          let r := blendPiece ws (s.pairKey cmd pr) (8 * off / laneWidth (blendFmt ws)) bs
          if bad then (s.putPoison da bs).pairNext id cmd m left { w with bad := bads } off n
          else (s.putMem da r.1).pairNext id cmd m left { w with flags := w.flags ||| r.2 } off n

/-- The child of a pair that waits for its entry has lost the request: its bulkhead was reset. -/
def State.spanLost (s : State) (id : Nat) (cmd : EngCmd) (m : Member) (pair : Nat) : Bool :=
  match s.resolve m.part (.virt (pairChild (cmd.pairsTable.getD pair 0)) 0) with
  | some a => !((s.core (homeOf a)).sb ++ (s.core (homeOf a)).sbWait).any (fun z => z.owner == SbOwner.pair id pair)
  | none => false

/-- BLEND_PAIR (R383, R384, R388): the engine of the child's cluster takes up a pair, or copies and perturbs its next piece. -/
def execBlendPair (id pair : Nat) (s : State) : Result :=
  .next (match s.engine.find id with
    | some cmd =>
      (match cmd.phase, cmd.live with
       | .pairs left, m :: _ =>
         if !left.contains pair then s
         else if cmd.inbound.isSome && (s.keyFault m.part (pairChild (cmd.pairsTable.getD pair 0))).isSome then s.pairAbsent id pair cmd m left 0
         else match cmd.work.find? (fun w => w.pair == pair) with
           | none =>
             if s.pairBehind id pair m (s.pairCluster m cmd.peer (cmd.pairsTable.getD pair 0)) then s
             else s.startPair id pair cmd m left
           | some w => (match w.next with
             | some off => s.pairPiece id cmd m left w off
             | none => if s.spanLost id cmd m pair then s.pairAbsent id pair cmd m left w.flags else s)
       | _, _ => s)
    | none => s)

/-! ### LINRD (R387) -/

/-- Records from n on, at most so many, up to HEAD or the first reserved record not written. -/
def lineageRun (head : Nat) (open_ : List Nat) : (fuel : Nat) → (n : Nat) → Nat
  | 0, _ => 0
  | fuel + 1, n => if head ≤ n || open_.contains n then 0 else 1 + lineageRun head open_ fuel (n + 1)

/-- Copy record n to a, whole; a page of the ring that does not translate gives values not stated (log 17, DESIGN CHOICE). -/
def State.copyRecord (s : State) (part n a : Nat) : State :=
  match s.linAddr part n with
  | some pa => if s.isPoisoned pa 32 then s.putPoison a (s.readBytes pa 32) else s.performWrite a (s.readBytes pa 32)
  | none => (s.writeWords a ((List.range 4).map (fun i => Config.freeWord (s.free + i)))).fresh.fresh.fresh.fresh

/-- LINRD copies its next record, once nothing holds the place of it (R387); with the last one it retires. -/
def State.lineageStep (s : State) (c : CoreId) (k : Nat) : State :=
  match (s.slot c k).st, (s.slot c k).wait with
  | .blocked, .lineage d v part n a left r =>
    if s.isHeld a 32 then s.powerFor a 32
    else
      let s1 := s.copyRecord part n a
      if left ≤ 1 then (writeReg s1 c k d v).retire c k r else s1.blockAt c k (.lineage d v part (n + 1) (a + 32) (left - 1) r)
  | _, _ => s

/-- LINRD d, [a], b (R387). -/
def execLinrd (d a b : Reg) (s : State) : Result :=
  let c := s.curCore
  let k := s.curSlot
  let r : Retire := ⟨4, [d, a, b], 0⟩
  let n := bf (s.reg b) 47 0
  .next (s.unlessPending (scalars [d, a, b])
    (match s.checkOwn c k (s.reg a) 32 2048 [rightW] 0x22 with
     | .error f => s.takeFault c k f
     | .ok pa =>
       match s.partOf c k with
       | none => (s.putReg d (BitVec.ofNat 64 n)).done r
       | some p =>
         let q := s.part p
         let size := q.linRecords
         if size = 0 then (s.putReg d (BitVec.ofNat 64 n)).done r
         else
           let lost := decide (n < q.linHead - size)
           let first := if lost then q.linHead - size else n
           let count := lineageRun q.linHead q.linOpen 64 first
           let v : Word := BitVec.ofNat 64 (lost.toNat * 2 ^ 56 + count * 2 ^ 48 + first)
           if count = 0 then (s.putReg d v).done r else s.block (.lineage d v p first pa count r)))

/-! ### Collectives (R389-R395) -/

/-- Fields of a collective descriptor (R390). -/
def collOp (ws : List Word) : Nat := bf (ws.getD 0 0) 3 0
def collFn (ws : List Word) : Nat := bf (ws.getD 0 0) 7 4
def collType (ws : List Word) : Nat := bf (ws.getD 0 0) 11 8
def collId (ws : List Word) : Nat := bf (ws.getD 0 0) 17 12
def collNdw (ws : List Word) : Nat := bf (ws.getD 0 0) 23 20
def collGroup (ws : List Word) : Bool := bit (ws.getD 0 0) 24

/-- The fields are valid (R390): only NDW depends on OP. -/
def collFormatOk (ws : List Word) : Bool :=
  let g := fun (i : Nat) => ws.getD i 0
  decide (collOp ws ≤ 3 ∧ bf (g 0) 19 18 = 0 ∧ bf (g 0) 63 25 = 0 ∧ bf (g 1) 15 15 = 0 ∧ bf (g 1) 63 28 = 0 ∧ bf (g 4) 63 16 = 0)
    && (if collOp ws = 0 then collNdw ws == 0 else decide (1 ≤ collNdw ws ∧ collNdw ws ≤ 8))
    && [4, 5, 6, 7, 12, 13].contains (collType ws) && (if 12 ≤ collType ws then decide (collFn ws ≤ 2) else decide (collFn ws ≤ 5))

/-- Package of a key in the member order of R390: the key itself in this package's numbering. -/
def memberKey (pkg v : Nat) : Nat := pkg * 32768 + v

/-- A collective identifier's counters on a core. -/
def Core.coll (x : Core) (id : Nat) : CollCore := x.colls.getD id ⟨0, 0, none⟩

/-- Set them. -/
def Core.setColl (x : Core) (id : Nat) (q : CollCore) : Core := { x with colls := x.colls.put id q }

/-- (int16)(a - b) > 0. -/
def newerAttempt (a b : BitVec 16) : Bool := decide (0 < (a - b).toInt)

/-- A pending COLL of an identifier completes with a status, which sets the acquire point of the thread that reads it (R393): of the slot of an own handle
register, of every slot where the register is shared (log 72, DESIGN CHOICE), or later by the token. The thread that waits to send its contribution goes
on, and one that waits for the identifier issues again. -/
def State.finishColl (s : State) (c : CoreId) (id : Nat) (status : Word) : State :=
  match ((s.core c).coll id).pending with
  | none => s
  | some e =>
    let s1 := s.modCore c (fun x => x.setColl id { x.coll id with pending := none })
    let drop := fun (t : Slot) =>
      match t.st, t.wait with
      | .blocked, .releaseColl m =>
        (match m.body with
         | .contribution _ _ _ _ _ _ _ entry => if entry = e then { t with st := .run, wait := .none } else t
         | _ => t)
      | _, _ => t
    let s2 := s1.modCore c (fun x => { x with slots := x.slots.map drop })
    let s3 := match ((s2.core c).entryAt e).st with
      | .attached k _ d => (if 16 ≤ d.toNat then List.range 16 else [k]).foldl (fun (q : State) j => q.acquire c j) s2
      | .running => s2.modCore c (fun x => { x with collDone := e :: x.collDone })
      | _ => s2
    (s3.finishEntry c e status).wakeFor c (fun w => w == .collPending)

/-- The step of R394 at a core alone: a newer attempt takes effect, and a pending COLL completes with CODE 7. -/
def State.abortAt (s : State) (c : CoreId) (id : Nat) (n : BitVec 16) : State :=
  if newerAttempt n ((s.core c).coll id).att then
    (s.modCore c (fun x => x.setColl id { x.coll id with att := n, seq := 0 })).finishColl c id (completionWord 0 7)
  else s

/-- The step of R394 at a core and in the network: older partial combinations of its partition go too (partitions are 0 to 63; a core of no
partition has none). -/
def State.applyAbort (s : State) (c : CoreId) (part id : Nat) (n : BitVec 16) : State :=
  if newerAttempt n ((s.core c).coll id).att then
    ({ s with colls := s.colls.filter (fun z => !(z.part == part && z.id == id && newerAttempt n z.att)) } : State).abortAt c id n
  else s

/-- The descriptor check of COLL and CABORT (R391, R394): its doublewords, or a fault. -/
def State.collDescriptor (s : State) (a : Reg) : Except FaultInfo (Nat × List Word) :=
  match s.checkOwn s.curCore s.curSlot (s.reg a) 8 72 [rightR] 0x21 with
  | .error f => .error f
  | .ok pa =>
    let ws := s.readWords pa 9
    if collFormatOk ws then .ok (pa, ws) else .error ⟨0x40, 0, s.reg a, 0⟩

/-- A data range of a COLL: none where it moves no data. -/
def State.collRange (s : State) (a : Word) (ndw right elsewhere : Nat) : Except FaultInfo Nat :=
  if ndw = 0 then .ok 0 else s.checkOwn s.curCore s.curSlot a 8 (8 * ndw) [right] elsewhere

/-- The issuing core is a member of its set (R390, R395). -/
def State.isMember (s : State) (c : CoreId) (part : Option Nat) (ws : List Word) (keys : List Nat) : Bool :=
  isCompute c && keys.contains (s.virtual part c) && (!collGroup ws || bit (ws.getD 4 0) s.pkgNo)

/-- An accepted COLL takes its entry; its contribution leaves, at once or when its thread has released (R391). -/
def State.acceptColl (s : State) (d a : Reg) (e : Nat) (ws : List Word) (src dst : Nat) : State :=
  let c := s.curCore
  let k := s.curSlot
  let r : Retire := ⟨4, [d, a], 0⟩
  let id := collId ws
  let q := (s.core c).coll id
  let part := s.partOf c k
  let keys := s.membersOf part s.cur.rcbptr (ws.drop 5)
  let s1 := s.takeEntry c k e d 5
  if !s.isMember c part ws keys then (s1.done r).finishEntry c e (completionWord 0 8)
  else
    let packet := s.packet c k c none none (.contribution id q.att q.seq ws keys src dst e)
    let s2 := (s1.modCore c (fun x => x.setColl id { q with pending := some e })).done r
    if s.cur.posted.isEmpty ∨ (s2.slot c k).st ≠ .run then
      (s2.modCore c (fun x => x.setColl id { x.coll id with seq := (x.coll id).seq + 1 })).launch packet
    else s2.block (.releaseColl packet)

/-- COLL d, [a] (R391). -/
def execColl (d a : Reg) (s : State) : Result :=
  let c := s.curCore
  let k := s.curSlot
  .next (s.unlessPending (scalars [d, a]) (s.withEntry (fun e =>
    match s.collDescriptor a with
    | .error f =>
      (match s.checkOwn c k (s.reg a) 8 72 [rightR] 0x21 with
       | .ok pa => if s.isHeld pa 72 then s.holdLocal pa 72 else s.takeFault c k f
       | .error _ => s.takeFault c k f)
    | .ok (pa, ws) =>
      if s.isHeld pa 72 then s.holdLocal pa 72
      else match s.collRange (ws.getD 2 0) (collNdw ws) rightR 0x21, s.collRange (ws.getD 3 0) (collNdw ws) rightW 0x22 with
        | .error f, _ => s.takeFault c k f
        | .ok _, .error f => s.takeFault c k f
        | .ok src, .ok dst =>
          if ((s.core c).coll (collId ws)).pending.isSome then s.cancel .collPending else s.acceptColl d a e ws src dst)))

/-- Lanes of a doubleword list. -/
def collLanes (t : Nat) (ws : List Word) : List Nat :=
  ws.flatMap (fun w => (List.range (64 / laneWidth t)).map (fun i => w.toNat / 2 ^ (laneWidth t * i) % 2 ^ laneWidth t))

/-- Doublewords from lanes. -/
def collWords (t : Nat) (ls : List Nat) (n : Nat) : List Word :=
  let per := 64 / laneWidth t
  (List.range n).map (fun i => BitVec.ofNat 64 (((ls.drop (per * i)).take per).foldr (fun x v => x + 2 ^ laneWidth t * v) 0))

/-- op of R392 on one lane. -/
def collCombine (fn t x y : Nat) : Nat × Flags :=
  let w := laneWidth t
  if 12 ≤ t then
    let f := laneFormat t
    if fn = 0 then f.add .rne x y else f.minmax (decide (fn = 2)) x y
  else match fn with
    | 0 => ((x + y) % 2 ^ w, 0)
    | 1 => (if laneInt t y < laneInt t x then y else x, 0)
    | 2 => (if laneInt t x < laneInt t y then y else x, 0)
    | 3 => (x &&& y, 0)
    | 4 => (x ||| y, 0)
    | _ => (x ^^^ y, 0)

/-- One level of the tree of R392 over all lanes. -/
def collLevel (fn t : Nat) : List (List Nat) → List (List Nat) × Flags
  | x :: y :: rest =>
    let z := (x.zip y).map (fun p => collCombine fn t p.1 p.2)
    let r := collLevel fn t rest
    (z.map (fun p => p.1) :: r.1, gatherFlags (z.map (fun p => p.2)) ||| r.2)
  | l => (l, 0)

/-- The tree of R392: `fuel` bounds its levels. -/
def collTree (fn t : Nat) : (fuel : Nat) → List (List Nat) → Flags → List Nat × Flags
  | 0, vs, f => (vs.headD [], f)
  | fuel + 1, vs, f =>
    if vs.length ≤ 1 then (vs.headD [], f)
    else
      let r := collLevel fn t vs
      collTree fn t fuel r.1 (f ||| r.2)

/-- Insert a contribution in member order. -/
def insertContribution (x : Contribution) : List Contribution → List Contribution
  | [] => [x]
  | y :: rest => if x.key ≤ y.key then x :: y :: rest else y :: insertContribution x rest

/-- The fields that must agree (R391): OP, FN, TYPE, NDW, GROUP, ROOT, the packages and, within a package, the member set. -/
def collAgrees (own : Nat) (x y : Contribution) : Bool :=
  let f := fun (ws : List Word) =>
    (bf (ws.getD 0 0) 11 0, collNdw ws, collGroup ws, bf (ws.getD 1 0) 14 0,
      (if bf (ws.getD 1 0) 27 16 = 0xFFF then own else bf (ws.getD 1 0) 27 16), if collGroup ws then bf (ws.getD 4 0) 15 0 else 0)
  f x.desc == f y.desc && ((x.key / 32768 != y.key / 32768) || x.members == y.members)

/-- Every member whose contribution is expected, as far as the contributions say. -/
def collExpected (got : List Contribution) : List Nat :=
  got.foldl (fun l x => x.members.foldl (fun l v => insertNat (memberKey (x.key / 32768) v) l) l) []

/-- Everything has arrived: each expected member, and each package of PKGMASK. -/
def collComplete (own : Nat) (got : List Contribution) : Bool :=
  let have_ := got.map (fun x => x.key)
  (collExpected got).all (fun v => have_.contains v)
    && (match got with
        | x :: _ =>
          !collGroup x.desc || (List.range 16).all (fun p => !bit (x.desc.getD 4 0) p || p == own || have_.any (fun v => v / 32768 == p))
        | [] => true)

/-- A member here still waits for its instance: one of another attempt takes nothing of it (R394). -/
def State.awaits (s : State) (id : Nat) (att seq : BitVec 16) (x : Contribution) : Bool :=
  match x.home with
  | some (c, _, e) => decide ((s.core c).coll id = ⟨att, seq + 1, some e⟩)
  | none => false

/-- The status of a member here. -/
def State.deliverColl (s : State) (id : Nat) (att seq : BitVec 16) (status : Word) (x : Contribution) : State :=
  match x.home with
  | some (c, _, _) => if s.awaits id att seq x then s.finishColl c id status else s
  | none => s

/-- Write a result at DST: a poisoned piece carries its mark. -/
def State.writeResult (s : State) (a : Nat) (ws : List Word) (bad : List Nat) : State :=
  (ws.zipIdx).foldl (fun q p =>
    if bad.contains p.2 then q.putPoison (a + 8 * p.2) (bytesOf p.1.toNat 8) else q.writeWord (a + 8 * p.2) p.1) s

/-- The whole instance: the result is written to the DST that OP names, then every status (R392). A root that is not a member gives a
result not stated (log 23, DESIGN CHOICE). -/
def State.combineAll (s : State) (id : Nat) (att seq : BitVec 16) (got : List Contribution) : State :=
  match got.foldr insertContribution [] with
  | [] => s
  | x :: rest =>
    let all := x :: rest
    let op := collOp x.desc
    let n := collNdw x.desc
    let t := collType x.desc
    let rootPkg := if bf (x.desc.getD 1 0) 27 16 = 0xFFF then s.pkgNo else bf (x.desc.getD 1 0) 27 16
    let root := memberKey rootPkg (bf (x.desc.getD 1 0) 14 0)
    let tree := collTree (collFn x.desc) t 32 (all.map (fun z => collLanes t z.data)) 0
    let result : List Word × Flags :=
      if op = 3 then
        ((match all.find? (fun z => z.key == root) with
          | some z => z.data
          | none => (List.range n).map (fun i => Config.freeWord (s.free + i))), 0)
      else if op = 0 then ([], 0)
      else (collWords t tree.1 n, tree.2)
    let bad := (List.range n).filter (fun i => all.any (fun z => z.bad.contains i))
    let s0 := { s with free := s.free + n }
    let s1 := all.foldl (fun q z =>
      match z.home with
      | some (_, dst, _) => if (op = 2 ∧ z.key ≠ root) ∨ q.awaits id att seq z = false then q else q.writeResult dst result.1 bad
      | none => q) s0
    all.foldl (fun q z => q.deliverColl id att seq (completionWord result.2 (if bad.isEmpty then 0 else 3)) z) s1

/-- A DST of an instance is held at its core (12_engines R325). -/
def State.resultHeld (s : State) (got : List Contribution) : Bool :=
  got.any (fun z => match z.home with | some (_, dst, _) => collNdw z.desc != 0 && s.isHeld dst (8 * collNdw z.desc) | none => false)

/-- The banks that its DSTs wait for power up (03_strands R90). -/
def State.powerResults (s : State) (got : List Contribution) : State :=
  got.foldl (fun q z => match z.home with | some (_, dst, _) => q.powerFor dst (8 * collNdw z.desc) | none => q) s

/-- A member of a set lies on a die that is gone (R392). -/
def State.memberAbsent (s : State) (part : Nat) (keys : List Nat) : Bool :=
  keys.any (fun v => match s.xlate part v with | .at_ c => s.coreAbsent c | _ => false)

/-- A poison mark that a contribution carries for no doubleword: a member of its set is on a fenced die of its package (log 27, DESIGN CHOICE). -/
def absentMark : Nat := 63

/-- A contribution joins its instance (R391, R392): with the first that differs every member so far has CODE 8, and each later one as it arrives; a
fenced member, here or in the contribution's package, gives CODE 5. -/
def State.joinColl (s : State) (part id : Nat) (att seq : BitVec 16) (x : Contribution) : State :=
  let mine := fun (z : CollInst) => z.part == part && z.id == id && z.att == att && z.seq == seq
  let older := fun (z : CollInst) => z.part == part && z.id == id && newerAttempt att z.att
  if s.colls.any (fun z => z.part == part && z.id == id && newerAttempt z.att att) then s
  else
    let others := s.colls.filter (fun z => !mine z && !older z)
    let inst := (s.colls.find? mine).getD ⟨part, id, att, seq, [], false⟩
    let got := inst.got ++ [x]
    let failed := inst.failed || !(inst.got.all (fun y => collAgrees s.pkgNo x y))
    if x.bad.contains absentMark then
      got.foldl (fun q z => q.deliverColl id att seq (completionWord 0 5) z) { s with colls := others }
    else
      let next := { s with colls := if collComplete s.pkgNo got then others else others ++ [⟨part, id, att, seq, got, failed⟩] }
      if failed then (if inst.failed then [x] else got).foldl (fun q z => q.deliverColl id att seq (completionWord 0 8) z) next
      else if collComplete s.pkgNo got then next.combineAll id att seq got
      else next

/-- The data of a contribution, read so far. -/
structure Gathered where
  id : Nat
  att : BitVec 16
  seq : BitVec 16
  desc : List Word
  members : List Nat
  src : Nat
  dst : Nat
  entry : Nat
  got : List Word
  bad : List Nat
deriving DecidableEq, Repr

/-- The contribution of a packet. -/
def Body.gathered (b : Body) : Option Gathered :=
  match b with
  | .contribution id att seq desc keys src dst entry => some ⟨id, att, seq, desc, keys, src, dst, entry, [], []⟩
  | .gathering id att seq desc keys src dst entry got bad => some ⟨id, att, seq, desc, keys, src, dst, entry, got, bad⟩
  | _ => none

/-- The packet of a contribution. -/
def Gathered.body (g : Gathered) : Body := .gathering g.id g.att g.seq g.desc g.members g.src g.dst g.entry g.got g.bad

/-- All of its data has been read. -/
def Gathered.whole (g : Gathered) : Bool := decide (collNdw g.desc ≤ g.got.length)

/-- The place of its next doubleword. -/
def Gathered.next (g : Gathered) : Nat := g.src + 8 * g.got.length

/-- The next 8-byte piece of its data is read. -/
def State.gather (s : State) (g : Gathered) : Gathered :=
  if g.whole then g
  else { g with got := g.got ++ [s.readWord g.next], bad := g.bad ++ (if s.isPoisoned g.next 8 then [g.got.length] else []) }

/-- A whole contribution of this package reaches the network (R391). With GROUP it also leaves to the other packages; the members of one that no
port reaches are absent (01_machine R24). -/
def State.contribute (s : State) (m : Msg) (p : Nat) (g : Gathered) : State :=
  let c := m.dst
  let x : Contribution := ⟨memberKey s.pkgNo (s.virtual (some p) c), g.desc, g.members, g.got, g.bad, some (c, g.dst, g.entry)⟩
  let peers := if collGroup g.desc then (List.range 16).filter (fun n => bit (g.desc.getD 4 0) n && n != s.pkgNo) else []
  let gone := s.memberAbsent p g.members || peers.any (fun n => !s.peerOpen n)
  let h := if gone then { g with bad := g.bad ++ [absentMark] } else g
  let s1 := (peers.filter s.peerOpen).foldl (fun q n => q.launch { m with dst := peerCore n, body := h.body }) s
  s1.joinColl p g.id g.att g.seq { x with bad := h.bad }

/-- The next piece of a contribution is held, or, once it is whole, a DST of the instance that it joins. -/
def State.gatherHeld (s : State) (p : Nat) (g : Gathered) : Bool :=
  if g.whole then
    (collNdw g.desc != 0 && s.isHeld g.dst (8 * collNdw g.desc))
      || s.colls.any (fun z => z.part == p && z.id == g.id && z.att == g.att && z.seq == g.seq && s.resultHeld z.got)
  else s.isHeld g.next 8

/-- What a contribution waits for powers up (03_strands R90). -/
def State.gatherPower (s : State) (p : Nat) (g : Gathered) : State :=
  if g.whole then
    (s.colls.filter (fun z => z.part == p && z.id == g.id && z.att == g.att && z.seq == g.seq)).foldl (fun q z => q.powerResults z.got)
      (s.powerFor g.dst (8 * collNdw g.desc))
  else s.powerFor g.next 8

/-- The next step of a contribution (R391): one of another attempt is dropped, a piece is read, and the whole joins its instance. `gone` is the
state without its packet. -/
def State.gatherStep (s gone : State) (n : Nat) (m : Msg) (p : Nat) (g : Gathered) : State :=
  if ((s.core m.dst).coll g.id).att ≠ g.att then gone
  else if s.gatherHeld p g then s.gatherPower p g
  else
    let h := s.gather g
    if h.whole && !s.gatherHeld p h then gone.contribute m p h else { s with net := s.net.set n { m with body := h.body } }

/-- A token of R394 reaches a member: it is applied, and answered where CABORT waits. -/
def State.takeToken (s : State) (m : Msg) : State :=
  match m.body with
  | .abort id att reply =>
    let s1 := match m.part with | some p => s.applyAbort m.dst p id att | none => s
    if reply then s1.answerWith m .done 0 else s1
  | _ => s

/-- CABORT d, [a] (R394): the token goes to every other member, and to every other package of PKGMASK. -/
def execCabort (d a : Reg) (s : State) : Result :=
  let c := s.curCore
  let k := s.curSlot
  let r : Retire := ⟨4, [d, a], 0⟩
  .next (s.unlessPending (scalars [d, a])
    (match s.collDescriptor a with
     | .error f =>
       (match s.checkOwn c k (s.reg a) 8 72 [rightR] 0x21 with
        | .ok pa => if s.isHeld pa 72 then s.holdLocal pa 72 else s.takeFault c k f
        | .error _ => s.takeFault c k f)
     | .ok (pa, ws) =>
       if s.isHeld pa 72 then s.holdLocal pa 72
       else
         let id := collId ws
         let part := s.partOf c k
         let n := ((s.core c).coll id).att + 1
         let me := s.virtual part c
         let others := (s.membersOf part s.cur.rcbptr (ws.drop 5)).filter (fun v => !isCompute c || v != me)
         let pkgs := if collGroup ws then (List.range 16).filter (fun g => bit (ws.getD 4 0) g && g != s.pkgNo) else []
         let body : Body := .abort id n (d != 0)
         let s1 := s.applyAbort c (part.getD 64) id n
         let s2 := others.foldl (fun q v =>
           match s.coreTarget v with
           | .ok (dst, held) => q.launch (s.packet c k dst held none body)
           | .error _ => q) s1
         let s3 := pkgs.foldl (fun q g => q.launch (s.packet c k (peerCore g) none none body)) s2
         let left := others.length + pkgs.length
         if d = 0 then s3.done r
         else if left = 0 then (s3.putReg d (n.setWidth 64)).done r
         else
           (s3.modCur (fun t => { t with outst := t.outst.putSparse 0 t.gen (t.outstanding t.gen + left) })).block (.abortWait d n left r)))

/-- CATT d, a, b (R395): a b field that is not 0 proposes an attempt, applied on this core only. -/
def execCatt (d a b : Reg) (s : State) : Result :=
  let c := s.curCore
  let id := bf (s.reg a) 5 0
  let p : BitVec 16 := BitVec.ofNat 16 (bf (s.reg b) 15 0)
  let old := ((s.core c).coll id).att
  .next (s.unlessPending (scalars [d, a, b])
    (let s1 := if b = 0 then s else s.abortAt c id p
     (s1.putReg d (old.setWidth 64)).done ⟨4, [d, a, b], 0⟩))

end Sys2Proof.Machine
end

