-- ==== Sys2Proof/Machine/System.lean ====
section
/-! DEFINITION. Control registers (00_scope R7, R8; 15_system R401, R406-R411; 16_package R429) and the system instructions: entering the
supervisor and returning from it (R402, R403), SEGLD, SEGST (R404) and BKPT (R405). -/

namespace Sys2Proof.Machine

/-! ### Writes of registers with rules of their own -/

/-- ROTLO and ROTHI keep 40 bits, and a position of 16 to 30 stores 31 (03_strands R73). -/
def rotationWord (v : Word) : Word :=
  BitVec.ofNat 64 ((List.range 8).foldr (fun i n => (let p := fld v.toNat (5 * i + 4) (5 * i)
                                                      if 16 ≤ p then 31 else p) * 2 ^ (5 * i) + n) 0)

/-- A write to ROTLO or ROTHI, which applies n cycles from now (03_strands R76): 8 for an MTC that issues now, 1 for a write that lands now. -/
def State.writeRotation (s : State) (c : CoreId) (n : Nat) (hi : Bool) (v : Word) : State :=
  s.modCore c (fun x =>
    let y := { x with rotOld := x.rotOld.filter (fun (e : Nat × Word × Word) => decide (x.cycle < e.1)) ++ [(x.cycle + n, x.rotlo, x.rothi)] }
    if hi then { y with rothi := rotationWord v } else { y with rotlo := rotationWord v })

/-- A write to SIGCTL changes MODE and the state of the checker (03_strands R99). -/
def sigWrite (old v : Word) : Word :=
  let mode := bf old 1 0
  let next := bf v 1 0
  if next = 3 ∨ next = mode then old
  else if next = 0 then 0
  else if mode = 0 then setf (setf old 1 0 next) 3 2 1
  else setf old 1 0 next

/-- A write to MBBASE.n or MBSIZE.n empties the mailbox; a size that does not fit closes it (08_messages R222, R223). -/
def Core.writeMailbox (x : Core) (size : Bool) (n : Nat) (v : Word) : Core :=
  let base := if size then x.mbbase[mbIx n] else keepf v 18 8
  let sz := if size then bf v 16 0 else bf x.mbsize[mbIx n] 16 0
  let ok := decide (sz % 256 = 0 ∧ sz ≤ 65536 ∧ base.toNat + sz ≤ 0x80000)
  { x with mbbase := x.mbbase.set (mbIx n) base
           mbsize := x.mbsize.set (mbIx n) (BitVec.ofNat 64 (if ok then sz else 0))
           mbarr := x.mbarr.set (mbIx n) 0 }

/-- A write to LOGBASE or LOGSIZE discards the records; a size that does not fit closes the log (09_sync R252). -/
def Core.writeLog (x : Core) (size : Bool) (v : Word) : Core :=
  let base := if size then x.logbase else keepf v 18 5
  let sz := if size then bf v 16 0 else bf x.logsize 16 0
  let ok := decide (sz % 32 = 0 ∧ sz ≤ 65536 ∧ base.toNat + sz ≤ 0x80000)
  { x with logbase := base, logsize := BitVec.ofNat 64 (if ok then sz else 0) }

/-- PINREL unpins every bank (R408; 03_strands R91). -/
def Core.unpin (x : Core) : Core := { x with banks := x.banks.map (fun b => (b.1, { b.2 with pinned := false })) }

/-- What XLAT answers for a virtual coordinate (R409). -/
def State.xlatWord (s : State) (c : CoreId) (k : Nat) (v : Word) : Word :=
  match s.partOf c k with
  | none => 0
  | some p =>
    match s.xlate p (bf v 18 4) with
    | .at_ h => BitVec.ofNat 64 (2 ^ 63 + h * 16)
    | .held => 0x4000000000000000#64
    | .outside => 0

/-- RRST (13_tasks R356). A local operation that waits for the ring counts as a held push. -/
def Core.rrst (x : Core) : Word :=
  let waits := x.slots.toList.any (fun t => t.st == .blocked && t.wait == .reissue .ringFull)
  BitVec.ofNat 64 (x.ringCount % 512 + x.ringHead % 256 * 2 ^ 16 + x.staging.length % 16 * 2 ^ 24
    + (waits || !x.heldPush.isEmpty).toNat * 2 ^ 28)

/-! ### Reading -/

/-- Registers private to a slot. -/
def slotRegister (n : Nat) : Bool :=
  [0x000, 0x002, 0x003, 0x004, 0x007, 0x009, 0x00A, 0x02A, 0x02B, 0x030, 0x100, 0x101, 0x102, 0x103, 0x104, 0x109].contains n
    || decide (0x010 ≤ n ∧ n < 0x020)

/-- Registers of a core. -/
def coreRegister (n : Nat) : Bool :=
  [0x001, 0x005, 0x006, 0x008, 0x00B, 0x00C, 0x028, 0x029, 0x02C, 0x02D, 0x105, 0x106, 0x107, 0x108].contains n
    || decide (0x020 ≤ n ∧ n < 0x028)

/-- MBBASE and MBSIZE of the mailboxes. -/
def mailRegister (n : Nat) : Bool := decide (0x020 ≤ n ∧ n < 0x028)

/-- Registers of a partition, the command registers of a partition among them. -/
def partRegister (n : Nat) : Bool := decide (0x110 ≤ n ∧ n ≤ 0x120)

/-- Registers of the package. -/
def packageRegister (n : Nat) : Bool :=
  [0x200, 0x201, 0x202, 0x203, 0x240, 0x241, 0x242, 0x243, 0x244, 0x245, 0x246, 0x248, 0x249, 0x24A, 0x24B, 0x250, 0x258, 0x259, 0x25A,
    0x25C, 0x25D, 0x260].contains n

/-- A number that some chapter allocates on a core (R401). -/
def registerExists (c : CoreId) (n : Nat) : Bool :=
  (slotRegister n || coreRegister n || partRegister n || packageRegister n) && (n != 0x030 || isMemoryCore c)

/-- The level that a number needs (R401). -/
def registerLevel (n : Nat) : Nat := if n < 0x100 then 0 else if n < 0x200 then 1 else 2

/-- Read a slot's register. -/
def State.readSlotCtl (s : State) (c : CoreId) (k n : Nat) : Word :=
  let t := s.slot c k
  match n with
  | 0x000 => BitVec.ofNat 64 (s.vtid c k)
  | 0x002 => t.fpctl
  | 0x003 => t.fpst
  | 0x004 => t.cvtcnt
  | 0x007 => t.geom
  | 0x009 => t.chst
  | 0x00A => t.sigctl
  | 0x02A => t.rcbptr
  | 0x02B => t.logseq
  | 0x030 => t.latcnt
  | 0x100 => t.privst
  | 0x101 => t.epc
  | 0x102 => t.ecause
  | 0x103 => t.esegbase
  | 0x104 => t.eseglim
  | 0x109 => t.xlat
  | m => if m % 2 = 0 then t.segBase.toList.getD ((m - 0x10) / 2) 0 else t.segLim.toList.getD ((m - 0x10) / 2) 0

/-- The partition of a core, for the registers that every core of a partition reads. -/
def State.corePart (s : State) (c : CoreId) : Option Nat := if isMemoryCore c then (s.channel c).bound else s.partOf c 0

/-- Read a core's register. -/
def State.readCoreCtl (s : State) (c : CoreId) (n : Nat) : Word :=
  let x := s.core c
  match n with
  | 0x001 => BitVec.ofNat 64 x.cycle
  | 0x005 => (match s.corePart c with | some p => (s.part p).srseed | none => 0)
  | 0x006 => x.fit
  | 0x008 => x.pxw
  | 0x00B => x.rotlo
  | 0x00C => x.rothi
  | 0x028 => x.logbase
  | 0x029 => x.logsize
  | 0x02C => x.mrgwin
  | 0x02D => x.rrst
  | 0x105 => x.tvec
  | 0x106 => x.ksegbase
  | 0x107 => x.kseglim
  | 0x108 => BitVec.ofNat 64 x.lend.toNat
  | m => if m < 0x24 then x.mbbase[mbIx (m - 0x20)] else x.mbsize[mbIx (m - 0x24)]

/-- Read a partition's register (R406, R411). -/
def Part.readCtl (p : Part) (n : Nat) : Word :=
  match n with
  | 0x110 => p.srseed
  | 0x111 => p.ptroot1
  | 0x112 => p.ptroot2
  | 0x113 => p.tlbinvR
  | 0x114 => p.fqbase
  | 0x115 => p.fqsize
  | 0x116 => p.fqhead
  | 0x117 => p.fqdrop
  | 0x118 => p.linbase
  | 0x119 => p.linsize
  | 0x11A => p.linhead
  | 0x11B => p.qcfgR
  | 0x11C => p.rcbadmR
  | 0x11D => p.ctxarea
  | 0x11E => p.preemptR
  | 0x11F => p.resumeR
  | _ => p.fqtail

/-- BHCTL of a bulkhead (16_package R430). -/
def Bulkhead.word (b : Bulkhead) : Word :=
  BitVec.ofNat 64 (b.preq % 8 + b.pcur % 8 * 8 + b.park % 8 * 64 + b.absent.toNat * 512 + b.dirty.toNat * 1024 + b.bankpd.toNat * 2048)

/-- Read a package register (16_package R429). -/
def State.readPkgCtl (s : State) (n : Nat) : Word :=
  let p := s.pkg
  match n with
  | 0x200 => p.pmapsel
  | 0x201 => ((s.part (bf p.pmapsel 11 6)).entry (bf p.pmapsel 5 0)).setWidth 64
  | 0x202 => p.partctlR
  | 0x203 => p.mcbindR
  | 0x240 => p.bhsel
  | 0x241 => (s.bulkhead (bf p.bhsel 5 0)).word
  | 0x242 => p.bhcmdR
  | 0x243 => p.pwrceil
  | 0x244 => BitVec.ofNat 64 (p.draw.toNat + p.overDraw.toNat * 2 ^ 11 + p.steps.toNat * 2 ^ 16)
  | 0x245 => p.winsel
  | 0x246 => p.windows.getD (bf p.winsel 3 0) 0
  | 0x248 => p.grpsel
  | 0x249 => p.groups.getD (bf p.grpsel 3 0) 0
  | 0x24A => p.gbsel
  | 0x24B => p.bindings.getD (bf p.gbsel 9 0) 0
  | 0x250 => p.rascnt
  | 0x258 => p.jrnlHead
  | 0x259 => p.jrnlsel
  | 0x25A => (p.journal.getD (bf p.jrnlsel 11 0) []).getD (bf p.jrnlsel 13 12) 0
  | 0x25C => p.vfsel
  | 0x25D => (p.vfs.getD (bf p.vfsel 6 0) VFun.reset).bind
  | _ => p.pkgid

/-- What an MFC reads of a core's register in RR (03_strands R71). -/
def State.seenCoreCtl (s : State) (c : CoreId) (n : Nat) : Word :=
  match (s.core c).ctlOld.find? (fun e => e.num == n && decide ((s.core c).cycle < e.till)) with
  | some e => e.value
  | none => s.readCoreCtl c n

/-- Read a control register for a thread. CYCLE is read in RR, three cycles after the issue (03_strands R71). -/
def State.readCtl (s : State) (c : CoreId) (k n : Nat) : Word :=
  if n = 0x001 then BitVec.ofNat 64 ((s.core c).cycle + 3)
  else if slotRegister n then s.readSlotCtl c k n
  else if coreRegister n then s.seenCoreCtl c n
  else if partRegister n then (match s.partOf c k with | some p => (s.part p).readCtl n | none => 0)
  else s.readPkgCtl n

/-! ### Writing -/

/-- A segment register with one half replaced. -/
def Slot.writeSegment (t : Slot) (n : Nat) (v : Word) : Slot :=
  let i : Fin 8 := ⟨(n - 0x10) / 2 % 8, Nat.mod_lt _ (by decide)⟩
  if n % 2 = 0 then { t with segBase := t.segBase.set i (keepf v 63 5) } else { t with segLim := t.segLim.set i v }

/-- Write a slot's register under its access codes. -/
def Slot.writeCtl (t : Slot) (n : Nat) (v : Word) (xlat : Word) : Slot :=
  match n with
  | 0x000 => t
  | 0x002 => { t with fpctl := keepf v 1 0 }
  | 0x003 => { t with fpst := keepf v 5 0 }
  | 0x004 => { t with cvtcnt := v }
  | 0x007 => { t with geom := geomFields v }
  | 0x009 => { t with chst := chstFields v }
  | 0x00A => { t with sigctl := sigWrite t.sigctl v }
  | 0x02A => t
  | 0x02B => { t with logseq := keepf v 31 0 }
  | 0x030 => { t with latcnt := v }
  | 0x100 => { t with privst := keepf v 3 2 ||| keepf t.privst 1 0 }
  | 0x101 => { t with epc := v }
  | 0x102 => { t with ecause := keepf v 15 0 }
  | 0x103 => { t with esegbase := keepf v 63 5 }
  | 0x104 => { t with eseglim := v }
  | 0x109 => { t with xlat := xlat }
  | m => t.writeSegment m v

/-- Write a core's register under its access codes; a rotation applies `wait` cycles from now. -/
def State.writeCoreCtl (wait : Nat) (s : State) (c : CoreId) (n : Nat) (v : Word) : State :=
  match n with
  | 0x001 => s
  | 0x005 => s
  | 0x006 => s.modCore c (fun x => { x with fit := keepf v 31 0 })
  | 0x008 => s.modCore c (fun x => { x with pxw := if bf v 3 0 = 0 then 1 else keepf v 3 0 })
  | 0x00B => s.writeRotation c wait false v
  | 0x00C => s.writeRotation c wait true v
  | 0x028 => s.modCore c (fun x => x.writeLog false v)
  | 0x029 => s.modCore c (fun x => x.writeLog true v)
  | 0x02C => s.modCore c (fun x => { x with mrgwin := keepf v 5 0 })
  | 0x02D => s
  | 0x105 => s.modCore c (fun x => { x with tvec := keepf v 63 1 })
  | 0x106 => s.modCore c (fun x => { x with ksegbase := keepf v 63 5 })
  | 0x107 => s.modCore c (fun x => { x with kseglim := v })
  | 0x108 => s.modCore c (fun x => let y := { x with lend := bit v 0 }
                                   if bit v 1 then y.unpin else y)
  | m => s.modCore c (fun x => if m < 0x24 then x.writeMailbox false (m - 0x20) v else x.writeMailbox true (m - 0x24) v)

/-- Add an entry to the journal (16_package R448): command or event code, argument, outcome, function. -/
def State.journalEntry (s : State) (cmd : Nat) (arg : Word) (outcome func : Nat) : State :=
  let p := s.pkg
  let n := bf p.jrnlHead 47 0
  let e : List Word := [BitVec.ofNat 64 n, BitVec.ofNat 64 cmd, arg, BitVec.ofNat 64 (outcome % 256 + func % 256 * 256)]
  let s1 := { s with pkg := { p with jrnlHead := BitVec.ofNat 64 ((n + 1) % 2 ^ 48), journal := p.journal.put (n % 4096) e } }
  s1.writeWords (s.mirrorBase + n % 4096 * 32) e

/-- WATTS as a write to PWRCEIL stores it (16_package R439). -/
def powerCeiling (v : Word) : Word := BitVec.ofNat 64 (max 250 (min 1100 (bf v 10 0)))

/-- A write to PWRCEIL, by a context or by the physical function (16_package R439, R448). -/
def State.writeCeiling (s : State) (v : Word) (func : Nat) : State :=
  ({ s with pkg := { s.pkg with pwrceil := powerCeiling v } }).journalEntry 0x243 v 0 func

/-- A write to BHCTL (16_package R430): a lower performance state is in force at once, a higher one waits for the governor (R438, R440). -/
def Bulkhead.writeCtl (b : Bulkhead) (v : Word) : Bulkhead :=
  let q := min 4 (bf v 2 0)
  let c := { b with bankpd := bit v 11, preq := q }
  if b.pcur < q then { c with pcur := q, raising := false } else c

/-- Every bank of a core counts as last in use now. -/
def Core.restartBanks (x : Core) : Core :=
  { x with banks := (List.range 16).foldl (fun m j => Assoc.put m j { Assoc.getD m j Bank.reset with lastUse := x.cycle }) x.banks }

/-- Where a write turns bank power-down on, the 4,096 cc of R90 start for every bank of the bulkhead. -/
def State.startBankCounts (s : State) (bh : Nat) (v : Word) : State :=
  if bit v 11 ∧ (s.bulkhead bh).bankpd = false then
    { s with cores := s.cores.map (fun e => if isCompute e.1 ∧ bulkheadOf e.1 = bh then (e.1, e.2.restartBanks) else e) }
  else s

/-- A write to BHCTL, in the state. -/
def State.writeBhctl (s : State) (bh : Nat) (v : Word) : State := (s.startBankCounts bh v).modBulkhead bh (fun b => b.writeCtl v)

/-- A write of a package register that is no command is done, at its WB (16_package R429). -/
def State.writePkgCtl (s : State) (n : Nat) (v : Word) : State :=
  let p := s.pkg
  match n with
  | 0x200 => { s with pkg := { p with pmapsel := keepf v 11 0 } }
  | 0x240 => { s with pkg := { p with bhsel := keepf v 5 0 } }
  | 0x241 => s.writeBhctl (bf p.bhsel 5 0) v
  | 0x243 => s.writeCeiling v 0
  | 0x245 => { s with pkg := { p with winsel := keepf v 3 0 } }
  | 0x246 =>
    let w := keepf v 63 63 ||| keepf v 61 56 ||| keepf v 53 48 ||| keepf v 45 40 ||| keepf v 3 0
    { s with pkg := { p with windows := p.windows.put (bf p.winsel 3 0) w } }
  | 0x248 => { s with pkg := { p with grpsel := keepf v 3 0 } }
  | 0x24A => { s with pkg := { p with gbsel := keepf v 9 0 } }
  | 0x24B => 
    let w := keepf v 63 63 ||| keepf v 5 0
    ({ s with pkg := { p with bindings := p.bindings.put (bf p.gbsel 9 0) w } }).journalEntry 0x24B v 0 0
  | 0x250 => { s with pkg := { p with rascnt := v } }
  | 0x259 => { s with pkg := { p with jrnlsel := keepf v 13 0 } }
  | 0x25C => { s with pkg := { p with vfsel := keepf v 6 0 } }
  | 0x25D =>
    let f := { p.vfs.getD (bf p.vfsel 6 0) VFun.reset with bind := keepf v 63 63 ||| keepf v 53 48 ||| keepf v 47 8 }
    ({ s with pkg := { p with vfs := p.vfs.put (bf p.vfsel 6 0) f } }).journalEntry 0x25D v 0 0
  | _ => s

/-- Registers whose write is a command of its own (R410): the thread waits until a device step has carried it out. -/
def isCommandWrite (n : Nat) : Bool :=
  (partRegister n && n != 0x116 && n != 0x11A) || [0x201, 0x202, 0x203, 0x242, 0x249].contains n

/-- What a command is about: the thread's partition, or the selected map entry or peer. -/
def State.commandSubject (s : State) (n : Nat) : Option Nat :=
  if n = 0x201 then some (bf s.pkg.pmapsel 11 0)
  else if n = 0x249 then some (bf s.pkg.grpsel 3 0)
  else if partRegister n then s.partOf s.curCore s.curSlot
  else none

/-! ### MFC and MTC (R401) -/

/-- The checks of R401: privilege, then allocation. -/
def State.registerFault (s : State) (n : Nat) : Option FaultInfo :=
  if s.cur.level < registerLevel n then some { cls := 0x03, detail := 0, addr := 0, info := BitVec.ofNat 64 n }
  else if !registerExists s.curCore n then some { cls := 0x04, detail := 0, addr := 0, info := BitVec.ofNat 64 n }
  else none

/-- MFC d, a (R401). -/
def execMfc (d a : Reg) (s : State) : Result :=
  let n := bf (s.reg a) 13 0
  .next (s.unlessPending (scalars [d, a])
    (match s.registerFault n with
     | some f => s.takeFault s.curCore s.curSlot f
     | none => (s.putReg d (s.readCtl s.curCore s.curSlot n)).done ⟨4, [d, a], 0⟩))

/-- PARTCTL and BHCMD take the operations 1 to 4 only (16_package R431, R432). -/
def badOperation (n : Nat) (v : Word) : Bool := (n == 0x202 || n == 0x242) && !(decide (1 ≤ bf v 3 0 ∧ bf v 3 0 ≤ 4))

/-- An invalid operation is answered with CODE 2 and changes nothing else (R410); the journal holds it (16_package R449). -/
def State.refuseOperation (s : State) (n : Nat) (v : Word) : State :=
  let s1 := s.journalEntry n v 2 0
  if n = 0x202 then { s1 with pkg := { s1.pkg with partctlR := 2 } } else { s1 with pkg := { s1.pkg with bhcmdR := 2 } }

/-- A command or partition register write leaves (R410). -/
def State.sendCommand (s : State) (n : Nat) (v : Word) : State :=
  { s with commands := s.commands ++ [⟨n, s.commandSubject n, v, s.curCore, s.curSlot, s.cur.gen, none⟩] }

/-- Commands whose writes the journal holds (R449). -/
def isJournalled (reg : Nat) : Bool := [0x11B, 0x11C, 0x11E, 0x11F, 0x202, 0x203, 0x242, 0x249].contains reg

/-- A partition register written by a thread of no partition is discarded (log 25, DESIGN CHOICE); the journal holds a command as refused
(16_package R449). -/
def State.discardCommand (s : State) (n : Nat) (v : Word) : State := if isJournalled n then s.journalEntry n v 2 0 else s

/-- MTC a, b (R401, R410). A register of the core or of the package is written at WB: one of a mailbox for the instructions of its unit from the next
issue on (08_messages R225), FIT as FITSET writes it (14_population R374). -/
def execMtc (a b : Reg) (s : State) : Result :=
  let n := bf (s.reg a) 13 0
  let v := s.reg b
  let c := s.curCore
  let k := s.curSlot
  let r : Retire := ⟨4, [a, b], if n = 0x00A then 8 else 0⟩
  .next (s.unlessPending (scalars [a, b])
    (match s.registerFault n with
     | some f => s.takeFault c k f
     | none =>
       if slotRegister n then (s.modCur (fun t => t.writeCtl n v (s.xlatWord c k v))).done r
       else if mailRegister n then ((s.modCore c (fun x => x.keepMail 5 (n % 4))).writeCoreCtl 8 c n v).done r
       else if n = 0x006 then (s.fitAtWb c k 0 (some (keepf v 31 0))).done r
       else if coreRegister n then (s.modCore c (fun x => x.addLanding k 5 (.control n v))).done r
       else if badOperation n v then (s.refuseOperation n v).done r
       else if isCommandWrite n then
         (if partRegister n ∧ (s.partOf c k).isNone then (s.discardCommand n v).done r
          else (s.sendCommand n v).block (.command r))
       else (if partRegister n then s else s.modCore c (fun x => x.addLanding k 5 (.control n v))).done r))

/-! ### The supervisor (R402, R403) -/

/-- Segment 7. -/
def segSeven : Fin 8 := 7

/-- Entering the supervisor (R402). -/
def Slot.enterSupervisor (t : Slot) (x : Core) (code : Nat) : Slot :=
  { t with epc := addOffset t.pc 4, ecause := BitVec.ofNat 64 (code % 2 ^ 16)
           esegbase := t.segBase[segSeven], eseglim := t.segLim[segSeven]
           segBase := t.segBase.set segSeven x.ksegbase, segLim := t.segLim.set segSeven x.kseglim, privst := 1 }

/-- The level that ERET restores: it raises no context, and a level-2 context stays there (R399, R403; log 24, DEDUCED). -/
def returnLevel (privst : Word) : Nat :=
  if bf privst 1 0 = 2 then 2 else if bf privst 3 2 = 0 then 0 else 1

/-- Returning from the supervisor (R403). -/
def Slot.leaveSupervisor (t : Slot) : Slot :=
  { t with segBase := t.segBase.set segSeven t.esegbase, segLim := t.segLim.set segSeven t.eseglim
           privst := setf t.privst 1 0 (returnLevel t.privst) }

/-- TRAP a (R402). The check of the level depends on the opcode alone and stands in DC, before the register is read (03_strands R71, R78). -/
def execTrap (a : Reg) (s : State) : Result :=
  let c := s.curCore
  let k := s.curSlot
  let x := s.core c
  if s.cur.level ≠ 0 then .next (s.takeFault c k ⟨0x03, 1, 0, 0⟩)
  else
    .next (s.unlessPending (scalars [a])
      (if bf x.kseglim 57 0 = 0 then s.takeFault c k ⟨0x03, 2, 0, 0⟩
       else (s.modCur (fun t => t.enterSupervisor x (bf (s.reg a) 15 0))).doneTo x.tvec ⟨4, [a], 0⟩))

/-- ERET (R403). -/
def execEret (s : State) : Result :=
  if s.cur.level = 0 then .next (s.takeFault s.curCore s.curSlot ⟨0x03, 0, 0, 0⟩)
  else .next ((s.modCur Slot.leaveSupervisor).doneTo (keepf s.cur.epc 63 1) ⟨4, [], 0⟩)

/-! ### SEGLD, SEGST and BKPT (R404, R405) -/

/-- Where the segments of a slot are for SEGLD and SEGST: the spill record of its spilled owner, the slot, or a status. -/
inductive SegmentPlace where
  | record (a : Nat)
  | live
  | status (v : Nat)
deriving DecidableEq, Repr

/-- The place by the slot's state (R404). -/
def State.segmentPlace (s : State) (c : CoreId) (k me : Nat) : SegmentPlace :=
  let t := s.slot c k
  match t.st with
  | .spill | .fill => .status 1
  | st =>
    if t.spilled.isSome then .record (spillAddr c k + 0x80)
    else if k = me then .live
    else match st with
      | .run | .blocked => .status 1
      | .free => .status 2
      | _ => .live

/-- The sixteen segment registers of a slot. -/
def Slot.segments (t : Slot) : List Word :=
  (List.range 8).flatMap (fun n => [t.segBase.toList.getD n 0, t.segLim.toList.getD n 0])

/-- The sixteen registers from doublewords. -/
def Slot.setSegments (t : Slot) (ws : List Word) : Slot :=
  { t with segBase := vectorOf 8 0 ((List.range 8).map (fun n => keepf (ws.getD (2 * n) 0) 63 5))
           segLim := vectorOf 8 0 ((List.range 8).map (fun n => ws.getD (2 * n + 1) 0)) }

/-- Segment doublewords with the res0 bits of the bases at 0. -/
def segmentWords (ws : List Word) : List Word :=
  (List.range 16).map (fun i => if i % 2 = 0 then keepf (ws.getD i 0) 63 5 else ws.getD i 0)

/-- Doublewords that an instruction which retires in i + 11 writes to its own scratchpad (R404; 03_strands R71). -/
def State.storeWords (s : State) (c : CoreId) (k a : Nat) (ws : List Word) : State :=
  s.modCore c (fun x => x.addLanding k 6 (.store a (ws.flatMap (fun w => bytesOf w.toNat 8))))

/-- SEGLD and SEGST write their status and retire in i + 11, so that the thread issues again from i + 12; a slot whose segments move may issue
with them from then on. -/
def State.segmentEnd (s : State) (d : Reg) (status : Nat) (r : Retire) : State :=
  ((s.putReg d (BitVec.ofNat 64 status)).done r).modCur (fun t => { t with readyAt := max t.readyAt (s.now + 12) })

/-- SEGLD and SEGST. -/
def State.segmentMove (s : State) (d a b : Reg) (load : Bool) : Result :=
  let c := s.curCore
  let k := s.curSlot
  let n := bf (s.reg b) 3 0
  let r : Retire := ⟨4, [d, a, b], 0⟩
  if s.cur.level = 0 then .next (s.takeFault c k ⟨0x03, 0, 0, 0⟩)
  else
    .next (s.unlessPending (scalars [d, a, b])
      (match s.checkOwn c k (s.reg a) 8 128 [if load then rightR else rightW] 0x21 with
       | .error f => s.takeFault c k f
       | .ok pa =>
         if s.isHeld pa 128 then s.holdLocal pa 128
         else match s.segmentPlace c n k with
           | .status v => s.segmentEnd d v r
           | .live =>
             (if load then s.modCore c (fun x => x.addLanding k 12 (.segments n (s.readWords pa 16))) else s.storeWords c k pa (s.slot c n).segments).segmentEnd
               d 0 r
           | .record q =>
             if s.isHeld q 128 then s.holdLocal q 128
             else if load then (s.storeWords c k q (segmentWords (s.readWords pa 16))).segmentEnd d 0 r
             else (s.storeWords c k pa (segmentWords (s.readWords q 16))).segmentEnd d 0 r))

/-- SEGLD d, [a], b (R404). -/
def execSegld (d a b : Reg) (s : State) : Result := s.segmentMove d a b true

/-- SEGST d, [a], b (R404). -/
def execSegst (d a b : Reg) (s : State) : Result := s.segmentMove d a b false

/-- BKPT (R405). -/
def execBkpt (s : State) : Result := .next (s.takeFault s.curCore s.curSlot ⟨0x05, 0, 0, 0⟩)

/-! ### Write-backs (03_strands R71) -/

/-- The segment registers of a slot receive what SEGLD has read: those of its spilled owner in the record (R404). -/
def State.landSegments (s : State) (c : CoreId) (k : Nat) (ws : List Word) : State :=
  if (s.slot c k).st = .free then s
  else if (s.slot c k).spilled.isSome then s.writeWords (spillAddr c k + 0x80) (segmentWords ws)
  else s.modSlot c k (fun t => t.setSegments ws)

/-- VALUE is read and written (14_population R374). An MFC reads the old one in this cycle still, and the old value reaches its register in the next. -/
def State.landFit (s : State) (c : CoreId) (k : Nat) (d : Reg) (v : Option Word) : State :=
  s.modCore c (fun x =>
    let y := x.addLanding k 1 (.register d (BitVec.ofNat 64 x.fitness))
    match v with
    | some w => { y.keepCtl 1 0x006 x.fit with fit := w }
    | none => y)

/-- A write-back is done. A rotation applies from the cycle after the one of the WB (R76), three after the first issue whose RR sees it. -/
def State.writeBack (s : State) (c : CoreId) (e : Landing) : State :=
  match e.effect with
  | .store a bs => s.performWrite a bs
  | .control n v => if coreRegister n then s.writeCoreCtl 3 c n v else s.writePkgCtl n v
  | .pop mb rsize => s.mbPopped c mb rsize
  | .ending r count mask succ => s.haltNow c e.slot r count mask succ
  | .segments k ws => s.landSegments c k ws
  | .fit d v => s.landFit c e.slot d v
  | .register d v => writeReg s c e.slot d v
  | .epilogue b => (s.modCore c (fun x => { x with press := x.press.reload b })).wakeFor c (fun w => w == .epilogueBank)

/-- The write-backs of a core that p picks out are done, in the order of their instructions. -/
def State.landIf (s : State) (c : CoreId) (p : Landing → Bool) : State :=
  ((s.core c).landing.filter p).foldl (fun q e => q.writeBack c e) (s.modCore c (fun x => { x with landing := x.landing.filter (fun e => !p e) }))

/-- The write-backs that the instructions of this cycle see. -/
def State.land (s : State) (c : CoreId) : State := s.landIf c (fun e => decide (e.due ≤ (s.core c).cycle))

/-- Every write-back of a core, and those of FIT with the register they give: no instruction of it is in flight any more. -/
def State.landAll (s : State) (c : CoreId) : State := (s.landIf c (fun _ => true)).landIf c (fun _ => true)

/-! ### Device steps of local registers -/

/-- ROTATION_WRITE (03_strands R73, R76). -/
def execRotationWrite (c : Nat) (hi : Bool) (v : Word) (s : State) : Result := .next (s.writeRotation c 1 hi v)

/-- SIGCTL_WRITE (03_strands R99). -/
def execSigctlWrite (c k : Nat) (v : Word) (s : State) : Result := .next (s.modSlot c k (fun t => { t with sigctl := sigWrite t.sigctl v }))

/-- MAILBOX_CONFIG_WRITE (08_messages R222). -/
def execMailboxConfigWrite (c : Nat) (size : Bool) (mb : BitVec 2) (v : Word) (s : State) : Result :=
  .next (s.modCore c (fun x => x.writeMailbox size mb.toNat v))

/-- LOG_CONFIG_WRITE (09_sync R252). -/
def execLogConfigWrite (c : Nat) (size : Bool) (v : Word) (s : State) : Result := .next (s.modCore c (fun x => x.writeLog size v))

/-- PIN_RELEASE (R408). -/
def execPinRelease (c : Nat) (s : State) : Result := .next (s.modCore c Core.unpin)

/-- XLAT (R409). -/
def execXlat (c k : Nat) (v : Word) (s : State) : Result := .next (s.modSlot c k (fun t => { t with xlat := s.xlatWord c k v }))

/-- BHCTL_WRITE (16_package R430). -/
def execBhctlWrite (bh : Nat) (v : Word) (s : State) : Result := .next (s.writeBhctl bh v)

/-- PWRCEIL_WRITE (16_package R439, R449). -/
def execPwrceilWrite (v : Word) (s : State) : Result := .next (s.writeCeiling v 1)

end Sys2Proof.Machine
end

