-- ==== Sys2Proof/Machine/Timers.lean ====
section
/-! DEFINITION. Steps inside one core: illegal instructions (02_encoding R52), the ends of intervals and of iterative operations
(03_strands R92, 04_integer R105, 05_numbers R148, 06_vector R179), bank power (R90), the slot allocator and the dispatcher (R69, R89,
R95-R97; 13_tasks R355-R360), and parity errors (15_system R417-R419). A step whose condition does not hold changes nothing (log 11, DESIGN CHOICE). -/

namespace Sys2Proof.Machine

/-! ### Illegal instructions -/

/-- ILLEGAL_INSTRUCTION (R52): the parcels go into the record, the thread parks, and nothing else changes. -/
def execIllegalInstruction (p0 p1 : BitVec 16) (two : Bool) (s : State) : Result :=
  let addr := if two then p0.toNat + p1.toNat * 2 ^ 16 else p0.toNat
  .next (s.takeFault s.curCore s.curSlot ⟨0x01, if two then 2 else 1, BitVec.ofNat 64 addr, 0⟩)

/-! ### Intervals and iterative units -/

/-- The interval of a YIELD ends (R92). -/
def State.yieldDone (s : State) (c k : Nat) : State :=
  let t := s.slot c k
  match t.st, t.wait with
  | .blocked, .yield_ due => if due ≤ (s.core c).cycle then s.setSlot c k { t with st := .run, wait := .none } else s
  | _, _ => s

/-- YIELD_INTERVAL_END (R92). -/
def execYieldIntervalEnd (c k : Nat) (s : State) : Result := .next (s.yieldDone c k)

/-- An iterative unit delivers: result and flags are written in cycle `due`, which instructions that issue from `due` - 2 on see (R77), and
the instruction retires; its slot issues from `due` + 1 on. -/
def State.iterDone (s : State) (c k : Nat) (unit : IterUnit) : State :=
  match (s.slot c k).st, (s.slot c k).wait with
  | .blocked, .iter u d v f due r =>
    if u = unit ∧ due ≤ (s.core c).cycle + 2 then
      (((writeDest s c k d v).raiseAt c k f).retire c k r).modSlot c k (fun t => { t with readyAt := due + 1 })
    else s
  | _, _ => s

/-- DIVIDE_COMPLETE (R105). -/
def execDivideComplete (c k : Nat) (s : State) : Result := .next (s.iterDone c k .divider)

/-- FP_ITERATIVE_COMPLETE (R148). -/
def execFpIterativeComplete (c k : Nat) (s : State) : Result := .next (s.iterDone c k .fp)

/-- VECTOR_ITERATIVE_COMPLETE (R179). -/
def execVectorIterativeComplete (c k : Nat) (s : State) : Result := .next (s.iterDone c k .vector)

/-! ### Scratchpad banks (R90) -/

/-- The segment registers of the contexts of a slot: the one in it, and its spilled owner's, whose record SPILL has still to write. -/
def State.slotSegments (s : State) (c : CoreId) (k : Nat) : List Word :=
  let t := s.slot c k
  (if t.st = .free ∨ t.st = .reserved then [] else t.segments)
    ++ (if t.spilled.isSome ∧ t.st ≠ .spill then s.readWords (spillAddr c k + 0x80) 16 else [])

/-- A segment, as base and limit words, covers a byte of [lo, hi) in the core's own scratchpad: by the self coordinate, or by the core's own,
wherever its base lies (R90; 07_access R182, R187). -/
def State.segmentCovers (s : State) (c : CoreId) (k : Nat) (base lim : Word) (lo hi : Nat) : Bool :=
  let first := base.toNat % 2 ^ 48
  let own := fun (v : CoreId) => decide (first < v * 2 ^ 33 + hi ∧ v * 2 ^ 33 + lo < first + bf lim 57 0)
  decide (gaClass base = 0) && s.isOwnPkg (gaPkg base) && (own selfCoord || own (s.virtual (s.partOf c k) c))

/-- Pairs of a list of segment words. -/
def segmentPairs : List Word → List (Word × Word)
  | b :: l :: rest => (b, l) :: segmentPairs rest
  | _ => []

/-- [lo, lo + n) and [a, b) meet. -/
def meets (a n lo hi : Nat) : Bool := decide (n ≠ 0 ∧ a < hi ∧ lo < a + n)

/-- A bank is in use (R90). -/
def State.bankInUse (s : State) (c : CoreId) (j : Nat) : Bool :=
  let x := s.core c
  let lo := j * 0x8000
  let hi := lo + 0x8000
  (List.range 16).any (fun k => (segmentPairs (s.slotSegments c k)).any (fun z => s.segmentCovers c k z.1 z.2 lo hi))
    || x.retention.any (fun e => bit e.mask j)
    || x.sb.any (fun e => decide (e.lo < hi ∧ lo < e.hi))
    || (List.range 4).any (fun n => meets (x.mbBase n) (x.mbSize n) lo hi)
    || meets x.logBase (logSize x.logsize) lo hi
    || meets 0x7B800 0x4800 lo hi

/-- Power-down is enabled on the core's bulkhead (16_package R430). -/
def State.bankPowerDownOn (s : State) (c : CoreId) : Bool := isCompute c && (s.bulkhead (bulkheadOf c)).bankpd

/-- Every bank in use is stamped with the core's cycle. -/
def State.stampBanks (s : State) (c : CoreId) : State :=
  let now := (s.core c).cycle
  let stamp := fun (m : Assoc Bank) (j : Nat) => if s.bankInUse c j then m.put j { m.getD j Bank.reset with lastUse := now } else m
  s.modCore c (fun x => { x with banks := (List.range 16).foldl stamp x.banks })

/-- Every byte of a bank reads zero, with valid ECC. -/
def State.zeroBytes (s : State) (a n : Nat) : State :=
  { s with mem := s.mem.filter (fun e => !decide (a ≤ e.1 ∧ e.1 < a + n)),
           poison := s.poison.filter (fun e => !decide (a ≤ e.1 * 8 ∧ e.1 * 8 < a + n)) }

/-- A bank that is neither pinned nor has been in use for 4,096 cc loses power, and its data with it (R90, R91). -/
def State.idleBank (s : State) (c j : Nat) : State :=
  let b := (s.core c).banks.getD j Bank.reset
  if s.bankPowerDownOn c = true ∧ j < 16 ∧ b.powered = true ∧ b.pinned = false ∧ b.lastUse + 4096 ≤ (s.core c).cycle
    ∧ s.bankInUse c j = false then
    (s.zeroBytes (scratchAddr c (j * 0x8000)) 0x8000).modCore c (fun x => { x with banks := x.banks.put j { b with powered := false, upAt := none } })
  else s

/-- BANK_POWER_DOWN (R90, R91). -/
def execBankPowerDown (c j : Nat) (s : State) : Result := .next (s.idleBank c j)

/-- BANK_POWER_UP (R90; 07_access R186; 15_system R425): the bank is powered again, every byte of it is 0 and its blocks are dirty; a load or store
that waited for it completes, and what it held back issues again. -/
def execBankPowerUp (c j : Nat) (s : State) : Result :=
  let x := s.core c
  let b := x.banks.getD j Bank.reset
  .next (match b.powered, b.upAt with
    | false, some due =>
      if due ≤ x.cycle ∧ j < 16 then
        let s1 := (((s.zeroBytes (scratchAddr c (j * 0x8000)) 0x8000).markDirty (scratchAddr c (j * 0x8000)) 0x8000).modCore c
          (fun x => { x with banks := x.banks.put j { b with powered := true, upAt := none, lastUse := x.cycle } })).wakeFor c
            (fun w => w == .bankPower || w == .sealBusy)
        (List.range 16).foldl (fun q k => q.bankAccess c k) s1
      else s
    | _, _ => s)

/-! ### Generations (R89) -/

/-- GENERATION_ADVANCE (R89): a contained or lost slot makes the advance it owes. -/
def execGenerationAdvance (c k : Nat) (s : State) : Result :=
  let t := s.slot c k
  .next (if t.owes = true ∧ (t.st = .contained ∨ t.st = .lost) ∧ t.nextGen.isSome = true then s.setSlot c k t.advanceGen else s)

/-! ### The dispatcher (13_tasks R355-R364, R464) -/

/-- Keys of a descriptor. -/
def descKeys (ws : List Word) : List (BitVec 32) :=
  let g := fun (i : Nat) => ws.getD i 0
  ([bf (g 2) 31 0, bf (g 2) 63 32, bf (g 3) 31 0, bf (g 3) 63 32].take (bf (g 4) 42 40)).map (BitVec.ofNat 32)

/-- Keys strictly rise. -/
def keysRise : List (BitVec 32) → Bool
  | a :: b :: rest => decide (a < b) && keysRise (b :: rest)
  | _ => true

/-- An RCB is admitted and not withdrawn. -/
def Part.admitted (p : Part) (w : Word) : Bool :=
  match p.rcbAt w with
  | some r => !r.withdrawn
  | none => false

/-- The RCB a descriptor names; 0 names the partition's root. -/
def Part.descRcb (p : Part) (w : Word) : Word := if w = 0 then p.root else w

/-- The validation of R359. -/
def Part.descriptorOk (p : Part) (ws : List Word) : Bool :=
  let g := fun (i : Nat) => ws.getD i 0
  decide (bf (g 4) 42 40 ≤ 4) && !bit (g 0) 0 && keysRise (descKeys ws) && p.admitted (p.descRcb (g 5))

/-- A keyed active message, and its descriptor offset (08_messages R231). -/
def Active.isKeyed (a : Active) : Bool := bit a.entry 0
def Active.desc (a : Active) : Nat := bf a.entry 18 3 * 8

/-- A record of the dispatcher about no thread, under an RCB. -/
def State.dispatcherRecord (s : State) (c : CoreId) (rcb : Word) (f : FaultInfo) : State :=
  s.sendRecord c { part := s.partOf c 0, vtid := 0x7FFFF, pkg := 0xFFF, pc := ones, rcb := rcb } f 0 false

/-- Set STATE in a descriptor. -/
def State.setDescState (s : State) (c : CoreId) (desc st : Nat) : State :=
  s.writeWord (descAddr c desc 4) (setf (s.readWord (descAddr c desc 4)) 34 32 st)

/-- A packet of the dispatcher, of no slot. -/
def State.dispatcherPacket (s : State) (c dst : CoreId) (body : Body) : Msg :=
  ⟨c, dst, 0, 0, s.partOf c 0, none, 0x7FFFF, 0, ones, 0xFFF, none, true, none, body⟩

/-- Replace a staging entry. -/
def Core.setStage (x : Core) (z : Stage) : Core := { x with staging := x.staging.map (fun y => if y.id = z.id then z else y) }

/-- Remove a staging entry. -/
def Core.dropStage (x : Core) (id : Nat) : Core := { x with staging := x.staging.filter (fun y => y.id != id) }

/-- A staging entry asks for its next key, or has them all (R362). -/
def State.askKey (s : State) (c : CoreId) (z : Stage) : State :=
  match z.keys.drop z.granted with
  | [] => s.modCore c (fun x => x.setStage { z with asked := false, retryAt := none, done := some s.tick })
  | key :: _ =>
    (s.launch (s.dispatcherPacket c (keySlice z.keyns key) (.keyRequest z.keyns key z.id))).modCore c
      (fun x => x.setStage { z with asked := true, retryAt := none })

/-- Release keys that a staging entry holds. -/
def State.dropKeys (s : State) (c : CoreId) (z : Stage) : State :=
  (z.keys.take z.granted).foldl (fun q key => q.launch (q.dispatcherPacket c (keySlice z.keyns key) (.keyRelease z.keyns key))) s

/-- A staging entry that will not start: its keys are released, and a codelet goes to FAULT. -/
def State.abandonStage (s : State) (c : CoreId) (z : Stage) : State :=
  let s1 := (s.dropKeys c z).modCore c (fun x => x.dropStage z.id)
  if z.keyed.isNone then s1.setDescState c z.desc 6 else s1

/-- An entry joins the staging area with its descriptor's copy. -/
def State.addStage (s : State) (c : CoreId) (desc : Nat) (ws : List Word) (keyed : Option Active) (rcb : Word) : State :=
  let x := s.core c
  let keyns := match s.partOf c 0 with
    | some p => (match (s.part p).effective rcb with | some r => r.keyns | none => 0)
    | none => 0
  let z : Stage := ⟨x.nextStage, desc, ws.getD 0 0, ws.getD 1 0, keyed, descKeys ws, 0, false, none, keyns, rcb, none⟩
  (s.modCore c (fun x => { x with staging := x.staging ++ [z], nextStage := x.nextStage + 1 })).askKey c z

/-- The core's partition, or one with nothing in it. -/
def State.homePart (s : State) (c : CoreId) : Part := match s.partOf c 0 with | some p => s.part p | none => Part.reset

/-- The validation of a descriptor on a core: its RCB field names this package (01_machine R26). -/
def State.descriptorOk (s : State) (c : CoreId) (ws : List Word) : Bool :=
  (s.homePart c).descriptorOk ws && s.isOwnPkg (gaPkg ((s.homePart c).descRcb (ws.getD 5 0)))

/-- Take the ring's head (R355, R358, R359). -/
def State.stageRing (s : State) (c : CoreId) : State :=
  let x := s.core c
  let at_ := scratchAddr c (0x7B800 + 8 * x.ringHead)
  let w := s.readWord at_
  let desc := bf w 18 0
  let ws := s.readWords (descAddr c desc 0) 6
  if s.isHeld at_ 8 then s.powerFor at_ 8
  else if s.isHeld (descAddr c desc 0) 48 then s.powerFor (descAddr c desc 0) 48
  else
    let s1 := (s.modCore c (fun x => { x with ringHead := (x.ringHead + 1) % 256, ringCount := x.ringCount - 1,
                                              ringStamps := x.ringStamps.drop 1 })).wakeFor c (fun y => y == .ringFull)
    if bit w 63 = false ∨ bf w 62 19 ≠ 0 ∨ desc % 8 ≠ 0 ∨ descState (ws.getD 4 0) ≠ 2 then
      s1.dispatcherRecord c 0 ⟨0x3B, 0, s.ownGa c 0 (0x7B800 + 8 * x.ringHead), 0⟩
    else if s.descriptorOk c ws = false then
      (s1.setDescState c desc 6).dispatcherRecord c 0 ⟨0x3A, 0, s.ownGa c 0 desc, 0⟩
    else (s1.setDescState c desc 3).addStage c desc ws none ((s.homePart c).descRcb (ws.getD 5 0))

/-- Take the oldest keyed active message: the descriptor is read and not changed. -/
def State.stageKeyed (s : State) (c : CoreId) (a : Active) : State :=
  let ws := s.readWords (descAddr c a.desc 0) 6
  if s.isHeld (descAddr c a.desc 0) 48 then s.powerFor (descAddr c a.desc 0) 48
  else
    let s1 := s.modCore c (fun x => { x with amq := x.amq.erase a })
    if s.descriptorOk c ws = false then s1.dispatcherRecord c 0 ⟨0x3A, 0, s.ownGa c 0 a.desc, 0⟩
    else s1.addStage c a.desc ws (some a) a.rcb

/-- DISPATCHER_STAGE (R358): the older of the ring's head and the oldest keyed active message; a tie goes to the ring. -/
def execDispatcherStage (c : Nat) (s : State) : Result :=
  let x := s.core c
  .next (if 8 ≤ x.staging.length ∨ isCompute c = false ∨ x.halted = true then s
    else match x.amq.find? Active.isKeyed with
      | some a => if x.ringCount ≠ 0 ∧ x.ringStamps.headD 0 ≤ a.stamp then s.stageRing c else s.stageKeyed c a
      | none => if x.ringCount ≠ 0 then s.stageRing c else s)

/-! ### The slot allocator (R69, R95, R345, R360; 08_messages R233) -/

/-- A claim on the slot allocator: an active message, waiting outside the queue or in it, or a staging entry. -/
inductive Claim where
  | waiting (a : Active)
  | queued (a : Active)
  | codelet (z : Stage)
deriving DecidableEq, Repr

/-- The staging entry that completed its acquisition first. -/
def oldestReady : List Stage → Option Stage
  | [] => none
  | z :: rest =>
    match z.done, oldestReady rest with
    | none, r => r
    | some _, none => some z
    | some t, some y => if t ≤ y.done.getD 0 then some z else some y

/-- A ready codelet is left for which no slot is in SPILL (R95). -/
def Core.codeletWaits (x : Core) : Bool :=
  decide ((x.slots.toList.filter (fun t => t.st == .spill)).length < (x.staging.filter (fun z => z.done.isSome)).length)

/-- The claim served next (R69, R232). -/
def Core.nextClaim (x : Core) : Option Claim :=
  match x.amClaim, x.amq.find? (fun a => !a.isKeyed), oldestReady x.staging with
  | some a, _, _ => some (.waiting a)
  | none, some a, _ => some (.queued a)
  | none, none, some z => if x.codeletWaits then some (.codelet z) else none
  | none, none, none => none

/-- The RCB a claim would run under. -/
def Claim.rcb : Claim → Word
  | .waiting a => a.rcb
  | .queued a => a.rcb
  | .codelet z => z.rcb

/-- The address a record about a claim carries: the entry pc, or the descriptor (log 13, DESIGN CHOICE). -/
def State.claimAddr (s : State) (c : CoreId) : Claim → Word
  | .waiting a => a.entry
  | .queued a => a.entry
  | .codelet z => s.ownGa c 0 z.desc

/-- A claim leaves its queue. -/
def State.dropClaim (s : State) (c : CoreId) (q : Claim) : State :=
  match q with
  | .waiting _ => s.modCore c (fun x => { x with amClaim := none })
  | .queued a => s.modCore c (fun x => { x with amq := x.amq.erase a })
  | .codelet z => s.modCore c (fun x => x.dropStage z.id)

/-- The virtual bulkhead lies in the budget of the RCB the claim would run under (R345). -/
def State.claimInBudget (s : State) (c : CoreId) (rcb : Word) : Bool :=
  match s.partOf c 0 with
  | none => true
  | some p => match (s.part p).effective rcb with | some r => s.inBudget (some p) c r | none => true

/-- A claim outside the budget of its RCB (R345): a codelet goes to FAULT, an active message is discarded, and a record is sent. -/
def State.refuseClaim (s : State) (c : CoreId) (q : Claim) : State :=
  let s1 := match q with
    | .codelet z => s.abandonStage c z
    | .waiting _ => s.dropClaim c q
    | .queued _ => s.dropClaim c q
  s1.dispatcherRecord c q.rcb ⟨0x39, 0, s.claimAddr c q, 0⟩

/-- Start a claim in a slot: the context's registers, the descriptor's STATE and the retention entry (R91, R233, R360). -/
def State.startClaim (s : State) (c : CoreId) (k : Nat) (q : Claim) : State :=
  let am := fun (a : Active) => [a.arg0, a.arg1, BitVec.ofNat 64 a.vtid, BitVec.ofNat 64 a.pkg]
  match q with
  | .waiting a => (s.dropClaim c q).startContext c k a.entry (am a) a.rcb Origin.none
  | .queued a => (s.dropClaim c q).startContext c k a.entry (am a) a.rcb Origin.none
  | .codelet z =>
    let args := (match z.keyed with | some a => am a | none => [z.arg, 0, 0, 0]) ++ [BitVec.ofNat 64 z.desc]
    let o : Origin := { disp := true, ring := z.keyed.isNone, desc := z.desc, keys := z.keys, keyns := z.keyns }
    let s1 := (s.dropClaim c q).startContext c k z.pc args z.rcb o
    let s2 := s1.modCore c (fun x => { x with retention := x.retention.filter (fun e => e.succ != z.desc) })
    if z.keyed.isNone then s2.setDescState c z.desc 4 else s2

/-- The descriptor of a codelet that would start, or be refused, is held (10_ordering R280; 03_strands R90). -/
def State.claimHeld (s : State) (c : CoreId) (q : Claim) : Bool :=
  match q with
  | .codelet z => z.keyed.isNone && s.isHeld (descAddr c z.desc 0) 48
  | _ => false

/-- A bank of that descriptor powers up. -/
def State.claimPower (s : State) (c : CoreId) (q : Claim) : State :=
  match q with
  | .codelet z => s.powerFor (descAddr c z.desc 0) 48
  | _ => s

/-- SLOT_GRANT (R69): the oldest claim of the highest class takes the lowest-numbered FREE slot, unless a claim was granted in this cycle. -/
def execSlotGrant (c : Nat) (s : State) : Result :=
  let x := s.core c
  .next (if x.halted = true ∨ x.granted = some x.cycle then s
    else match x.nextClaim with
      | none => s
      | some q =>
        if s.claimHeld c q then s.claimPower c q
        else if s.claimInBudget c q.rcb = false then s.refuseClaim c q
        else match x.freeSlot (userSlots c) x.cycle with
          | some k => (s.startClaim c k q).noteGrant c x.cycle
          | none => s)

/-! ### Slot lending (R95-R97) -/

/-- The lowest-numbered slot reserved for a spilled owner, with no borrower in it, once the end of its last borrower has reached WB (R88, R95). -/
def Core.reservedSlot (x : Core) : Option Nat :=
  (List.range 16).find? (fun k => (x.slot k).st == .reserved && decide ((x.slot k).readyAt ≤ x.cycle))

/-- The lowest-numbered slot whose strand has been parked for 256 cc in a park that a wake releases. -/
def Core.lendable (x : Core) : Option Nat :=
  (List.range 16).find? (fun k =>
    let t := x.slot k
    t.st == .parked && t.spilled.isNone && (match t.park with | some q => q.kind == 1 && decide (q.since + 256 ≤ x.cycle) | none => false))

/-- The owner of a slot begins to move to the spill area: 40 cc. -/
def Slot.beginSpill (t : Slot) (cycle : Nat) : Slot :=
  { t with st := .spill, wait := .yield_ (cycle + 40),
           spilled := some { gen := t.gen, woken := false, park := t.park, origin := t.origin, posted := t.posted, acq := t.acq } }

/-- SLOT_LEND (R95): a ready codelet, no FREE slot: a reserved slot first, once a generation qualifies for it (R89), else a parked strand is
spilled. -/
def execSlotLend (c : Nat) (s : State) : Result :=
  let x := s.core c
  .next (if x.lend = false ∨ x.halted = true ∨ x.codeletWaits = false ∨ x.anyFree (userSlots c) x.cycle = true then s
    else match oldestReady x.staging with
      | none => s
      | some z =>
        if s.claimInBudget c z.rcb = false then s
        else if s.claimHeld c (.codelet z) then s.claimPower c (.codelet z)
        else match x.reservedSlot with
          | some k => if (x.slot k).nextGen.isSome then s.startClaim c k (.codelet z) else s
          | none =>
            match x.lendable with
            | some k => s.modSlot c k (fun t => t.beginSpill x.cycle)
            | none => s)

/-- SPILL (R95, R96): the record is written, and a ready codelet starts in the slot; without one the slot is reserved. -/
def execSpill (c k : Nat) (s : State) : Result :=
  let t := s.slot c k
  .next (match t.st, t.wait, t.spilled with
    | .spill, .yield_ due, some o =>
      if (s.core c).cycle < due then s
      else if s.isHeld (spillAddr c k) 1024 then s.powerFor (spillAddr c k) 1024
      else
        let rec_ := ({ t with st := .parked, spilled := none } : Slot).record
        let s1 := (s.writeWords (spillAddr c k) rec_).modSlot c k
          (fun t => { t.vacate (s.core c).cycle with spilled := some o, st := .reserved, wait := .none })
        match oldestReady (s1.core c).staging with
        | some z =>
          if s1.claimInBudget c z.rcb = true ∧ (s1.slot c k).nextGen.isSome = true ∧ s1.claimHeld c (.codelet z) = false then s1.startClaim c k (.codelet z)
          else s1.modSlot c k (fun t => t.vacate (s.core c).cycle)
        | none => s1.modSlot c k (fun t => t.vacate (s.core c).cycle)
    | _, _, _ => s)

/-- The owner of a slot as its spill record and its posted table give it, in its own generation. -/
def State.filled (s : State) (c : CoreId) (k : Nat) (o : Spilled) : Slot :=
  let t := s.slot c k
  { t.load (s.readWords (spillAddr c k) 128) (Config.freeWord s.free) with
    gen := o.gen, owes := false, posted := o.posted, acq := o.acq, spilled := none, wait := .none, park := none }

/-- FILL (R97): the owner returns to RUN and issues its parked instruction again. -/
def execFill (c k : Nat) (s : State) : Result :=
  let t := s.slot c k
  .next (match t.st, t.wait, t.spilled with
    | .fill, .yield_ due, some o =>
      if (s.core c).cycle < due then s
      else if s.isHeld (spillAddr c k) 1024 then s.powerFor (spillAddr c k) 1024
      else (s.setSlot c k { s.filled c k o with st := .run }).fresh
    | _, _, _ => s)

/-- A waiting push of the ready ring is done again once an entry is free: the step of a CLEND (R354), or the operation of a request,
which is answered then (R357). -/
def State.repush (s : State) (c : CoreId) (e : Nat × Option Msg) : State :=
  match e.2 with
  | none => s.endCodelet c e.1 (some 0)
  | some m =>
    match m.body with
    | .codelet op addr n rcb =>
      let q := s.performCodelet c op (scratchOff addr) n rcb
      (if q.under then q.s.sendRecord c m.who (underflowInfo (s.gaOf m.part addr)) 0 true else q.s).answerWith m .done
        (q.word.setWidth 256)
    | _ => s

/-- HELD_RING_PUSH (R357): the oldest push that waits for the ring, or else the oldest end of a codelet that was held. -/
def execHeldRingPush (c : Nat) (s : State) : Result :=
  let x := s.core c
  .next (match x.heldPush, x.ending with
    | e :: rest, _ =>
      if x.ringFull then s
      else if s.isHeld (s.ringSlot c) 8 then s.powerFor (s.ringSlot c) 8
      else if s.isHeld (descAddr c e.1 0) 48 then s.powerFor (descAddr c e.1 0) 48
      else (s.modCore c (fun x => { x with heldPush := rest })).repush c e
    | [], e :: rest =>
      if s.endHeld c e.1 e.2 then (s.powerFor (descAddr c e.1 0) 48).powerFor (s.ringSlot c) 8
      else (s.modCore c (fun x => { x with ending := rest })).endStep c e.1 e.2
    | [], [] => s)

/-! ### Parity errors (15_system R417-R419) -/

/-- A slot reads a register in the cycle of an error. The step before the issue of cycle n stands for one in cycle n + 4, in which what issues in
n + 1 is in RR; that instruction never takes place (log 6, DESIGN CHOICE). -/
def Core.reads (x : Core) (k : Nat) : Bool := (x.slot k).st == .run && decide ((x.slot k).readyAt ≤ x.cycle + 1)

/-- REGISTER_PARITY_ERROR (R417, R418): the thread that reads the register is contained. -/
def execRegisterParityError (c k : Nat) (s : State) : Result :=
  .next (if (s.core c).reads k then s.contain c k ⟨0x51, 0, 0, 0⟩ else s)

/-- A slot with the pc, the segments and the control registers it had before an instruction that is cancelled (R419). -/
def Slot.undo (t b : Slot) : Slot :=
  { t with
    pc := b.pc, segBase := b.segBase, segLim := b.segLim, fpctl := b.fpctl, fpst := b.fpst, cvtcnt := b.cvtcnt, sigctl := b.sigctl, chst := b.chst
    geom := b.geom, logseq := b.logseq, latcnt := b.latcnt, rcbptr := b.rcbptr, privst := b.privst, epc := b.epc, ecause := b.ecause
    esegbase := b.esegbase, eseglim := b.eseglim, xlat := b.xlat }

/-- An instruction that issued in n - 2 or n - 1 is in MA2 or MA1 in cycle n + 4: it is cancelled unless it has committed, with what it would do at its
WB; the slot that a FORK took is FREE again (R419; 03_strands R71). -/
def State.cancelFlight (s : State) (c : CoreId) (e : Flight) : State :=
  let x := s.core c
  if e.committed || decide (e.issued + 2 < x.cycle) then s
  else
    let s1 := (s.modCore c (fun y => { y with landing := y.landing.filter (fun l => !decide (l.slot = e.slot ∧ l.issued = e.issued)) })).modSlot c e.slot
      (fun t => if t.gen = e.before.gen then t.undo e.before else t)
    match e.child with
    | some j => s1.modSlot c j (fun t => t.vacate x.cycle)
    | none => s1

/-- A context that is on its way to or from the spill area stands in its slot again. -/
def State.settleMove (s : State) (c : CoreId) (k : Nat) : State :=
  let t := s.slot c k
  match t.st, t.spilled with
  | .spill, some _ => s.setSlot c k { t with spilled := none }
  | .fill, some o => (s.setSlot c k (s.filled c k o)).fresh
  | _, _ => s

/-- One occupied slot of R419. -/
def State.containShared (s : State) (c : CoreId) (reader k : Nat) : State :=
  match (s.slot c k).st with
  | .free => s
  | .reserved => s
  | _ => (s.settleMove c k).contain c k ⟨0x52, 0, 0, BitVec.ofNat 64 reader⟩

/-- SHARED_BANK_PARITY_ERROR (R419): what is in flight and has not committed is cancelled, every occupied slot is contained, and the shared registers are
zero. -/
def execSharedBankParityError (c k : Nat) (s : State) : Result :=
  .next (if (s.core c).reads k then
      let s1 := (s.core c).flight.foldl (fun q e => q.cancelFlight c e) s
      ((List.range 16).foldl (fun q j => q.containShared c k j) s1).modCore c
        (fun x => { x with s := Vector.replicate 16 0, vs := Vector.replicate 16 0, pendS := 0, pendVs := 0, stale := [], flight := [] })
    else s)

/-- An operation that is performed at its own core in MA1 (03_strands R71). -/
def actsInMa1 (i : Instr) : Bool :=
  match i with
  | .amoadd _ _ _ _ | .amoand _ _ _ _ | .amoor _ _ _ _ | .amoxor _ _ _ _ | .amomin _ _ _ _ | .amomax _ _ _ _ | .amominu _ _ _ _ | .amomaxu _ _ _ _
  | .amoswap _ _ _ _ | .amocas _ _ _ _ | .amofadd _ _ _ _ | .logapp _ _ _ | .tladd _ _ _ | .tlset _ _ _ | .tlwait _ _ _ | .tkt _ _ | .tkwait _ _ _
  | .tkdone _ _ | .clinit _ _ _ | .cldec _ _ | .clpush _ _ => true
  | _ => false

/-- An instruction has launched a request, or given a command to a unit (03_strands R71). -/
def State.hasSent (s t : State) (c : CoreId) : Bool :=
  s.net.length != t.net.length || s.egress.length != t.egress.length || s.commands.length != t.commands.length || s.nextCmd != t.nextCmd
    || s.engine.length != t.engine.length || (s.core c).press.queue.length != (t.core c).press.queue.length

/-- The issuing instruction is noted as in flight, with those of the cycle before (R419). -/
def State.noteFlight (t : State) (i : Instr) (s : State) : State :=
  let c := s.curCore
  let child := (List.range 16).find? (fun j => j != s.curSlot && (s.slot c j).st == .free && (t.slot c j).st == .run)
  let e : Flight := ⟨(s.core c).cycle, s.curSlot, s.cur, child, actsInMa1 i || s.hasSent t c⟩
  t.modCore c (fun x => { x with flight := x.flight.filter (fun f => decide (x.cycle ≤ f.issued + 1)) ++ [e] })

/-! ### Addresses in records -/

/-- The address that a record about a request carries. -/
def State.bodyGa (s : State) (part : Option Nat) (dst : CoreId) (b : Body) : Word :=
  let at_ := fun (a : Nat) => match namedCore dst with
    | some v => virtualGa v (scratchOff a)
    | none => if 32768 ≤ dst then BitVec.ofNat 64 a else s.gaOf part a
  let name := (namedCore dst).getD (s.virtual part dst)
  match b with
  | .load a _ => at_ a
  | .store a _ _ => at_ a
  | .pieces a _ _ => at_ a
  | .storing _ _ _ a => at_ a
  | .atomic _ _ a _ _ => at_ a
  | .sync _ a _ => at_ a
  | .codelet _ a _ _ => at_ a
  | .logApp rec => virtualGa name (bf (rec.getD 0 0) 18 0)
  | .control _ off _ _ =>
    let pkg := if dst < 32768 then 0xFFF else dst / 32768 - 1
    BitVec.ofNat 64 (3 * 2 ^ 60 + pkg * 2 ^ 48 + dst % 32768 * 2 ^ 33 + off)
  | .chain ga _ _ _ _ _ _ => ga
  | .query _ tag e => tokenWord s.pkgNo name (BitVec.ofNat 16 tag) e
  | _ => 0

/-! ### Timeouts (08_messages R230, 13_tasks R368) and waits sent again (09_sync R265) -/

/-- The time of an MBWAIT is over (R230): the invalid handle is written in cycle `due`, which instructions that issue from `due` - 2 on see. -/
def State.mbwaitDone (s : State) (c k : Nat) : State :=
  match (s.slot c k).st, (s.slot c k).wait with
  | .blocked, .mbwait _ d (some due) r => if due ≤ (s.core c).cycle + 2 then (writeReg s c k d (badHandle 0)).retire c k r else s
  | _, _ => s

/-- MBWAIT_TIMEOUT (R230). -/
def execMbwaitTimeout (c k : Nat) (s : State) : Result := .next (s.mbwaitDone c k)

/-- The next part of what an MBPOP copies; the handle lands in cycle `due` + 2 (08_messages R229, R241). -/
def State.moveDone (s : State) (c k : Nat) : State :=
  match (s.slot c k).st, (s.slot c k).wait with
  | .blocked, .popping mb d src dst left due h r =>
    if left ≠ 0 then s.popPiece c k mb d src dst left (min left 4) due h r
    else if due ≤ (s.core c).cycle then (writeReg s c k d h).retire c k r
    else s
  | _, _ => s

/-- Whatever ends, or goes on, in a slot by its core's clock in this cycle. -/
def State.settleTimer (s : State) (c k : Nat) : State :=
  match (s.slot c k).wait with
  | .yield_ _ => s.yieldDone c k
  | .iter unit _ _ _ _ _ => s.iterDone c k unit
  | .mbwait _ _ _ _ => s.mbwaitDone c k
  | .popping _ _ _ _ _ _ _ _ => s.moveDone c k
  | .seal _ _ _ _ _ _ _ => s.sealStep c k
  | .lineage _ _ _ _ _ _ _ => s.lineageStep c k
  | .blend _ _ _ _ _ _ _ => s.blendStep c k
  | _ => s

/-- The word of QPOP and QPOPW on an empty queue (R368). -/
def emptyWord : Word := 0x8000000000000000#64

/-- QPOPW_TIMEOUT (R368): the core withdraws the wait; a wait that is to be sent again ends with the empty word. -/
def execQpopwTimeout (c k : Nat) (s : State) : Result :=
  .next (match (s.slot c k).st, (s.slot c k).wait with
    | .blocked, .qpopw d (some due) q tgt false retry r =>
      if (s.core c).cycle < due then s
      else if retry.isSome then (writeReg s c k d emptyWord).retire c k r
      else (s.launch (s.packet c k tgt none none (.queue 9 q 0))).modSlot c k
        (fun t => { t with wait := .qpopw d (some due) q tgt true none r })
    | _, _ => s)

/-- WAIT_RETRY (R265; 12_engines R330; 13_tasks R368): a wait answered `retry` is sent again 256 fc later, as a new message. -/
def execWaitRetry (c k : Nat) (s : State) : Result :=
  .next (match (s.slot c k).st, (s.slot c k).wait with
    | .blocked, .retry use r body tgt due =>
      if due ≤ s.fc then
        (match s.homeNow (s.partOf c k) (namedCore tgt) tgt body with
         | some z => s.request c k z.1 z.2.1 z.2.2 use r
         | none => s.outsideFault c k (s.bodyGa (s.partOf c k) tgt body))
      else s
    | .blocked, .qpopw d dl q tgt w (some due) r =>
      if due ≤ s.fc then
        ((s.launch (s.packet c k tgt none none (.queue 6 q 0))).modSlot c k Slot.addOut).modSlot c k
          (fun t => { t with wait := .qpopw d dl q tgt w none r })
      else s
    | _, _ => s)

end Sys2Proof.Machine
end

