-- ==== Sys2Proof/Machine/Ports.lean ====
section
/-! DEFINITION. Messages at their destinations: requests at their homes (07_access R189-R191, 09_sync R245-R266, 08_messages R224-R240,
13_tasks R351-R369, 12_engines R330, 14_population R375-R394), and replies at their threads (07_access R191, R194; 03_strands R89). A step
names a packet by its place among those in flight; packets of one source to one destination are delivered in order (01_machine R23). -/

namespace Sys2Proof.Machine

/-! ### Which packet may be delivered -/

/-- A request waits behind a held push of its source at the owner's port (13_tasks R357). -/
def State.behindPush (s : State) (m : Msg) : Bool :=
  (s.core m.dst).heldPush.any (fun e => match e.2 with | some h => h.src == m.src | none => false)

/-- The packet in a place, and the state without it: none where an earlier packet of the pair is in flight, the destination's clock is
stopped, or the packet is for the overflow queue. -/
def State.pick (s : State) (n : Nat) : Option (Msg × State) :=
  match s.net[n]? with
  | none => none
  | some m =>
    if (s.net.take n).any (fun y => y.src == m.src && y.dst == m.dst) || m.held.isSome || s.isStopped m.dst || s.behindPush m
        || s.routeStalled m.from_ m.dst then none
    else some (m, { s with net := s.net.eraseIdx n })

/-! ### Addresses in records -/

/-- The address of a packet's request. -/
def State.msgGa (s : State) (m : Msg) : Word := s.bodyGa m.part m.dst m.body

/-- The thread a wake names, as its sender's program does. -/
def State.wakeName (s : State) (m : Msg) : Word := BitVec.ofNat 64 (s.virtual m.part m.dst * 16 + m.slot)

/-! ### Absent targets (01_machine R24) -/

/-- A chain ends: the reply goes to the requester in the packet's generation (08_messages R239). -/
def State.endChain (s : State) (m : Msg) (home rc rs : Nat) (v : Vec) (chst : Word) (poison : Bool) : State :=
  s.launch { m with src := home, dst := rc, slot := rs, held := none, post := none, body := .chainReply v chst poison }

/-- A staging entry's key request is answered absent (13_tasks R464). -/
def State.keyAbsent (s : State) (m : Msg) (key : BitVec 32) (stage : Nat) : State :=
  match (s.core m.src).staging.find? (fun z => z.id == stage) with
  | none => s
  | some z => (s.abandonStage m.src z).dispatcherRecord m.src z.rcb ⟨0x16, 0, key.setWidth 64, 0⟩

/-- The fabric answers a request with an absent status; nothing is performed. -/
def State.answerAbsent (s : State) (m : Msg) : State :=
  match m.body with
  | .load _ _ | .pieces _ _ _ | .store _ _ _ | .storing _ _ _ _ | .atomic _ _ _ _ _ | .sync _ _ _ | .logApp _ | .codelet _ _ _ _ | .control _ _ _ _ | .query _ _ _
  | .queue _ _ _ => s.answer m .absent 0 0 (s.msgGa m) 0
  | .fitRead none => s.answerWith m .absent 0
  | .fitRead (some (k, req)) => s.launch { m with src := m.dst, dst := m.src, held := none, body := .sample k none req }
  | .engine _ _ _ | .migrate _ _ _ _ _ _ _ => if 32768 ≤ m.src then s.answerWith m .absent 0 else s
  | .abort _ _ reply => if reply then s.answerWith m .absent 0 else s
  | .mail _ payload fault _ => if fault then s.queueRecord m.part (mailHeader payload.length 0 m.vtid m.pkg) payload
                                else s.answerStatus m 2
  | .active _ _ _ _ => s.answerStatus m 2
  | .wake => s.sendRecord m.src m.who ⟨0x16, 0, s.wakeName m, 0⟩ 0 false
  | .chain ga _ k _ _ rc rs => s.endChain m m.dst rc rs (ga.setWidth 256) (chstWord k 4 0 0) false
  | .keyRequest _ key stage => s.keyAbsent m key stage
  | _ => s

/-! ### Serving a request -/

/-- The bytes a request touches at its home, which an entry or a bank may hold (07_access R189). A drip-log record that is refused touches none
(09_sync R256). -/
def State.portBytes (s : State) (m : Msg) : Option (Nat × Nat) :=
  match m.body with
  | .load a n => some (a, n)
  | .store a n _ => some (a, n)
  | .pieces a left _ => some (a, min left 8)
  | .storing a left _ _ => some (a, min left 8)
  | .atomic _ dbl a _ _ => some (a, amoSize dbl)
  | .sync op a _ => some (a, syncSize op)
  | .codelet _ a _ _ => some (a, 48)
  | .engine op ga n => some (ga.toNat, if op = 0 then n else 64)
  | .logApp _ => if (s.core m.dst).logRefuses then none else some (s.logAddr m.dst (logCount (s.core m.dst).logsize), 32)
  | .chain _ a k steps vec _ _ => some (a, if vec && k + 1 == steps.length then 32 else 8)
  | _ => none

/-- Deliver packet n if it is of the wanted kind: an absent target is answered so, a held request waits at the port, and any other is
performed, at HBM4E once its bank has served it (12_engines R340; 09_sync R250). -/
def State.serve (s : State) (n : Nat) (want : Body → Bool) (act : State → Msg → State) : Result :=
  .next (match s.pick n with
    | none => s
    | some (m, s1) =>
      if want m.body = false then s
      else if s.isAbsent m then (s1.dropAccesses (fun f => f == .packet m)).answerAbsent m
      else match s.portBytes m with
        | some (a, len) =>
          if s.isHeld a len then s.powerFor a len
          else if m.body.rest.isSome then act s1 m
          else s.throughChannel m.src (.packet m) a (fun q => act { q with net := q.net.eraseIdx n } m)
        | none => act s1 m)

/-- An unprivileged access to the spill area of a core with lending (03_strands R96). -/
def State.spillRefused (s : State) (m : Msg) (a n : Nat) : Bool :=
  decide (addrClass a = 0) && isCompute m.dst && (s.core m.dst).lend && inSpillArea (scratchOff a) n && !m.priv

/-- A packet that is not done goes on from its place. -/
def State.putBack (s : State) (n : Nat) (m : Msg) (b : Body) : State := { s with net := s.net.insertIdx n { m with body := b } }

/-- Read the next piece of a load at its home, of at most 8 bytes (10_ordering R278); the last one is followed by the reply. -/
def State.loadPiece (s : State) (n : Nat) (m : Msg) (a left : Nat) (got : List Byte) : State :=
  let k := min left 8
  if s.isPoisoned a k then s.answerWith m .poisoned 0
  else if left ≤ 8 then s.answerWith m .done (BitVec.ofNat 256 (ofBytes (got ++ s.readBytes a k)))
  else s.putBack n m (.pieces (a + k) (left - k) (got ++ s.readBytes a k))

/-- Write the next piece of a store at its home, of at most 8 bytes (06_vector R177); the last one is followed by the acknowledgement. -/
def State.storePiece (s : State) (n : Nat) (m : Msg) (a left : Nat) (data : Vec) (base : Nat) : State :=
  let k := min left 8
  let q := s.performWrite a (bytesOf data.toNat k)
  if left ≤ 8 then q.answer m .done 0 0 (s.msgGa m) 0
  else q.putBack n m (.storing (a + k) (left - k) (data >>> (8 * k)) base)

/-- LOAD_REQUEST (R188-R191). -/
def execLoadRequest (n : Nat) (s : State) : Result :=
  s.serve n (fun b => match b with | .load _ _ | .pieces _ _ _ => true | _ => false) (fun s m =>
    match m.body with
    | .load a len => if s.spillRefused m a len then s.answerWith m .refused 0 else s.loadPiece n m a len []
    | .pieces a left got => s.loadPiece n m a left got
    | _ => s)

/-- STORE (R188-R191, R194). -/
def execStore (n : Nat) (s : State) : Result :=
  s.serve n (fun b => match b with | .store _ _ _ | .storing _ _ _ _ => true | _ => false) (fun s m =>
    match m.body with
    | .store a len data =>
      if s.spillRefused m a len then s.answer m .refused 0 0 (s.msgGa m) 0 else s.storePiece n m a len data a
    | .storing a left data base => s.storePiece n m a left data base
    | _ => s)

/-- ATOMIC (09_sync R245, R247, R248). -/
def execAtomic (n : Nat) (s : State) : Result :=
  s.serve n (fun b => match b with | .atomic _ _ _ _ _ => true | _ => false) (fun s m =>
    match m.body with
    | .atomic op dbl a x c =>
      if s.spillRefused m a (amoSize dbl) then s.answer m .refused 0 0 (s.msgGa m) 0
      else if s.isPoisoned a (amoSize dbl) then s.answer m .poisoned 0 0 (s.msgGa m) 0
      else
        let v := s.performAtomic op dbl a x c
        v.1.answer m .done (BitVec.ofNat 256 v.2.1) (if op = 10 then v.2.2 else 0) (s.msgGa m) 0
    | _ => s)

/-- A wait enters the waiter table of its home, or is answered `retry` (R265). -/
def State.enterWaiter (s : State) (m : Msg) (w : Watch) : State :=
  if (s.core m.dst).waiterRoom then s.addWaiter m.dst ⟨w, m.src, m.slot, m.gen⟩ else s.answerWith m .retry 0

/-- SYNCHRONISATION (R264-R266, R269): an operation is performed, answered or entered as a waiter; a withdrawal frees the waiter. -/
def execSynchronisation (n : Nat) (s : State) : Result :=
  s.serve n (fun b => match b with | .sync _ _ _ | .withdraw => true | _ => false) (fun s m =>
    match m.body with
    | .sync op a x =>
      let w := syncWord op a
      if s.spillRefused m a (syncSize op) then s.answer m .refused 0 0 (s.msgGa m) 0
      else if s.isPoisoned w 8 then s.answer m .poisoned 0 0 (s.msgGa m) 0
      else match s.performSync op a x with
        | (s1, some v) => s1.answer m .done (v.setWidth 256) 0 (s.msgGa m) 0
        | (s1, none) => s1.enterWaiter m (.word w x)
    | .withdraw =>
      let mine := fun (w : Waiter) => w.core == m.src && w.slot == m.slot && w.gen == m.gen
      if (s.core m.dst).waiters.any mine then
        (s.modCore m.dst (fun x => { x with waiters := x.waiters.filter (fun w => !mine w) })).modSlot m.src m.slot (fun t => t.subOut m.gen)
      else s
    | _ => s)

/-- LOG_APPEND (09_sync R256). The home does not look whether the record's target lies in its spill area, which the append leaves alone (log 85,
DESIGN CHOICE). -/
def execLogAppend (n : Nat) (s : State) : Result :=
  s.serve n (fun b => match b with | .logApp _ => true | _ => false) (fun s m =>
    match m.body with
    | .logApp rec =>
      let q := s.appendLog m.dst rec
      q.1.answer m (if q.2 then .done else .logRefused) 0 0 (s.msgGa m) 0
    | _ => s)

/-- CODELET_COUNTER_REQUEST (13_tasks R351, R352, R357): a push that finds the ring full is held at the owner's port. -/
def execCodeletCounterRequest (n : Nat) (s : State) : Result :=
  s.serve n (fun b => match b with | .codelet _ _ _ _ => true | _ => false) (fun s1 m =>
    let back := s
    let s := s1
    match m.body with
    | .codelet op a cnt rcb =>
      let desc := scratchOff a
      if s.spillRefused m a 48 then s.answer m .refused 0 0 (s.msgGa m) 0
      else if s.isPoisoned (descAddr m.dst desc 4) 8 then s.answer m .poisoned 0 0 (s.msgGa m) 0
      else if s.codeletHeld m.dst op desc cnt then s.modCore m.dst (fun x => { x with heldPush := x.heldPush ++ [(desc, some m)] })
      else if s.codeletWaits m.dst op desc cnt then back.powerFor (s.ringSlot m.dst) 8
      else
        let q := s.performCodelet m.dst op desc cnt rcb
        (if q.under then q.s.sendRecord m.dst m.who (underflowInfo (s.msgGa m)) 0 true else q.s).answer m .done (q.word.setWidth 256) 0
          (s.msgGa m) 0
    | _ => s)

/-- A request that an engine command of another package makes here (R319, R326): it reads n bytes of a source, or counts, publishes, formats or gives
back at a header of buffers of n units. None while it waits (log 19, DESIGN CHOICE). -/
def State.takeEngine (s : State) (op a n : Nat) : Option (State × Status × Word) :=
  let front := s.headerFront a
  let misfit := decide (bf (s.readWord (a + 8)) 39 0 ≠ 256 * n)
  let word := fun (v : Nat) => BitVec.ofNat 64 v
  match op with
  | 0 => some (s, if s.isPoisoned a n then .poisoned else .done, word (s.readNat a n))
  | 1 => if misfit then some (s, .refused, 0) else some (s.bumpRd a front 1, .done, word front)
  | 2 =>
    if misfit then some (s, .refused, 0)
    else if s.publishWaits a s.tick || s.headerRd a (1 - front) != 0 then none
    else some (s.bumpHeader a 47 32 1, .done, word (1 - front))
  | 3 =>
    if s.headerWr a ≠ 0 ∨ s.publishWaits a s.tick = true then none
    else some (s.flipHeader a, .done, 0)
  | 4 =>
    if s.publishWaits a s.tick then none
    else if bf (s.readWord (a + 16)) 47 0 ≠ 0 then some (s, .refused, 0)
    else some (s.formatHeader a n, .done, 0)
  | 5 => some (s.bumpRd a n 0xFFFF, .done, 0)
  | _ => some (s.bumpHeader a 47 32 0xFFFF, .done, 0)

/-- HTST, HWAIT or HCAN at the core of the entry (R330). -/
def State.takeQuery (s : State) (m : Msg) : State :=
  match m.body with
  | .query op tag e =>
    (match s.tokenAct m.dst op tag e with
     | (s1, some v) => s1.answerWith m (if op ≠ 7 ∧ isStatus v = true then (s.core m.dst).statusAnswer e else .done) (v.setWidth 256)
     | (s1, none) => s1.enterWaiter m (.entry e tag))
  | _ => s

/-- TOKEN_QUERY (12_engines R330): HTST, HWAIT or HCAN at the core of the entry; or a request of an engine command of another package. -/
def execTokenQuery (n : Nat) (s : State) : Result :=
  s.serve n (fun b => match b with | .query _ _ _ | .engine _ _ _ => true | _ => false) (fun s1 m =>
    match m.body with
    | .engine op ga z =>
      (match s1.takeEngine op ga.toNat z with
       | some (s2, st, v) => s2.answerWith m st (v.setWidth 256)
       | none => s1.putBack n m m.body)
    | _ => s1.takeQuery m)

/-- FIT_READ (14_population R375, R379). -/
def execFitRead (n : Nat) (s : State) : Result :=
  s.serve n (fun b => match b with | .fitRead _ => true | _ => false) (fun s m => s.serveFit m)

/-- COLLECTIVE_CONTRIBUTION (14_population R391, R392). -/
def execCollectiveContribution (n : Nat) (s : State) : Result :=
  .next (match s.pick n with
    | none => s
    | some (m, s1) =>
      match m.body.gathered, m.part with
      | some g, some p => s.gatherStep s1 n m p g
      | some _, none => s1
      | none, _ => s)

/-- ABORT_TOKEN (14_population R394). -/
def execAbortToken (n : Nat) (s : State) : Result :=
  s.serve n (fun b => match b with | .abort _ _ _ => true | _ => false) (fun s m => s.takeToken m)

/-! ### Mailboxes (08_messages R223-R226) -/

/-- Where a record of m bytes goes: a status, or the offset of the record and the pad before it (R224). -/
def mailPlace (size head used m : Nat) : Except Nat (Nat × Option (Nat × Nat)) :=
  if size = 0 then .error 3
  else if size < m then .error 4
  else
    let t := (head + used) % size
    if used = size then .error 1
    else if head ≤ t then
      (if m ≤ size - t then .ok (t, none) else if m ≤ head then .ok (0, some (t, size - t)) else .error 1)
    else if m ≤ head - t then .ok (t, none) else .error 1

/-- Write a record's payload; a poisoned doubleword stays poisoned. -/
def State.writePayload (s : State) (a : Nat) (ws : List Word) (bad : List Nat) : State :=
  (ws.zipIdx).foldl (fun q x =>
    if bad.contains x.2 then q.putPoison (a + 8 * x.2) (bytesOf x.1.toNat 8) else q.writeWord (a + 8 * x.2) x.1) s

/-- Every slot that waits on a mailbox writes the handle of the record at HEAD; one whose time ends in the cycle of the arrival, or has ended,
writes the invalid handle (R230). An arrival before the issue of cycle n is applied in n + 5. -/
def State.releaseMailWaits (s : State) (c : CoreId) (mb : Nat) : State :=
  (List.range 16).foldl (fun q k =>
    match (q.slot c k).st, (q.slot c k).wait with
    | .blocked, .mbwait n d dl r =>
      if n = mb then
        let late := match dl with | some due => decide (due ≤ (q.core c).cycle + 5) | none => false
        let p := if late then (q, badHandle 0) else q.mbPeek c k mb
        (writeReg p.1 c k d p.2).retire c k r
      else q
    | _, _ => q) s

/-- Place a message in a mailbox: the state and the status. -/
def State.placeMail (s : State) (c : CoreId) (mb : Nat) (payload : List Word) (bad : List Nat) (vtid pkg : Nat) : State × Nat :=
  let x := s.core c
  let m := 8 + 8 * payload.length
  match mailPlace (x.mbSize mb) (x.mbHead mb) (x.mbUsed mb) m with
  | .error st => (s, st)
  | .ok (t, pad) =>
    let base := scratchAddr c (x.mbBase mb)
    let arr := x.mbarr[mbIx mb]
    let s1 := match pad with
      | some (p, n) => s.writeWord (base + p) (BitVec.ofNat 64 (n % 2 ^ 16 + 2 ^ 16))
      | none => s
    let s2 := (s1.writeWord (base + t) (mailHeader payload.length arr vtid pkg)).writePayload (base + t + 8) payload bad
    let used := x.mbUsed mb + m + (match pad with | some (_, n) => n | none => 0)
    let s3 := s2.modCore c (fun x => { x.setMb mb (x.mbHead mb) used with mbarr := x.mbarr.set (mbIx mb) ((arr + 1) % 256), arrived := some x.cycle })
    (s3.releaseMailWaits c mb, 0)

/-- The bytes an arrival would write are held (R225). -/
def State.mailHeld (s : State) (c : CoreId) (mb n : Nat) : Bool :=
  let x := s.core c
  match mailPlace (x.mbSize mb) (x.mbHead mb) (x.mbUsed mb) (8 + 8 * n) with
  | .error _ => false
  | .ok (t, pad) =>
    s.isHeld (scratchAddr c (x.mbBase mb + t)) (8 + 8 * n)
      || (match pad with | some (p, len) => s.isHeld (scratchAddr c (x.mbBase mb + p)) len | none => false)

/-- Banks that an arrival needs power up (03_strands R90). -/
def State.mailPower (s : State) (c : CoreId) (mb n : Nat) : State :=
  let x := s.core c
  match mailPlace (x.mbSize mb) (x.mbHead mb) (x.mbUsed mb) (8 + 8 * n) with
  | .error _ => s
  | .ok (t, pad) =>
    let q := s.powerFor (scratchAddr c (x.mbBase mb + t)) (8 + 8 * n)
    match pad with | some (p, len) => q.powerFor (scratchAddr c (x.mbBase mb + p)) len | none => q

/-- A message arrives at a mailbox: a sender is answered with the status, and a fault record that is not accepted goes to the fault
queue (15_system R416). A memory or gateway core has no mailbox, and the status is CLOSED (R218; log 87, DESIGN CHOICE). -/
def State.takeMail (s : State) (m : Msg) (mb : Nat) (payload : List Word) (fault : Bool) (bad : List Nat) : State :=
  let q := if isCompute m.dst then s.placeMail m.dst mb payload bad m.vtid m.pkg else (s, 3)
  if fault then (if q.2 = 0 then q.1 else s.queueRecord m.part (mailHeader payload.length 0 m.vtid m.pkg) payload)
  else q.1.answerStatus m q.2

/-- MAILBOX_MESSAGE (R224, R225, R243). -/
def execMailboxMessage (n : Nat) (s : State) : Result :=
  s.serve n (fun b => match b with | .mail _ _ _ _ => true | _ => false) (fun s1 m =>
    match m.body with
    | .mail mb payload fault bad => if s1.mailHeld m.dst mb payload.length then s.mailPower m.dst mb payload.length
      else if (s1.core m.dst).arrived = some (s1.core m.dst).cycle then s
      else s1.takeMail m mb payload fault bad
    | _ => s)

/-! ### Active messages and wakes (R232, R94) -/

/-- The RCB an active message runs under: the sender's within its partition, otherwise the root (R233). -/
def State.activeRcb (s : State) (m : Msg) (rcb : Word) : Word :=
  match s.partOf m.dst 0 with
  | some p => if m.part = some p ∧ m.pkg = 0xFFF then rcb else (s.part p).root
  | none => rcb

/-- The queue of active messages decides (R232): the core, and ACCEPTED or REFUSED. -/
def Core.offer (x : Core) (a : Active) (r : SlotRange) : Core × Nat :=
  let room := decide (x.amq.length < 16)
  let queue : Core := { x with amq := x.amq ++ [a] }
  if a.isKeyed then (if room then (queue, 0) else (x, 1))
  else if x.amq.all (fun y => y.isKeyed) ∧ x.amClaim = none ∧ (x.freeSlot r x.cycle).isSome = true then ({ x with amClaim := some a }, 0)
  else if room then (queue, 0) else (x, 1)

/-- An active message arrives. A memory or gateway core has no queue for it, and the status is REFUSED (R218; log 87, DESIGN CHOICE). -/
def State.takeActive (s : State) (m : Msg) (entry arg0 arg1 rcb : Word) : State × Nat :=
  let a : Active := ⟨entry, arg0, arg1, m.vtid, m.pkg, s.activeRcb m rcb, s.tick⟩
  if isCompute m.dst then
    let q := (s.core m.dst).offer a (userSlots m.dst)
    (s.setCore m.dst q.1, q.2)
  else (s, 1)

/-- ACTIVE_MESSAGE (R232). -/
def execActiveMessage (n : Nat) (s : State) : Result :=
  s.serve n (fun b => match b with | .active _ _ _ _ => true | _ => false) (fun s m =>
    match m.body with
    | .active e a0 a1 rcb =>
      let q := s.takeActive m e a0 a1 rcb
      q.1.answerStatus m q.2
    | _ => s)

/-- WAKE_MESSAGE (03_strands R80, R81, R94, R97). -/
def execWakeMessage (n : Nat) (s : State) : Result :=
  s.serve n (fun b => match b with | .wake => true | _ => false) (fun s m => s.wakeSlot m.dst m.slot)

/-! ### Chains (08_messages R235-R240) -/

/-- The check of a pointer by the owner that forwards it (R237): a cause with TC and TL, a held core, or the physical byte. -/
inductive ChainNext where
  | fail (cause tc tl : Nat)
  | held (v : CoreId) (off : Nat)
  | at_ (pa : Nat)
deriving DecidableEq, Repr

/-- The check of R237. -/
def State.chainCheck (s : State) (owner : CoreId) (part : Option Nat) (ga : Word) : ChainNext :=
  if ga.toNat % 8 ≠ 0 then .fail 1 0 0
  else if !s.isOwnPkg (gaPkg ga) then .fail 6 0 0
  else match s.gaTarget owner part ga 8 with
    | .self off => .at_ (scratchAddr owner off)
    | .scratch h off => .at_ (scratchAddr h off)
    | .held v off => .held v off
    | .mem cls va => (match s.translateNow part cls va 0 with
                      | .ok pa => .at_ pa
                      | .fault cause lv => .fail 3 cause lv
                      | .miss => .fail 3 4 0)
    | _ => .fail 2 0 0

/-- The 32 bytes of the last step of a CHLDV leave their home (R240). -/
def chainCrosses (a : Nat) : Bool :=
  if addrClass a = 0 then decide (scratchSize (homeOf a) < scratchOff a + 32) else decide (256 < a % 256 + 32)

/-- The last step's value: one or four doublewords, each masked. -/
def chainValue (ws : List Word) (mask : Word) : Vec :=
  BitVec.ofNat 256 (ws.foldr (fun w n => (w &&& mask).toNat + 2 ^ 64 * n) 0)

/-- A step at the spill area of a core with lending faults its thread as a segment rights violation (03_strands R96). -/
def State.refuseChain (s : State) (m : Msg) (home rc rs : Nat) : State :=
  s.launch { m with src := home, dst := rc, slot := rs, held := none, post := none, body := .dataReply .refused 0 0 }

/-- Perform step k at a home, and forward the packet to the home of the next pointer, which may be this one (R235, R237, R240). -/
def State.chainSteps (s : State) (m : Msg) (rc rs : Nat) (vec : Bool) (steps : List ChainStepWord) (ga : Word) (pa k : Nat) : State :=
  let home := m.dst
  let st := steps.getD k ⟨0, 0⟩
  let last := decide (k + 1 = steps.length)
  let n := if vec && last then 4 else 1
  if s.spillRefused m pa (8 * n) then s.refuseChain m home rc rs
  else if vec && last && chainCrosses pa then s.endChain m home rc rs (ga.setWidth 256) (chstWord k 1 0 0) false
  else if last then
    s.endChain m home rc rs (chainValue (s.readWords pa n) st.mask) (chstWord k 0 0 0) (s.isPoisoned pa (8 * n))
  else if s.isPoisoned pa 8 then s.endChain m home rc rs (ga.setWidth 256) (chstWord k 5 0 0) false
  else
    let next := (s.readWord pa &&& st.mask) + (steps.getD (k + 1) ⟨0, 0⟩).off
    match s.chainCheck home m.part next with
    | .fail cause tc tl => s.endChain m home rc rs (next.setWidth 256) (chstWord (k + 1) cause tc tl) false
    | .held v off =>
      s.launch { m with src := home, dst := overflowCore (m.part.getD 0), held := some v, via := none,
                        body := .chain next (scratchAddr v off) (k + 1) steps vec rc rs }
    | .at_ a => s.launch { m with src := home, dst := homeOf a, via := none, body := .chain next a (k + 1) steps vec rc rs }

/-- CHAIN_STEP (R235, R237, R240). -/
def execChainStep (n : Nat) (s : State) : Result :=
  s.serve n (fun b => match b with | .chain _ _ _ _ _ _ _ => true | _ => false) (fun s m =>
    match m.body with
    | .chain ga pa k steps vec rc rs => s.chainSteps m rc rs vec steps ga pa k
    | _ => s)

/-! ### Queues, chunk counters and keys (13_tasks R361-R369) -/

/-- Give an entry of a queue to its oldest waiter, or append it. -/
def State.pushQueue (s : State) (p q : Nat) (h : HwQueue) (x : Word) : State :=
  match h.waiters with
  | w :: rest =>
    (s.modPart p (fun y => { y with queues := y.queues.put q { h with waiters := rest } })).launch
      ⟨queueCore q, w.core, w.slot, w.gen, some p, none, 0, 0, 0, 0xFFF, none, false, none, .dataReply .done (x.setWidth 256) 0⟩
  | [] => s.modPart p (fun y => { y with queues := y.queues.put q { h with entries := h.entries ++ [x] } })

/-- Waiter records in use in a carafe, one for each stack, of every partition (01_machine R13, R368). -/
def State.carafeWaiters (s : State) (home : CoreId) : Nat :=
  (s.parts.flatMap (fun p => p.2.queues.filter (fun q => dieOf (queueCore q.1) == dieOf home))).foldl (fun n q => n + q.2.waiters.length) 0

/-- A chunk counter takes or is initialised (R369): the counter and d. -/
def Chunk.take (c : Chunk) : Chunk × Word :=
  let r := (c.end_ - c.next)
  if r = 0 then (c, 0)
  else
    let divs := max c.divs 1
    let size := min (min r 0xFFFFFF) (max (max c.minch 1) ((r + divs - 1) / divs))
    ({ c with next := c.next + size }, BitVec.ofNat 64 (size * 2 ^ 40 + c.next))

/-- Initialise a counter. -/
def Chunk.init (c : Chunk) (x : Word) : Chunk × Word :=
  ({ next := 0, end_ := bf x 39 0, minch := max (bf x 51 40) 1, divs := max (bf x 63 52) 1 }, BitVec.ofNat 64 (c.end_ - c.next))

/-- The word of QPOP and QPOPW on a closed queue (R368). -/
def closedWord : Word := 0x8000000000000001#64

/-- INFO of a record of class "queue refused" (15_system R415). -/
def queueInfo (q st : Nat) : Word := BitVec.ofNat 64 (q % 1024 + st % 256 * 2 ^ 16)

/-- An operation at the carafe (R366-R369). -/
def State.queueAct (s : State) (m : Msg) (op q : Nat) (x : Word) : State :=
  let p := m.part.getD 0
  let h := (s.part p).queues.getD q HwQueue.reset
  let ch := (s.part p).chunks.getD q Chunk.reset
  let reply := fun (s : State) (v : Word) => s.answerWith m .done (v.setWidth 256)
  match op with
  | 4 =>
    let st := if h.capacity = 0 then 3 else if h.waiters.isEmpty ∧ h.capacity ≤ h.entries.length then 1 else 0
    let s1 := if st = 0 then s.pushQueue p q h x else s
    s1.answer m (if m.post.isNone ∨ st = 0 then .done else if st = 1 then .queueFull else .queueClosed) (BitVec.ofNat 256 st) 0 0
      (queueInfo q st)
  | 5 | 6 =>
    if h.capacity = 0 then reply s closedWord
    else match h.entries with
      | v :: rest => reply (s.modPart p (fun y => { y with queues := y.queues.put q { h with entries := rest } })) v
      | [] =>
        if op = 5 then reply s emptyWord
        else if s.carafeWaiters m.dst < 1024 then
          s.modPart p (fun y => { y with queues := y.queues.put q { h with waiters := h.waiters ++ [⟨m.src, m.slot, m.gen⟩] } })
        else s.answerWith m .retry 0
  | 7 => reply (s.modPart p (fun y => { y with chunks := y.chunks.put q ch.take.1 })) ch.take.2
  | 8 => reply (s.modPart p (fun y => { y with chunks := y.chunks.put q (ch.init x).1 })) (ch.init x).2
  | _ =>
    let mine := fun (w : QWaiter) => w.core == m.src && w.slot == m.slot && w.gen == m.gen
    if h.waiters.any mine then
      reply (s.modPart p (fun y => { y with queues := y.queues.put q { h with waiters := h.waiters.filter (fun w => !mine w) } })) emptyWord
    else s

/-- CARAFE_QUEUE_OPERATION (R366-R369). -/
def execCarafeQueueOperation (n : Nat) (s : State) : Result :=
  s.serve n (fun b => match b with | .queue _ _ _ => true | _ => false) (fun s m =>
    match m.body with
    | .queue op q x => s.queueAct m op q x
    | _ => s)

/-- Key records in use in a slice, one for each stack, of every partition, and their waiters (R361). -/
def State.sliceKeys (s : State) (home : CoreId) : List KeyRec :=
  s.parts.flatMap (fun p => p.2.keys.filter (fun r => dieOf (keySlice r.ns r.key) == dieOf home))

/-- A grant leaves a slice. -/
def State.sendGrant (s : State) (part : Option Nat) (home core stage : Nat) : State :=
  s.launch ⟨home, core, 0, 0, part, none, 0x7FFFF, 0, ones, 0xFFF, none, true, none, .keyGrant stage⟩

/-- The staging entry sends its request again 256 fc later (R363). -/
def State.retryKey (s : State) (core stage : Nat) : State :=
  s.modCore core (fun x => { x with staging := x.staging.map (fun z =>
    if z.id = stage then { z with asked := false, retryAt := some (s.fc + 256) } else z) })

/-- KEY_REQUEST (R363): granted at once, queued behind the holder, or answered `retry`. -/
def execKeyRequest (n : Nat) (s : State) : Result :=
  s.serve n (fun b => match b with | .keyRequest _ _ _ => true | _ => false) (fun s m =>
    match m.body, m.part with
    | .keyRequest ns key stage, some p =>
      let here := fun (r : KeyRec) => r.ns == ns && r.key == key
      let used := s.sliceKeys m.dst
      if (s.part p).keys.any here then
        if (used.foldl (fun n r => n + r.waiters.length) 0) < 16384 then
          s.modPart p (fun y => { y with keys := y.keys.map (fun r => if here r then { r with waiters := r.waiters ++ [(m.src, stage)] } else r) })
        else s.retryKey m.src stage
      else if used.length < 4096 then
        (s.modPart p (fun y => { y with keys := y.keys ++ [⟨ns, key, []⟩] })).sendGrant m.part m.dst m.src stage
      else s.retryKey m.src stage
    | _, _ => s)

/-- KEY_RELEASE (R364): the key passes to its oldest waiter in the same step, or becomes free. -/
def execKeyRelease (n : Nat) (s : State) : Result :=
  s.serve n (fun b => match b with | .keyRelease _ _ => true | _ => false) (fun s m =>
    match m.body, m.part with
    | .keyRelease ns key, some p =>
      let here := fun (r : KeyRec) => r.ns == ns && r.key == key
      (match (s.part p).keys.find? here with
       | none => s
       | some r =>
         match r.waiters with
         | [] => s.modPart p (fun y => { y with keys := y.keys.filter (fun r => !here r) })
         | (core, stage) :: rest =>
           (s.modPart p (fun y => { y with keys := y.keys.map (fun r => if here r then { r with waiters := rest } else r) })).sendGrant
             m.part m.dst core stage)
    | _, _ => s)

/-- KEY_GRANT (R362): the staging entry holds the key and asks for the next; a grant for an entry that is gone is released. -/
def execKeyGrant (n : Nat) (s : State) : Result :=
  s.serve n (fun b => match b with | .keyGrant _ => true | _ => false) (fun s m =>
    match m.body with
    | .keyGrant stage =>
      (match (s.core m.dst).staging.find? (fun z => z.id == stage) with
       | some z => s.askKey m.dst { z with granted := z.granted + 1 }
       | none => s)
    | _ => s)

/-- KEY_RETRY (R363). -/
def execKeyRetry (c e : Nat) (s : State) : Result :=
  .next (match (s.core c).staging[e]? with
    | some z => (match z.retryAt with
                 | some due => if due ≤ s.fc then s.askKey c z else s
                 | none => s)
    | none => s)

/-! ### Replies (07_access R191, R194; 03_strands R89) -/

/-- The wait of a thread for its posted operations is over: what it held back leaves, translated as it leaves (R202), or is performed (R196,
R197; 08_messages R231; 14_population R391). -/
def State.settleRelease (s : State) (c : CoreId) (k : Nat) : State :=
  let t := s.slot c k
  match t.st, t.wait with
  | .blocked, .release scope m use r =>
    (match s.homeNow m.part m.held m.dst m.body with
     | none =>
       if t.released scope c then s.outsideFault c k (s.bodyGa m.part ((m.held.map coreName).getD m.dst) m.body) else s
     | some z =>
       let sc := match scope, m.held with
         | some _, some _ => some (releaseScope c z.1 z.2.1)
         | sc, _ => sc
       if t.released sc c then
         (match use with
          | some u => s.request c k z.1 z.2.1 z.2.2 u r
          | none => (s.post c k z.1 z.2.1 z.2.2).retire c k r)
       else s)
  | .blocked, .releaseStore a n v r =>
    if t.posted.isEmpty then (if s.isHeld a n then s.holdAccessAt c k a n none (v.setWidth 256) r else (s.performWrite a (bytesOf v.toNat n)).retire c k r) else s
  | .blocked, .releaseLocal scope b d r =>
    if t.released scope c then (match b with | .sync op a x => s.localSync false c k op a x d r | _ => s) else s
  | .blocked, .releaseBar obj d r => if t.posted.isEmpty then s.arrive false c k obj d r else s
  | .blocked, .releaseColl m =>
    if t.posted.isEmpty then
      (match m.body with
       | .contribution id _ _ _ _ _ _ _ =>
         ((s.modCore c (fun x => x.setColl id { x.coll id with seq := (x.coll id).seq + 1 })).launch m).modSlot c k
           (fun t => { t with st := .run, wait := .none })
       | _ => s)
    else s
  | .blocked, .fence scope r => if t.released (some scope) c then s.retire c k r else s
  | _, _ => s

/-- The record of a posted operation that was not done (R191, R246, R256, R367). -/
def ackFault (st : Status) (addr info : Word) : Option FaultInfo :=
  match st with
  | .absent => some ⟨0x16, 0, addr, 0⟩
  | .refused => some ⟨0x12, 8, addr, 0⟩
  | .poisoned => some (poisonedUpdate addr)
  | .logRefused => some (logRefusedInfo addr)
  | .foreign => some ⟨0x03, 3, addr, addr⟩
  | .queueFull => some ⟨0x3C, 0, 0, info⟩
  | .queueClosed => some ⟨0x3C, 0, 0, info⟩
  | _ => none

/-- Key releases that wait for acknowledgements: an entry is gone, and a release with none left is sent (10_ordering R284). -/
def State.settleOwed (s : State) (c : CoreId) (k entry : Nat) : State :=
  let less := fun (o : OwedRelease) => if o.slot = k then { o with ids := o.ids.filter (fun i => i != entry) } else o
  let owed := (s.core c).owed.map less
  (owed.filter (fun o => o.ids.isEmpty)).foldl (fun q o => o.packets.foldl (fun q m => q.launch m) q)
    (s.modCore c (fun x => { x with owed := owed.filter (fun o => !o.ids.isEmpty) }))

/-- An acknowledgement frees its entry: of the context in the slot, or of its spilled owner. -/
def Slot.freePosted (t : Slot) (entry : Nat) : Slot :=
  { t with posted := t.posted.filter (fun e => e.id != entry),
           spilled := t.spilled.map (fun o => { o with posted := o.posted.filter (fun e => e.id != entry) }) }

/-- A response with generation g is for the context in the slot or its spilled owner; any other is discarded (03_strands R89). -/
def Slot.expects (t : Slot) (g : Nat) : Bool := t.accepts g || (match t.spilled with | some o => o.gen == g | none => false)

/-- ACKNOWLEDGEMENT (R191, R194): the entry is freed, a record is sent where the operation was not done, and waits for the table go
on. -/
def State.takeAck (s : State) (m : Msg) (st : Status) (entry : Nat) (addr info : Word) : State :=
  let s1 := s.modSlot m.dst m.slot (fun t => (t.subOut m.gen).freePosted entry)
  let s2 := match ackFault st addr info with
    | some f => if (s.slot m.dst m.slot).expects m.gen then s1.sendRecord m.dst m.who f 0 false else s1
    | none => s1
  let s3 := s2.settleOwed m.dst m.slot entry
  let s4 := s3.modSlot m.dst m.slot (fun t =>
    match t.st, t.wait with
    | .blocked, .reissue .postedFull => if t.postRoom then { t with st := .run, wait := .none } else t
    | _, _ => t)
  s4.settleRelease m.dst m.slot

/-- Deliver packet n if it is a reply of the wanted kind. A reply that cannot reach its core any more carries an absent status instead;
one for a core whose bulkhead is parked is dropped. -/
def State.serveReply (s : State) (n : Nat) (want : Body → Bool) (lost : Msg → Msg) (act : State → Msg → State) : Result :=
  .next (match s.pick n with
    | none => s
    | some (m, s1) =>
      if want m.body = false then s
      else if s.gateAdmits m = false then s1
      else act s1 (if s.delivers m.src m.dst then m else lost m))

/-- ACKNOWLEDGEMENT. -/
def execAcknowledgement (n : Nat) (s : State) : Result :=
  s.serveReply n (fun b => match b with | .ack _ _ _ _ => true | _ => false)
    (fun m => match m.body with | .ack _ e a i => { m with body := .ack .absent e a i } | _ => m)
    (fun s m => match m.body with | .ack st e a i => s.takeAck m st e a i | _ => s)

/-- A QPOPW's wait was withdrawn by pre-emption and not by its deadline: with no entry in the answer it issues again (13_tasks R371, 10_ordering R285). -/
def State.withdrawnByHalt (s : State) (c : CoreId) (deadline : Option Nat) (w : Bool) : Bool :=
  w && (s.core c).halted && !((deadline.map (fun due => decide (due ≤ (s.core c).cycle))).getD false)

/-- What a data reply does to a thread that waits for it. -/
def State.takeReply (s : State) (c : CoreId) (k : Nat) (st : Status) (v : Vec) (f : BitVec 6) : State :=
  match (s.slot c k).wait with
  | .reply use r req tgt =>
    let ga := s.bodyGa (s.partOf c k) tgt req
    (match st with
     | .done => (s.deliver false c k use v f).retire c k r
     | .collective => ((s.deliver false c k use v f).acquire c k).retire c k r
     | .poisoned => s.contain c k (poisonFault ga)
     | .retry => s.modSlot c k (fun t => { t with wait := .retry use r req tgt (s.fc + 256) })
     | .refused => (s.takeFault c k ⟨0x12, 8, ga, 0⟩).meetWake c k
     | .foreign => (s.takeFault c k ⟨0x03, 3, ga, ga⟩).meetWake c k
     | _ => (s.takeFault c k ⟨0x16, 0, ga, 0⟩).meetWake c k)
  | .qpopw d dl q tgt w _ r =>
    (match st with
     | .done =>
       if v.setWidth 64 = emptyWord ∧ s.withdrawnByHalt c dl w = true then s.modSlot c k (fun t => { t with st := .run, wait := .none })
       else (writeReg s c k d (v.setWidth 64)).retire c k r
     | .retry => if s.withdrawnByHalt c dl w then s.modSlot c k (fun t => { t with st := .run, wait := .none })
                 else if w then (writeReg s c k d emptyWord).retire c k r
                 else s.modSlot c k (fun t => { t with wait := .qpopw d dl q tgt w (some (s.fc + 256)) r })
     | _ => (s.takeFault c k ⟨0x16, 0, 0, 0⟩).meetWake c k)
  | .abortWait d att left r =>
    if left ≤ 1 then (writeReg s c k d (att.setWidth 64)).retire c k r
    else s.modSlot c k (fun t => { t with wait := .abortWait d att (left - 1) r })
  | _ => s

/-- DATA_REPLY (R191): the reply counts against its generation, and acts only for the context that waits for it. -/
def execDataReply (n : Nat) (s : State) : Result :=
  s.serveReply n (fun b => match b with | .dataReply _ _ _ | .sample _ _ _ => true | _ => false)
    (fun m => match m.body with
      | .dataReply _ _ _ => { m with body := .dataReply .absent 0 0 }
      | .sample i _ req => { m with body := .sample i none req }
      | _ => m)
    (fun s1 m => match m.body with
      | .dataReply st v f =>
        let s2 := s1.modSlot m.dst m.slot (fun t => t.subOut m.gen)
        if (s1.slot m.dst m.slot).accepts m.gen then s2.takeReply m.dst m.slot st v f else s2
      | .sample i v req => if s1.sampleHeld m req then s.powerSample m req else s1.takeSample m req i v
      | _ => s1)

/-- The status of a record that the host bridge forwarded reaches its window (16_package R452); such packets name slots from 64 on. -/
def State.hostStatus (s : State) (n st : Nat) : State :=
  let f := s.pkg.vfs.getD (n / 64 - 1) VFun.reset
  { s with pkg := { s.pkg with vfs := s.pkg.vfs.put (n / 64 - 1) { f with status := f.status.put (n % 64) (BitVec.ofNat 8 (128 + st % 8)) } } }

/-- MESSAGE_STATUS (08_messages R218). -/
def execMessageStatus (n : Nat) (s : State) : Result :=
  s.serveReply n (fun b => match b with | .msgStatus _ => true | _ => false)
    (fun m => { m with body := .msgStatus 2 })
    (fun s m => match m.body with
      | .msgStatus st =>
        if 64 ≤ m.slot then s.hostStatus m.slot st else
        let t := s.slot m.dst m.slot
        let s1 := s.modSlot m.dst m.slot (fun t => t.subOut m.gen)
        if t.accepts m.gen then
          (match t.wait with
           | .reply use r _ _ => (s1.deliver false m.dst m.slot use (BitVec.ofNat 256 st) 0).retire m.dst m.slot r
           | _ => s1)
        else s1
      | _ => s)

/-- CHAIN_REPLY (R235, R239): d and CHST are written and the chain retires; poison contains the thread. -/
def execChainReply (n : Nat) (s : State) : Result :=
  s.serveReply n (fun b => match b with | .chainReply _ _ _ => true | _ => false)
    (fun m => match m.body with | .chainReply v chst _ => { m with body := .chainReply v (chstWord (bf chst 2 0) 4 0 0) false } | _ => m)
    (fun s m => match m.body with
      | .chainReply v chst poison =>
        let c := m.dst
        let k := m.slot
        let t := s.slot c k
        let s1 := s.modSlot c k (fun t => t.subOut m.gen)
        if t.accepts m.gen then
          (match t.wait with
           | .reply use r req tgt =>
             if poison then s1.contain c k (poisonFault (s.bodyGa (s.partOf c k) tgt req))
             else ((s1.deliver false c k use v 0).modSlot c k (fun t => { t with chst := chst })).retire c k r
           | _ => s1)
        else s1
      | _ => s)

end Sys2Proof.Machine
end

