-- ==== Sys2Proof/Machine/Fetch.lean ====
section
/-! DEFINITION. Fetching an instruction (02_encoding R36-R39, R50-R52; 03_strands R70): the parcels at the pc, the checks of each, and
the classes that exist only on certain cores (R51). -/

namespace Sys2Proof.Machine

/-- What a fetch of one parcel meets. -/
inductive Parcel where
  | fault (cls : Nat)
  | at_ (pa : Nat)
deriving DecidableEq, Repr

/-- The segment checks of a parcel: right X, and a place in the core's own scratchpad (R38, R70). -/
def State.parcelAt (s : State) (c : CoreId) (k : Nat) (pc : Word) : Parcel :=
  match s.checkAccess c k pc ⟨2, 2, [rightX], false, false, false, 2⟩ with
  | .error f => .fault f.cls
  | .ok (.self off) => .at_ (scratchAddr c off)
  | .ok _ => .fault 0x13

/-- The result of a fetch: an instruction to execute, or the state after a fault, a hold or poison. -/
inductive Fetched where
  | run (i : Instr)
  | stop (s : State)

/-- An instruction exists on the kind of core that fetched it (R51). -/
def Instr.existsOn (i : Instr) (c : CoreId) : Bool :=
  match i with
  | .mcrd _ _ | .mcwr _ _ | .pusht _ _ => isMemoryCore c
  | .mma _ _ _ _ | .mmag _ _ _ _ | .mxlda _ _ _ | .mxst _ _ _ | .mxzero _ _ | .mxepi _ => isCompute c
  | .fitset _ _ | .fitget _ _ | .poprank _ _ | .blend _ _ | .blendx _ _ | .linrd _ _ _ => isCompute c
  | _ => true

/-- The bytes of an instruction decoded on a core; anything else is the illegal instruction with its parcels (R50, R52). -/
def decodeOn (c : CoreId) (p0 p1 : Nat) (two : Bool) : Instr :=
  match decode (parcelBytes p0 ++ (if two then parcelBytes p1 else [])) with
  | .ok (i, _) => if Instr.existsOn i c then i else .illegalInstruction (BitVec.ofNat 16 p0) (BitVec.ofNat 16 p1) two
  | .error _ => .illegalInstruction (BitVec.ofNat 16 p0) (BitVec.ofNat 16 p1) two

/-- A parcel in memory. -/
def State.parcel (s : State) (pa : Nat) : Nat := s.readNat pa 2

/-- A bank without power holds a fetch; a scoreboard entry does not (07_access R199). -/
def State.fetchHeld (s : State) (pa : Nat) : Bool := (s.core (homeOf pa)).bankDown (scratchOff pa) 2

/-- A fetch fault: the record carries the failing check's class, and the pc of the first parcel. -/
def State.fetchFault (s : State) (c : CoreId) (k cls : Nat) : State :=
  s.takeFault c k ⟨0x02, cls, (s.slot c k).pc, 0⟩

/-- Fetch the issuing thread's next instruction. -/
def State.fetch (s : State) : Fetched :=
  let c := s.curCore
  let k := s.curSlot
  let pc := s.cur.pc
  match s.parcelAt c k pc with
  | .fault cls => .stop (s.fetchFault c k cls)
  | .at_ a0 =>
    if s.fetchHeld a0 then .stop (s.holdLocal a0 2)
    else
      let p0 := s.parcel a0
      if isLong p0 then
        (match s.parcelAt c k (addOffset pc 2) with
         | .fault cls => .stop (s.fetchFault c k cls)
         | .at_ a1 =>
           if s.fetchHeld a1 then .stop (s.holdLocal a1 2)
           else if s.isPoisoned a0 2 || s.isPoisoned a1 2 then .stop (s.contain c k (poisonFault (s.cur.segGa pc)))
           else .run (decodeOn c p0 (s.parcel a1) true))
      else if s.isPoisoned a0 2 then .stop (s.contain c k (poisonFault (s.cur.segGa pc)))
      else .run (decodeOn c p0 0 false)

end Sys2Proof.Machine
end

