-- ==== Sys2Proof/Machine/Handlers.lean ====
section
/-! DEFINITION. What handlers and the carafe do: class-3 control space and SLOTCTL (15_system R412, R413), the overflow queue (07_access
R202, 08_messages R219), the fault queue (15_system R416) and page walks (07_access R206-R212). -/

namespace Sys2Proof.Machine

/-! ### SLOTCTL (R413) -/

/-- The length of the instruction at a parked thread's pc; none where its first parcel cannot be fetched (R36, R38). -/
def State.lengthAt (s : State) (c : CoreId) (k : Nat) : Option Nat :=
  match s.parcelAt c k (s.slot c k).pc with
  | .fault _ => none
  | .at_ pa => some (if isLong (s.parcel pa) then 4 else 2)

/-- RESUME: as a wake. -/
def State.slotResume (s : State) (c : CoreId) (k : Nat) : Option State :=
  if (s.slot c k).st = .parked then some (s.wakeSlot c k) else none

/-- SKIP: the pc passes the instruction, then as RESUME. -/
def State.slotSkip (s : State) (c : CoreId) (k : Nat) : Option State :=
  if (s.slot c k).st = .parked then
    (s.lengthAt c k).map (fun n => (s.modSlot c k (fun t => { t with pc := addOffset t.pc (BitVec.ofNat 64 n) })).wakeSlot c k)
  else none

/-- KILL: the context ends as with CLEND. -/
def State.slotKill (s : State) (c : CoreId) (k : Nat) : Option State :=
  match (s.slot c k).st with
  | .parked | .contained | .lost => some (s.endContext c k none)
  | _ => none

/-- RELEASE: the slot returns to RUN; a slot that owes a generation advance is not released before it has made it (03_strands R89). -/
def State.slotRelease (s : State) (c : CoreId) (k : Nat) : Option State :=
  match (s.slot c k).st with
  | .contained | .lost => some (if (s.slot c k).owes then s else s.modSlot c k (fun t => { t with st := .run, park := none, wait := .none }))
  | _ => none

/-- A SLOTCTL command; none where the slot's state does not allow it. -/
def State.slotCommand (s : State) (c : CoreId) (k : Nat) (v : Word) : Option State :=
  match v.toNat with
  | 1 => s.slotResume c k
  | 2 => s.slotSkip c k
  | 3 => s.slotKill c k
  | 4 => s.slotRelease c k
  | _ => none

/-- SLOTCTL_RESUME. -/
def execSlotctlResume (c k : Nat) (s : State) : Result := .next ((s.slotResume c k).getD s)

/-- SKIP. -/
def execSkip (c k : Nat) (s : State) : Result := .next ((s.slotSkip c k).getD s)

/-- KILL. -/
def execKill (c k : Nat) (s : State) : Result := .next ((s.slotKill c k).getD s)

/-- RELEASE. -/
def execRelease (c k : Nat) (s : State) : Result := .next ((s.slotRelease c k).getD s)

/-! ### Class-3 control space (R412) -/

/-- What an offset of control space names. -/
inductive ControlPlace where
  | register (n : Nat)
  | record (k i : Nat)
  | slotctl (k : Nat)
  | dirty (i : Nat)
deriving DecidableEq, Repr

/-- The place of a listed offset. -/
def controlPlace (off : Nat) : ControlPlace :=
  if off < 0x2000 then .register (off / 8)
  else if off < 0x18000 then
    let k := (off - 0x10000) / 0x800
    let o := off % 0x800
    if o < 0x400 then .record k (o / 8) else .slotctl k
  else .dirty ((off - 0x20000) / 8)

/-- A read of control space. Slot and package registers, and numbers not allocated on the core, read 0. -/
def State.controlRead (s : State) (c : CoreId) (off : Nat) : Word :=
  match controlPlace off with
  | .register n =>
    if coreRegister n then s.readCoreCtl c n
    else if partRegister n then (match s.corePart c with | some p => (s.part p).readCtl n | none => 0)
    else 0
  | .record k i => (s.slot c k).record.getD i 0
  | .slotctl k => (s.slot c k).statew
  | .dirty i => ((s.core c).dirty >>> (64 * i)).setWidth 64

/-- A slot's context record may be written (R413). -/
def Slot.recordOpen (t : Slot) : Bool :=
  match t.st with
  | .parked | .contained | .lost => true
  | _ => false

/-- A write to control space: the state, and whether a record of class "control register" with DETAIL 1 is due. -/
def State.controlWrite (s : State) (c : CoreId) (off : Nat) (v : Word) : State × Bool :=
  match controlPlace off with
  | .register n => (if coreRegister n then s.writeCoreCtl 1 c n v else s, false)
  | .record k i =>
    if (s.slot c k).recordOpen then (s.modSlot c k (fun t => t.load (t.record.set i v) t.xlat), false) else (s, true)
  | .slotctl k => (match s.slotCommand c k v with | some s1 => (s1, false) | none => (s, true))
  | .dirty _ => (s, false)

/-- A write of RELEASE that waits for the advance the slot owes. -/
def State.controlHeld (s : State) (m : Msg) : Bool :=
  match m.body with
  | .control true off v _ =>
    (match controlPlace off with
     | .slotctl k => v == 4 && (s.slot m.dst k).owes && ((s.slot m.dst k).st == .contained || (s.slot m.dst k).st == .lost)
     | _ => false)
  | _ => false

/-- A class-3 access at its core: a level-1 thread of another partition is refused. -/
def State.takeControl (s : State) (m : Msg) (write : Bool) (off : Nat) (v : Word) (level : Nat) : State :=
  if level ≠ 2 ∧ (m.part = none ∨ m.part ≠ s.corePart m.dst) then s.answer m .foreign 0 0 (s.msgGa m) 0
  else if write then
    let q := s.controlWrite m.dst off v
    let s1 := if q.2 then q.1.sendRecord m.dst m.who ⟨0x04, 1, s.msgGa m, 0⟩ 0 true else q.1
    s1.answer m .done 0 0 (s.msgGa m) 0
  else s.answerWith m .done ((s.controlRead m.dst off).setWidth 256)

/-- CONTROL_SPACE_ACCESS (R412). -/
def execControlSpaceAccess (n : Nat) (s : State) : Result :=
  s.serve n (fun b => match b with | .control _ _ _ _ => true | _ => false) (fun s1 m =>
    match m.body with
    | .control write off v level => if s.controlHeld m then s else s1.takeControl m write off v level
    | _ => s)

/-! ### The overflow queue (07_access R202, 08_messages R219) -/

/-- HELD_MESSAGE_APPEND: a message for a held core joins the queue, at most 65,536; SEND and ACTM are answered HELD. -/
def execHeldMessageAppend (n : Nat) (s : State) : Result :=
  .next (match s.net[n]? with
    | none => s
    | some m =>
      match m.held, m.part with
      | some _, some p =>
        if (s.net.take n).any (fun y => y.src == m.src && y.dst == m.dst) then s
        else
          let s1 := { s with net := s.net.eraseIdx n }
          if s.offRoute m then s1.answerAbsent m
          else if 65536 ≤ (s.part p).overflow.length then s
          else
            let s2 := s1.modPart p (fun x => { x with overflow := x.overflow ++ [m] })
            (match m.body with
             | .mail _ _ false _ => s2.answerStatus m 5
             | .active _ _ _ _ => s2.answerStatus m 5
             | _ => s2)
      | _, _ => s)

/-- The physical core of a virtual core whose entry is mapped. -/
def Part.mappedCore (p : Part) (v : CoreId) : Option CoreId :=
  if entryState (p.entry (vbhOf v)) = 1 then (match coreXlate p v with | .at_ c => some c | _ => none) else none

/-- Position of the oldest message for a virtual bulkhead. -/
def Part.oldestFor (p : Part) (vbh : Nat) : Option Nat := p.overflow.findIdx? (fun m => m.isFor vbh)

/-- A refused message that waits to be retried holds back every later message of the queue (R219). -/
def Part.retryAhead (p : Part) (i vbh : Nat) : Bool :=
  p.retryAt.any (fun e => e.1 != vbh && (match p.oldestFor e.1 with | some j => decide (j < i) | none => false))

/-- The record of a message dropped at its delivery (R219); its address doubleword is 0, since no rule names an address for its class (log 13,
DESIGN CHOICE). -/
def State.dropHeld (s : State) (p : Nat) (m : Msg) (st : Nat) : State :=
  s.sendRecord (overflowCore p) m.who ⟨0x24, 0, 0, BitVec.ofNat 64 st⟩ 0 true

/-- Deliver the oldest message for a virtual bulkhead (R202, R219): SEND and ACTM have been answered and are placed or refused here; any
other message goes on to its physical core. Earlier messages of its source to that core arrive first (R23). -/
def State.deliverHeld (s : State) (p vbh : Nat) : State :=
  let x := s.part p
  match x.oldestFor vbh with
  | none => s
  | some i =>
    match x.overflow[i]? with
    | none => s
    | some m =>
      match m.held with
      | none => s
      | some v =>
        match x.mappedCore v with
        | none => s
        | some h =>
          if x.retryAhead i vbh || s.behindPush { m with dst := h } || s.net.any (fun y => y.src == m.src && y.dst == h) then s
          else
            let gone := s.modPart p (fun y => { y with overflow := y.overflow.eraseIdx i, retryAt := y.retryAt.erase vbh })
            let again := s.modPart p (fun y => { y with retryAt := y.retryAt.put vbh (s.fc + 256) })
            let here := { m with src := overflowCore p, dst := h, held := none }
            match m.body with
            | .mail mb payload false bad =>
              if s.isAbsent here then gone.dropHeld p m 2
              else if s.isStopped h then s
              else if s.mailHeld h mb payload.length then s.mailPower h mb payload.length
              else if (s.core h).arrived = some (s.core h).cycle then s
              else
                let q := gone.placeMail h mb payload bad m.vtid m.pkg
                if q.2 = 0 then q.1 else if q.2 = 1 then again else gone.dropHeld p m q.2
            | .active e a0 a1 rcb =>
              if s.isAbsent here then gone.dropHeld p m 2
              else if s.isStopped h then s
              else
                let q := gone.takeActive here e a0 a1 rcb
                if q.2 = 0 then q.1 else again
            | b => gone.launch { m with dst := h, held := none, via := some (overflowCore p), body := b.rehome h }

/-- OVERFLOW_QUEUE_DELIVERY (R202): the next message for a mapped virtual bulkhead. -/
def execOverflowQueueDelivery (p vbh : Nat) (s : State) : Result :=
  .next (if ((s.part p).retryAt.find vbh).isSome then s else s.deliverHeld p vbh)

/-- OVERFLOW_RETRY (R219): a message refused at its delivery is tried again 256 fc later. -/
def execOverflowRetry (p vbh : Nat) (s : State) : Result :=
  .next (match (s.part p).retryAt.find vbh with
    | some due => if due ≤ s.fc then s.deliverHeld p vbh else s
    | none => s)

/-! ### The fault queue (R416) -/

/-- Entries of the fault queue; 0 when it is closed. -/
def Part.fqEntries (p : Part) : Nat := let n := bf p.fqsize 4 0
                                       if 6 ≤ n ∧ n ≤ 20 then 2 ^ n else 0

/-- FQDROP advances. -/
def Part.dropRecord (p : Part) : Part := { p with fqdrop := BitVec.ofNat 64 ((bf p.fqdrop 31 0 + 1) % 2 ^ 32) }

/-- Append a record to the fault queue of its partition, or drop it (R416). -/
def State.appendRecord (s : State) (p : Nat) (f : FaultRec) : State :=
  let x := s.part p
  let head := bf x.fqhead 47 0
  let used := (head + 2 ^ 48 - bf x.fqtail 47 0) % 2 ^ 48
  let drop := s.modPart p Part.dropRecord
  if x.fqEntries = 0 ∨ used = x.fqEntries then drop
  else
    let va := bf x.fqbase 47 6 * 64 + 64 * (head % x.fqEntries)
    match s.translateNow (some p) 1 (BitVec.ofNat 48 va) 1 with
    | .ok pa =>
      if s.coreAbsent (homeOf pa) then drop
      else ((s.writeWords pa (f.header :: f.payload)).carafeAccess pa).modPart p (fun y => { y with fqhead := BitVec.ofNat 64 ((head + 1) % 2 ^ 48) })
    | _ => drop

/-- Two records are of one partition and one agent. -/
def FaultRec.sameAgent (x y : FaultRec) : Bool := x.part == y.part && bf (x.payload.getD 5 0) 50 32 == bf (y.payload.getD 5 0) 50 32

/-- FAULT_QUEUE_APPEND (R416): records of one agent in their order; one of no partition has no queue and is dropped. -/
def execFaultQueueAppend (n : Nat) (s : State) : Result :=
  .next (match s.faultRecs[n]? with
    | none => s
    | some f =>
      if (s.faultRecs.take n).any (fun g => g.sameAgent f) then s
      else
        let s1 := { s with faultRecs := s.faultRecs.eraseIdx n }
        match f.part with
        | some p => s1.appendRecord p f
        | none => s1)

/-! ### Page walks (R206-R212) -/

/-- The address of a request, and whether its thread still waits for it. -/
def WalkReq.va (r : WalkReq) : BitVec 48 := BitVec.ofNat 48 r.ga.toNat
def State.reqWaits (s : State) (r : WalkReq) : Bool :=
  let t := s.slot r.core r.slot
  t.st == .blocked && t.wait == .reissue .walk && t.gen == r.gen

/-- The set of the TLB that a leaf belongs to: which pages share one of the 32 sets, the manual does not say (R207; log 10, DESIGN CHOICE). -/
def TlbEntry.set (e : TlbEntry) : Nat := Config.tlbSet e.cls e.big (if e.big then e.vbase / 32 else e.vbase) % 32

/-- A leaf covers the byte of a GA. -/
def TlbEntry.coversGa (e : TlbEntry) (ga : Word) : Bool := e.covers (gaClass ga) (BitVec.ofNat 48 ga.toNat)

/-- A wait is that of a chained load whose first pointer a leaf translated (R208). -/
def TlbEntry.pinnedBy (e : TlbEntry) (w : Wait) : Bool :=
  match w with
  | .reply _ _ (.chain ga _ _ _ _ _ _) _ => e.coversGa ga
  | _ => false

/-- A command or a chained load of the cluster's threads is in progress and pins a leaf (R208). -/
def State.pinsLeaf (s : State) (cl : Nat) (e : TlbEntry) : Bool :=
  s.engine.any (fun q => q.2.phase != .complete && q.2.phase != .saved
      && (s.commandGranules { q.2 with members := q.2.live.filter (fun m => clusterOf m.core == cl) }).any (fun g => e.coversGa g.1))
    || (clusterSlots (clusterCore cl 0)).any (fun z => e.pinnedBy (s.slot z.1 z.2).wait)

/-- The least recently used of the leaves that nothing pins. -/
def State.oldestLeaf (s : State) (cl : Nat) : List TlbEntry → Option TlbEntry
  | [] => none
  | e :: rest =>
    if s.pinsLeaf cl e then s.oldestLeaf cl rest
    else match s.oldestLeaf cl rest with
      | some x => if x.used < e.used then some x else some e
      | none => some e

/-- A leaf enters its set of 8 ways in place of the least recently used one that nothing pins; where all are pinned it is not stored (R207). -/
def State.storeLeaf (s : State) (cl : Nat) (e : TlbEntry) : State :=
  let new := { e with used := s.tick }
  let others := (s.cluster cl).tlb.filter (fun x => !(x.cls == e.cls && x.big == e.big && x.vbase == e.vbase))
  let mates := others.filter (fun x => x.set == e.set)
  if mates.length < 8 then s.modCluster cl (fun u => { u with tlb := others ++ [new] })
  else match s.oldestLeaf cl mates with
    | some x => s.modCluster cl (fun u => { u with tlb := others.filter (fun y => y != x) ++ [new] })
    | none => s

/-- Bytes that the table of a pointer spans (R204). -/
def Pointer.span (e : Pointer) : Nat := match e.level with | 2 => 2 ^ 39 | 3 => 2 ^ 30 | _ => 2 ^ 21

/-- A pointer lies on the walk of an address. -/
def Pointer.covers (e : Pointer) (cls : Nat) (va : BitVec 48) : Bool := e.cls == cls && e.top == va.toNat / e.span

/-- Where a walk begins (R207): at the deepest table that the pointer cache knows below the root, else at the root. A pointer reached from another
root, which a write of PTROOT has replaced, is none of the walk's (15_system R410; log 10, DEDUCED). -/
def Cluster.walkStart (cl : Cluster) (cls : Nat) (va : BitVec 48) (root : Nat) : Nat × Nat :=
  match [4, 3, 2].findSome? (fun lv => cl.ptrs.find? (fun e => e.level == lv && e.root == root && e.covers cls va)) with
  | some e => (e.level, e.base)
  | none => (1, root)

/-- A pointer enters the cache of 32 (R207); the manual does not say which one it replaces (log 10, DESIGN CHOICE). -/
def State.keepPointer (s : State) (cl : Nat) (e : Pointer) : State :=
  let l := (s.cluster cl).ptrs
  if l.length < 32 then s.modCluster cl (fun u => { u with ptrs := l ++ [e] })
  else (s.modCluster cl (fun u => { u with ptrs := l.eraseIdx ((Config.freeWord s.free).toNat % 32) ++ [e] })).fresh

/-- A request of a walk that has found its leaf (R206-R208): the tests of W and A are its own, and its translation, made here in the order of arrival,
stays at hand for its thread, whose instruction issues again. One on another page than the leaf's, whose tables have changed since it joined,
asks anew. -/
def State.serveWalk (s : State) (cl : Nat) (e : TlbEntry) (r : WalkReq) : State :=
  if s.reqWaits r = false then s
  else if e.covers e.cls r.va = false then s.modSlot r.core r.slot (fun t => { t with st := .run, wait := .none })
  else match s.permit e r.va r.access with
    | .fault cause lv => (s.pageFault r.core r.slot e.cls r.va r.ga r.access cause lv).meetWake r.core r.slot
    | _ =>
      (s.modCluster cl (fun u => { u with spares := u.spares ++ [⟨e, r.core, r.slot, r.gen⟩] })).modSlot
        r.core r.slot (fun t => { t with st := .run, wait := .none })

/-- Threads of a cluster whose requests found no room in the buffer of 256 ask again (R207). -/
def State.wakeUnlisted (s : State) (cl : Nat) : State :=
  let rs := (s.cluster cl).walkReqs
  (clusterSlots (clusterCore cl 0)).foldl (fun q z =>
    let t := q.slot z.1 z.2
    if t.st == .blocked && t.wait == .reissue .walk && !rs.any (fun r => r.core == z.1 && r.slot == z.2 && r.gen == t.gen) then
      q.modSlot z.1 z.2 (fun t => { t with st := .run, wait := .none })
    else q) s

/-- A walk ends: with a fault for every request, or with a leaf, which enters the TLB unless the walk failed for all of them or an invalidation
has met it (R207, R209). Requests are served in their order of arrival. -/
def State.endWalk (s : State) (cl : Nat) (w : Walk) (res : Except (Nat × Nat) TlbEntry) : State :=
  let full := decide (256 ≤ (s.cluster cl).walkReqs.length)
  let s1 := s.modCluster cl (fun u =>
    { u with walks := u.walks.erase w, spares := u.spares.filter (fun x => (s.slot x.core x.slot).gen == x.gen) })
  let s2 := match res with
    | .error (cause, lv) =>
      w.reqs.foldl (fun q r => if q.reqWaits r then (q.pageFault r.core r.slot w.cls r.va r.ga r.access cause lv).meetWake r.core r.slot else q) s1
    | .ok e =>
      let allowed := fun (r : WalkReq) => match s.permit e r.va r.access with | .fault _ _ => false | _ => true
      let s3 := if w.keep then w.seen.foldl (fun q x => q.keepPointer cl x) s1 else s1
      let z := if w.keep && w.reqs.any allowed then s3.storeLeaf cl e else s3
      w.reqs.foldl (fun q x => q.serveWalk cl e x) z
  if full then s2.wakeUnlisted cl else s2

/-- A walk is changed in its place. -/
def State.setWalk (s : State) (cl : Nat) (w x : Walk) : State :=
  s.modCluster cl (fun u => { u with walks := u.walks.map (fun y => if y = w then x else y) })

/-- The first-level table of a class (R203). -/
def Part.ptable (p : Part) (cls : Nat) : Nat := bf (p.ptroot cls) 47 12 * 2 ^ 12

/-- One table read of a walk (R206). -/
def State.walkLevel (s : State) (cl part : Nat) (w : Walk) : State :=
  match walkRead s w.cls w.va w.level w.table with
  | .leaf e => s.endWalk cl w (.ok e)
  | .fault cause lv => s.endWalk cl w (.error (cause, lv))
  | .table t =>
    let p : Pointer := ⟨w.cls, (s.part part).ptable w.cls, w.level + 1, 0, t⟩
    s.setWalk cl w { w with level := w.level + 1, table := t, seen := w.seen ++ [{ p with top := w.va.toNat / p.span }] }

/-- A walk begins: at the deepest table that the pointer cache knows, else at the root (R206, R207). -/
def State.beginWalk (s : State) (cl part : Nat) (w : Walk) : State :=
  if bit ((s.part part).ptroot w.cls) 0 = false then s.endWalk cl w (.error (6, 0))
  else
    let b := (s.cluster cl).walkStart w.cls w.va ((s.part part).ptable w.cls)
    s.setWalk cl w { w with level := b.1, table := b.2 }

/-- PAGE_TABLE_WALK (R206, R207): the next step of a walk of a cluster, one of the 16 oldest: it begins, once every earlier one has begun, or reads the
next table, through the channel of its memory core. -/
def execPageTableWalk (c cls : Nat) (va : BitVec 48) (s : State) : Result :=
  let cl := clusterOf c
  .next (match ((s.cluster cl).walks.take 16).find? (fun w => w.cls == cls && w.va == va) with
    | none => s
    | some w =>
      match w.reqs with
      | [] => s.modCluster cl (fun u => { u with walks := u.walks.erase w })
      | r :: _ =>
        match s.partOf r.core r.slot with
        | none => s.modCluster cl (fun u => { u with walks := u.walks.erase w })
        | some p =>
          let o := w.table + walkIndex w.level w.va * 8
          if w.level = 0 then (if ((s.cluster cl).walks.takeWhile (fun x => x != w)).any (fun x => x.level == 0) then s else s.beginWalk cl p w)
          else if capacityOk 1 o = true ∧ s.coreAbsent (homeOf (2 ^ 48 + o)) = false then
            s.throughChannel r.core (.walk cl w.cls w.va) (2 ^ 48 + o) (fun q => q.walkLevel cl p w)
          else s.walkLevel cl p w)

end Sys2Proof.Machine
end

