-- ==== Sys2Proof/Machine/Images.lean ====
section
/-! DEFINITION. Halting a region, writing the images of its cores and restoring them (15_system R421-R427; 07_access R200, 08_messages
R242, 09_sync R269, 11_press R313, 12_engines R333, 13_tasks R371, 14_population R397). -/

namespace Sys2Proof.Machine

/-! ### Regions -/

/-- The core of a bulkhead at the place that another core has in its own. -/
def moveCore (c : CoreId) (b : Nat) : CoreId := coreAtXY (b % 8 * 16 + meshX c % 16) (b / 8 * 16 + meshY c % 16)

/-- The cores of a bulkhead. -/
def bulkheadCores (b : Nat) : List CoreId := (List.range 256).map (fun i => coreAtXY (b % 8 * 16 + i % 16) (b / 8 * 16 + i / 16))

/-- The clusters of a bulkhead. -/
def bulkheadClusters (b : Nat) : List Nat := (bulkheadCores b).foldl (fun l c => insertNat (clusterOf c) l) []

/-- PBH of a map entry. -/
def Part.pbh (p : Part) (v : Nat) : Nat := bf (p.entry v) 5 0

/-- Set STATE of a map entry; PBH stays. -/
def Part.setEntry (p : Part) (v st : Nat) : Part := { p with map := p.map.put v (BitVec.ofNat 8 (st * 64 + p.pbh v)) }

/-- Virtual bulkheads of a mask whose entries have a STATE. -/
def Part.inState (p : Part) (mask : BitVec 64) (st : Nat) : List Nat :=
  (List.range 64).filter (fun v => bit mask v && entryState (p.entry v) == st)

/-- Physical cores of virtual bulkheads. -/
def Part.regionCores (p : Part) (vs : List Nat) : List CoreId := vs.flatMap (fun v => bulkheadCores (p.pbh v))

/-! ### Halting: one slot -/

/-- A wait that the halt cancels; its instruction issues again after resume (R200, R242, R269, R371, R397). -/
def Wait.cancelled : Wait → Bool
  | .reissue _ | .retry _ _ _ _ _ | .yield_ _ | .release _ _ _ _ | .releaseStore _ _ _ _ | .releaseLocal _ _ _ _ | .releaseBar _ _ _
  | .releaseColl _ | .fence _ _ | .fenceI _ _ | .mbwait _ _ _ _ | .barrier _ _ _ _ | .poprank _ _ _ _ _ _ | .channel _ _ _
  | .sending _ _ _ _ _ _ _ _ _ _ | .seal _ _ _ _ _ _ _ | .lineage _ _ _ _ _ _ _ | .blend _ _ _ _ _ _ _ | .bank _ _ _ _ _ => true
  | .reply _ _ req _ =>
    match req with
    | .load _ _ | .fitRead _ | .chain _ _ _ _ _ _ _ | .control _ _ _ _ => true
    | .sync op _ _ => op == 9 || op == 11
    | .query op _ _ => op == 5
    | _ => false
  | _ => false

/-- The home, by its name, at which a cancelled wait may have a waiter entry, which a withdrawal frees (R269). -/
def Wait.withdraws : Wait → Option CoreId
  | .reply _ _ (.sync op _ _) tgt => if op = 9 ∨ op = 11 then some tgt else Option.none
  | .reply _ _ (.query 5 _ _) tgt => some tgt
  | _ => Option.none

/-- The halt reaches a slot (R422): its wait is cancelled, or goes on until its reply; an MBPOP copies the rest of its record (08_messages R242). -/
def State.haltSlot (s : State) (c : CoreId) (k : Nat) : State :=
  let t := s.slot c k
  let run := s.modSlot c k (fun t => { t with st := .run, wait := .none })
  match t.st, t.wait with
  | .blocked, .qpopw d dl q tgt false retry r =>
    if retry.isSome then run
    else (s.launch (s.packet c k tgt none none (.queue 9 q 0))).modSlot c k (fun t => { t with wait := .qpopw d dl q tgt true none r })
  | .blocked, .popping mb d src dst left due h r => if left = 0 then s else s.popPiece c k mb d src dst left left due h r
  | .blocked, w =>
    if w.cancelled then (match w.withdraws with
      | some tgt =>
        (match s.homeNow (s.partOf c k) (namedCore tgt) tgt .withdraw with
         | some z => run.launch (s.packet c k z.1 z.2.1 none .withdraw)
         | none => run)
      | none => run) else s
  | _, _ => s

/-! ### Halting: collectives (R397) -/

/-- The descriptor and the members of a pending collective, from its contribution: waiting to leave, on its way, or in the network. -/
def State.collMembers (s : State) (c : CoreId) (id : Nat) : List Word × List Nat :=
  let of_ := fun (b : Body) => match b with
    | .contribution i _ _ ws keys _ _ _ | .gathering i _ _ ws keys _ _ _ _ _ => if i = id then some (ws, keys) else none
    | _ => none
  match (s.core c).slots.toList.findSome? (fun t => match t.wait with | .releaseColl m => of_ m.body | _ => none) with
  | some z => z
  | none =>
    match s.net.findSome? (fun m => if m.dst = c then of_ m.body else none) with
    | some z => z
    | none =>
      (s.colls.findSome? (fun z => if z.id = id then
          z.got.findSome? (fun x => match x.home with | some (h, _, _) => if h = c then some (x.desc, x.members) else none | none => none)
        else none)).getD ([], [])

/-- A packet of a core for no thread. -/
def State.corePacket (s : State) (c dst : CoreId) (held : Option CoreId) (body : Body) : Msg :=
  { s.dispatcherPacket c dst body with held := held }

/-- The device applies CABORT for a pending collective: the next attempt here, at every member, and in the other packages of PKGMASK. The collective stays pending and
completes with CODE 7 at resume. -/
def State.abortPending (s : State) (c : CoreId) (p : Nat) (id : Nat) : State :=
  let q := (s.core c).coll id
  match q.pending with
  | none => s
  | some e =>
    let n := q.att + 1
    let z := s.collMembers c id
    let keys := z.2.filter (fun v => v != virtOf (s.part p) c)
    let pkgs := if collGroup z.1 then (List.range 16).filter (fun g => bit (z.1.getD 4 0) g && g != s.pkgNo) else []
    let s1 := { s with colls := s.colls.filter (fun z => !(z.part == p && z.id == id && newerAttempt n z.att)) }
    let s2 := s1.modCore c (fun x => x.setColl id ⟨n, 0, some e⟩)
    let s3 := pkgs.foldl (fun r g => r.launch (s.corePacket c (peerCore g) none (.abort id n false))) s2
    keys.foldl (fun r v =>
      match s.xlate p v with
      | .at_ h => r.launch (s.corePacket c h none (.abort id n false))
      | .held => r.launch (s.corePacket c (overflowCore p) (some v) (.abort id n false))
      | .outside => r) s3

/-! ### Halting: the dispatcher (R371) -/

/-- A packet is about a staging entry of a core. -/
def Msg.isGrantOf (m : Msg) (c : CoreId) (z : Stage) : Bool := m.dst == c && m.body == .keyGrant z.id
def Msg.isRequestOf (m : Msg) (c : CoreId) (z : Stage) : Bool :=
  match m.body with
  | .keyRequest _ _ e => m.src == c && e == z.id
  | _ => false

/-- Granted keys of a staging entry are released, a grant on its way too, and a waiting request is withdrawn. -/
def State.withdrawStage (s : State) (c : CoreId) (z : Stage) : State :=
  let onWay := s.net.any (fun m => m.isGrantOf c z)
  let z1 := if onWay then { z with granted := z.granted + 1 } else z
  let leave := fun (r : KeyRec) => { r with waiters := r.waiters.filter (fun w => w != (c, z.id)) }
  let parts := s.parts.map (fun e => (e.1, { e.2 with keys := e.2.keys.map leave }))
  let s1 := { s with net := s.net.filter (fun m => !m.isGrantOf c z && !m.isRequestOf c z), parts := parts }
  s1.dropKeys c z1

/-- Descriptors of staged ring entries, with the stamps that keep their order against the keyed messages staged before them. -/
def stagedRing : List Stage → (last : Nat) → List (Nat × Nat)
  | [], _ => []
  | z :: rest, last =>
    match z.keyed with
    | some a => stagedRing rest (a.stamp + 1)
    | none => (z.desc, last) :: stagedRing rest last

/-- A full ring gives up its last entry, which becomes the first of the pushes that wait for room (log 29, DESIGN CHOICE). -/
def State.spareRing (s : State) (c : CoreId) : State :=
  let x := s.core c
  if x.ringFull then
    s.modCore c (fun x => { x with ringCount := 255, ringStamps := x.ringStamps.take 255
                                   heldPush := (bf (s.readWord (scratchAddr c (0x7B800 + 8 * ((x.ringHead + 255) % 256)))) 18 0, none) :: x.heldPush })
  else s

/-- A descriptor returns to the front of the ring, READY. -/
def State.unpop (s : State) (c : CoreId) (desc stamp : Nat) : State :=
  let h := ((s.core c).ringHead + 255) % 256
  (((s.spareRing c).setDescState c desc 2).writeWord (scratchAddr c (0x7B800 + 8 * h)) (BitVec.ofNat 64 (2 ^ 63 + desc))).modCore c
    (fun x => { x with ringHead := h, ringCount := x.ringCount + 1, ringStamps := stamp :: x.ringStamps })

/-- Every staging entry and a waiting claim return to where they came from. -/
def State.returnStaging (s : State) (c : CoreId) : State :=
  let x := s.core c
  let s1 := x.staging.foldl (fun q z => q.withdrawStage c z) s
  let s2 := (stagedRing x.staging 0).foldr (fun e q => q.unpop c e.1 e.2) s1
  s2.modCore c (fun y => { y with staging := [], amClaim := none, amq := x.amClaim.toList ++ x.staging.filterMap (fun z => z.keyed) ++ y.amq })

/-! ### Halting: the press and engine commands (R313, R333) -/

/-- Members of a command on given cores, and the command once they are gone. -/
def EngCmd.onCores (cmd : EngCmd) (cores : List CoreId) : List Member := cmd.live.filter (fun m => cores.contains m.core)

/-- A command as the image keeps it for some of its members: nothing of its work so far is left. -/
def EngCmd.saved (cmd : EngCmd) (ms : List Member) : EngCmd :=
  { cmd with phase := .saved, code := 0, codes := [], flags := 0, members := ms, buf := none, granted := false, work := [] }

/-- Cancel a command's members of a region and keep them for the replay (R333). A merged command keeps its other members. -/
def State.saveCommand (s : State) (cores : List CoreId) (id : Nat) : State :=
  match s.engine.find id with
  | none => s
  | some cmd =>
    let mine := cmd.onCores cores
    if mine.isEmpty ∨ cmd.phase = .complete ∨ cmd.phase = .saved then s
    else if mine.length = cmd.live.length then
      let s1 := (s.commandCores cmd).foldl (fun q h => q.retireSpans h (fun z => z.owner == .engine id)) s
      let s2 := (s1.dropPairs id).dropAccesses (fun f => f == .engine id)
      { s2 with engine := s2.engine.put id (cmd.saved mine) }.restoreCounts cmd
    else
      let s1 := mine.foldl (fun q m => match q.engine.find id with | some g => q.removeMember id g m.core m.entry | none => q) s
      s1.addCommand (cmd.saved mine)

/-- Save every command of the region. -/
def State.saveCommands (s : State) (cores : List CoreId) : State :=
  (s.engine.map (fun e => e.1)).foldl (fun q id => q.saveCommand cores id) s

/-! ### The halt -/

/-- The halt reaches a core. -/
def State.haltCore (s : State) (p : Nat) (c : CoreId) : State :=
  let s1 := (((s.core c).colls.filter (fun e => e.2.pending.isSome)).map (fun e => e.1)).foldl (fun q id => q.abortPending c p id) s
  let s2 := (List.range 16).foldl (fun q k => q.haltSlot c k) (s1.landAll c)
  ((s2.returnStaging c).dropFetches c (fun _ => true)).modCore c (fun x => { x with halted := true })

/-- A region halts (R421, R422): its entries are HELD, so that what is sent from then on waits in the overflow queue, and nothing issues on its
cores. -/
def State.haltRegion (s : State) (p : Nat) (vs : List Nat) : State :=
  let cores := (s.part p).regionCores vs
  let s1 := s.saveCommands cores
  let s2 := s1.modPart p (fun x => vs.foldl (fun x v => x.setEntry v 2) x)
  cores.foldl (fun q c => q.haltCore p c) s2

/-- Nothing of a slot is still under way. -/
def Slot.drained (t : Slot) : Bool :=
  (match t.st with | .blocked | .spill | .fill => false | _ => true)
    && t.posted.isEmpty && (match t.spilled with | some o => o.posted.isEmpty | none => true)

/-- A halted region has come to rest (R423): replies and acknowledgements are in, the press has completed its command, completed engine
commands have delivered their statuses, and every message that passed a cluster port before the hold has been taken. -/
def State.drained (s : State) (p : Nat) (vs : List Nat) : Bool :=
  let cores := (s.part p).regionCores vs
  cores.all (fun c => (s.core c).slots.toList.all Slot.drained && (s.core c).owed.isEmpty)
    && vs.all (fun v => (bulkheadClusters ((s.part p).pbh v)).all (fun cl => (s.cluster cl).running.isNone))
    && s.engine.all (fun e => e.2.phase != .complete || (e.2.onCores cores).isEmpty)
    && s.net.all (fun m => m.body.isReply || m.held.isSome || !cores.contains m.dst)

/-! ### The grinder (R426) -/

/-- A doubleword of the scratchpad or of an image, and whether it is poison. -/
abbrev Dword := Word × Bool

/-- A token: OP and count. -/
def grindToken (op n : Nat) : Dword := (BitVec.ofNat 64 (op + (n - 1) * 4), false)

/-- Leading entries equal to a doubleword. -/
def runLength (z : Dword) : List Dword → Nat
  | y :: rest => if y = z then 1 + runLength z rest else 0
  | [] => 0

/-- A literal token and its doublewords. -/
def grindLiteral (lit : List Dword) : List Dword := if lit.isEmpty then [] else grindToken 0 lit.length :: lit

/-- The tokens of the rest of a block; `lit` is the open literal. A poisoned doubleword is a literal and stays poison (log 26, DESIGN CHOICE). -/
def grind : (fuel : Nat) → List Dword → (lit : List Dword) → List Dword
  | _, [], lit => grindLiteral lit ++ [(3, false)]
  | 0, _, lit => grindLiteral lit ++ [(3, false)]
  | fuel + 1, z :: rest, lit =>
    let r := if z.2 then 1 else 1 + runLength z rest
    if z.1 = 0 ∧ 2 ≤ r then grindLiteral lit ++ grindToken 1 r :: grind fuel ((z :: rest).drop r) []
    else if z.1 ≠ 0 ∧ 3 ≤ r then grindLiteral lit ++ grindToken 2 r :: z :: grind fuel ((z :: rest).drop r) []
    else grind fuel rest (lit ++ [z])

/-- A block is all zero. -/
def blockZero (ws : List Dword) : Bool := ws.all (fun z => z == (0, false))

/-- One token of a stream: what it adds to a block, and the rest; none where it cannot be read or has no meaning. -/
def unGrindToken (w : Word) (rest : List Dword) : Option (List Word × List Dword) :=
  let n := bf w 9 2 + 1
  match bf w 1 0 with
  | 0 => if n ≤ rest.length ∧ (rest.take n).all (fun z => !z.2) then some ((rest.take n).map (fun z => z.1), rest.drop n) else none
  | 1 => some (List.replicate n 0, rest)
  | 2 => (match rest with | (v, false) :: more => some (List.replicate n v, more) | _ => none)
  | _ => none

/-- Decode one block: its doublewords and the rest of the stream. -/
def unGrind : (fuel : Nat) → List Dword → (out : List Word) → Option (List Word × List Dword)
  | 0, _, _ => none
  | _, [], _ => none
  | fuel + 1, (w, bad) :: rest, out =>
    if bad then none
    else if bf w 1 0 = 3 then (if out.length = 256 then some (out, rest) else none)
    else match unGrindToken w rest with
      | some (ws, more) => if out.length + ws.length ≤ 256 then unGrind fuel more (out ++ ws) else none
      | none => none

/-! ### The image in memory (R424) -/

/-- Physical byte of an offset of the image of a virtual core; none where its page does not translate or its home is absent. -/
def State.imageAt (s : State) (p v off : Nat) : Option Nat :=
  let va := (bf (s.part p).ctxarea 47 16 * 2 ^ 16 + v * 0xA0000 + off) % 2 ^ 48
  match s.translateNow (some p) 1 (BitVec.ofNat 48 va) 1 with
  | .ok pa => if s.coreAbsent (homeOf pa) then none else some pa
  | _ => none

/-- Write up to 32 doublewords that lie in one 256-byte unit of an image: the sound ones, then the poisoned ones. -/
def State.writeUnit (s : State) (pa : Nat) (ws : List Dword) : State :=
  let s1 := s.performWrite pa (ws.flatMap (fun z => bytesOf z.1.toNat 8))
  (ws.zipIdx).foldl (fun q e => if e.1.2 then q.putPoison (pa + 8 * e.2) (bytesOf e.1.1.toNat 8) else q) s1

/-- Write doublewords into an image from a 256-byte boundary on, one unit after the other. -/
def State.writeImage (s : State) (p v off : Nat) : (fuel : Nat) → List Dword → State
  | 0, _ => s
  | _, [] => s
  | fuel + 1, ws =>
    let s1 := match s.imageAt p v off with
      | some pa => s.writeUnit pa (ws.take 32)
      | none => s
    s1.writeImage p v (off + 256) fuel (ws.drop 32)

/-- Read one 256-byte unit of an image; what cannot be read counts as an uncorrectable error. -/
def State.readUnit (s : State) (p v off : Nat) : List Dword :=
  match s.imageAt p v off with
  | some pa => (List.range 32).map (fun i => (s.readWord (pa + 8 * i), s.isPoisoned (pa + 8 * i) 8))
  | none => List.replicate 32 (0, true)

/-- Read n doublewords of an image. -/
def State.readImage (s : State) (p v off n : Nat) : List Dword :=
  let first := off / 256
  let units := (off + 8 * n + 255) / 256 - first
  (((List.range units).flatMap (fun i => s.readUnit p v ((first + i) * 256))).drop (off % 256 / 8)).take n

/-- Sound doublewords. -/
def sound (ws : List Word) : List Dword := ws.map (fun w => (w, false))

/-- A doubleword of the device-format parts, 0x5000 to 0xFFFF. -/
def deviceWord (stamp i : Nat) : Word :=
  BitVec.ofNat 64 (ofBytes ((List.range 8).map (fun j => Config.imageByte stamp (0x5000 + 8 * i + j))))

/-- The register block of a core. -/
def Core.imageRegisters (x : Core) : List Word :=
  x.s.toList ++ x.vs.toList.flatMap vecWords
  ++ [BitVec.ofNat 64 (x.pendS.toNat + x.pendVs.toNat * 2 ^ 16), x.rotlo, x.rothi] ++ x.mbbase.toList ++ x.mbsize.toList
  ++ [x.logbase, x.logsize, x.pxw, x.mrgwin, x.rrst, x.fit, BitVec.ofNat 64 x.lend.toNat, x.tvec, x.ksegbase, x.kseglim]

/-- A 2 KiB block of a scratchpad. -/
def State.block_ (s : State) (c : CoreId) (j : Nat) : List Dword :=
  (List.range 256).map (fun i =>
    let a := scratchAddr c (j * 2048 + 8 * i)
    (s.readWord a, s.isPoisoned a 8))

/-- Blocks whose dirty bit is set and that are not all zero. -/
def State.dirtyBlocks (s : State) (c : CoreId) : List Nat :=
  (List.range 256).filter (fun j => bit (s.core c).dirty j && !blockZero (s.block_ c j))

/-- A dirty map. -/
def mapOf (js : List Nat) : BitVec 256 := BitVec.ofNat 256 (js.foldl (fun n j => n + 2 ^ j) 0)

/-- The responses outstanding for attached commands leave with the image. -/
def Core.detachCounts (x : Core) : Core :=
  x.comp.foldl (fun x e => match e.2.st with | .attached k g _ => x.modSlot k (fun t => t.subOut g) | _ => x) x

/-- A physical core after its image is written: every slot FREE, nothing queued. -/
def Core.emptied (x : Core) : Core :=
  let y := x.detachCounts
  { y with
    slots := y.slots.map (fun t => { Slot.reset with gen := t.gen, outst := t.outst, nextPost := t.nextPost, readyAt := t.readyAt })
    waiters := [], amq := [], amClaim := none, ringHead := 0, ringCount := 0, ringStamps := [], heldPush := [], ending := [], staging := [], comp := [], collDone := []
    sb := [], sbWait := [], press := PressCore.reset, colls := [], owed := [], retention := [], stale := [], landed := [], landing := [], flight := [], ctlOld := [], rotOld := [], halted := false }

/-- Write the image of one core and leave it empty (R423, R424); the bits of the blocks that are all zero are cleared in its dirty map (R425). -/
def State.saveCore (s : State) (p : Nat) (c : CoreId) : State :=
  let x := s.core c
  let v := virtOf (s.part p) c
  let blocks := s.dirtyBlocks c
  let stream := blocks.flatMap (fun j => grind 256 (s.block_ c j) [])
  let map := mapOf blocks
  let header := [BitVec.ofNat 64 v, 1, BitVec.ofNat 64 (8 * stream.length), 0, map.setWidth 64, (map >>> 64).setWidth 64,
    (map >>> 128).setWidth 64, (map >>> 192).setWidth 64] ++ List.replicate 24 0
  let regs := x.imageRegisters
  let s1 := s.writeImage p v 0 16 (sound (header ++ regs ++ List.replicate (480 - regs.length) 0))
  let s2 := s1.writeImage p v 0x1000 64 (sound (x.slots.toList.flatMap Slot.record))
  let s3 := s2.writeImage p v 0x5000 176 (sound ((List.range 5632).map (deviceWord s.free)))
  let s4 := (s3.writeImage p v 0x10000 2304 stream).fresh
  let bars := if posOf c = 0 then (s.cluster (clusterOf c)).bars else []
  (s4.modPart p (fun y => { y with images := y.images.put v ⟨{ x with dirty := map }, bars, s.free, c⟩ })).modCore c (fun y => { y.emptied with dirty := map }.rooted (s.rootOf (bulkheadOf c)))

/-- Members of saved commands are named by their virtual cores while the image lies in memory. -/
def State.virtualMembers (s : State) (p : Nat) (cores : List CoreId) : State :=
  let move := fun (m : Member) => if cores.contains m.core then { m with core := virtOf (s.part p) m.core } else m
  { s with engine := s.engine.map (fun e =>
      (e.1, if e.2.phase = .saved ∧ e.2.members.all (fun m => m.part == some p) then { e.2 with members := e.2.members.map move } else e.2)) }

/-- A cluster after its cores have left. Its fault-pending entries go with it: a thread listed in one, parked by R208 with no record of its own,
has no wake to come after a RESUME (log 56, DESIGN CHOICE). -/
def State.clearClusters (s : State) (b : Nat) : State :=
  (bulkheadClusters b).foldl (fun q cl => q.modCluster cl (fun _ => Cluster.reset)) s

/-- Every image of a halted region is written (R423): how many cores were saved. -/
def State.saveRegion (s : State) (p : Nat) (vs : List Nat) : State :=
  let pbhs := vs.map (fun v => (s.part p).pbh v)
  let cores := pbhs.flatMap bulkheadCores
  let s1 := cores.foldl (fun q c => q.saveCore p c) (s.virtualMembers p cores)
  pbhs.foldl (fun q b => (q.clearClusters b).modBulkhead b (fun h => { h with dirty := true })) s1

/-! ### Restoring (R427) -/

/-- A generation for a context that a restore puts into a slot; for its spilled owner another one (03_strands R89). -/
def Slot.restoreGen (t : Slot) (avoid : Option Nat) : Option Nat :=
  ((List.range 15).map (fun i => (t.gen + 1 + i) % 16)).find? (fun g => t.outstanding g == 0 && avoid != some g)

/-- A restore waits while no generation qualifies for a slot. -/
def Slot.canRestore (t : Slot) : Bool :=
  match t.restoreGen none with
  | some g => (t.restoreGen (some g)).isSome
  | none => false

/-- The STATE that a record and the saved slot give: a slot kept for a spilled owner reads PARKED. -/
def restoredState (saved : SlotState) (w : Word) : SlotState :=
  match bf w 2 0 with
  | 0 => .free
  | 2 => if saved = .reserved then .reserved else .parked
  | 3 => .contained
  | 4 => .lost
  | _ => .run

/-- The park of a restored slot. -/
def restoredPark (st : SlotState) (w : Word) (cycle : Nat) : Option Park :=
  match st with
  | .parked => some ⟨bf w 11 4, 1, cycle⟩
  | .contained => some ⟨bf w 11 4, 2, cycle⟩
  | .lost => some ⟨bf w 11 4, 3, cycle⟩
  | _ => none

/-- What a saved generation becomes in its slot: 16, which no context has, for one that has ended. -/
def mapGen (saved now : Slot) (g : Nat) : Nat :=
  if now.st ≠ .free ∧ now.st ≠ .reserved ∧ saved.gen = g then now.gen
  else match saved.spilled, now.spilled with
    | some o, some n => if o.gen = g then n.gen else 16
    | _, _ => 16

/-- A slot restored from its record. -/
def Slot.restore (t saved : Slot) (ws : List Word) (cycle tick : Nat) (xlat : Word) : Slot :=
  let w := ws.getD 105 0
  let st := restoredState saved.st w
  if st = .free then t
  else
    let g := (t.restoreGen none).getD t.gen
    let og := (t.restoreGen (some g)).getD t.gen
    let base := if st = .reserved then saved else saved.load ws xlat
    { base with
      st := st, gen := g, outst := t.outst, owes := false, posted := [], nextPost := t.nextPost, acq := tick, readyAt := t.readyAt
      wait := .none, park := restoredPark st w cycle
      spilled := saved.spilled.map (fun o => { o with gen := og, posted := [], acq := tick }) }

/-- A slot of a core that is lost: LOST unless its record says FREE; registers 0, pc from the record or all ones, bit 0 clear (02_encoding R36). -/
def Slot.restoreLost (t saved : Slot) (ws : List Dword) (cycle tick : Nat) (xlat : Word) : Slot :=
  let ok := ws.all (fun z => !z.2)
  let w := ws.getD 105 (0, true)
  let free := if w.2 then saved.st = .free else bf w.1 2 0 = 0
  if free then t
  else
    let base := if ok then saved.load (ws.map (fun z => z.1)) xlat else Slot.reset
    let pc := ws.getD 15 (0, true)
    { base with
      st := .lost, gen := (t.restoreGen none).getD t.gen, outst := t.outst, owes := false, posted := [], nextPost := t.nextPost, acq := tick
      readyAt := t.readyAt, wait := .none, park := some ⟨0x53, 3, cycle⟩, spilled := none, pc := keepf (if pc.2 then ones else pc.1) 63 1
      p := Vector.replicate 16 0, vp := Vector.replicate 16 0, pendP := 0, pendV := 0 }

/-- The scratchpad of a restored core: dirty blocks decoded, every block from the first unreadable token on poison, the others zero.
The answer says whether the whole stream was readable. -/
def State.restoreBlocks (s : State) (c : CoreId) : List Nat → List Dword → State × Bool
  | [], _ => (s, true)
  | j :: rest, stream =>
    match unGrind 257 stream [] with
    | some (ws, more) =>
      let s1 := s.writeWords (scratchAddr c (j * 2048)) ws
      let s2 := if ws.all (fun w => w == 0) then s1.modCore c (fun x => { x with dirty := x.dirty &&& ~~~(mapOf [j]) }) else s1
      s2.restoreBlocks c rest more
    | none =>
      ((j :: rest).foldl (fun q i => (q.putPoison (scratchAddr c (i * 2048)) (List.replicate 2048 0)).modCore c
        (fun x => { x with dirty := x.dirty ||| mapOf [i] })) s, false)

/-- The fields of MBSIZE and LOGSIZE; every other bit is res0, and a size counts in units of 256 and 32 bytes (08_messages R222, 09_sync R252). -/
def mbsizeFields (w : Word) : Word := keepf w 49 20 ||| keepf w 16 8
def logsizeFields (w : Word) : Word := keepf w 63 62 ||| keepf w 59 48 ||| keepf w 44 33 ||| keepf w 16 5

/-- Entries of the ready ring that a word of RRST counts (13_tasks R356). -/
def ringFilled (w : Word) : Nat := min 256 (bf w 8 0)

/-- Core registers from the register block; the head and the count of the ready ring come from RRST. A mailbox or log register that software has changed
in the image is taken as it stands, without the tests of a register write (log 90, DESIGN CHOICE). -/
def Core.loadRegisters (x : Core) (ws : List Word) : Core :=
  let g := fun (i : Nat) => ws.getD i 0
  { x with
    s := vectorOf 16 0 (ws.take 16), vs := vectorOf 16 0 ((List.range 16).map (fun n => vecOfWords ((ws.drop (16 + 4 * n)).take 4)))
    pendS := BitVec.ofNat 16 (bf (g 80) 15 0), pendVs := BitVec.ofNat 16 (bf (g 80) 31 16), rotlo := rotationWord (g 81), rothi := rotationWord (g 82)
    stale := [], landed := [], landing := [], flight := [], ctlOld := [], rotOld := []
    mbbase := vectorOf 4 0 (((ws.drop 83).take 4).map (fun w => keepf w 18 8)), mbsize := vectorOf 4 0 (((ws.drop 87).take 4).map mbsizeFields)
    logbase := keepf (g 91) 18 5, logsize := logsizeFields (g 92)
    pxw := if bf (g 93) 3 0 = 0 then 1 else keepf (g 93) 3 0, mrgwin := keepf (g 94) 5 0, fit := keepf (g 96) 31 0, lend := bit (g 97) 0
    tvec := keepf (g 98) 63 1, ksegbase := keepf (g 99) 63 5, kseglim := g 100
    ringHead := bf (g 95) 23 16, ringCount := ringFilled (g 95), ringStamps := x.ringStamps.take (ringFilled (g 95)) ++ List.replicate (ringFilled (g 95) - x.ringStamps.length) 0 }

/-- A physical address of a saved bulkhead, moved to the bulkhead it is restored onto. -/
def moveAddr (old new a : Nat) : Nat :=
  if addrClass a = 0 ∧ isCompute (homeOf a) ∧ bulkheadOf (homeOf a) = old then scratchAddr (moveCore (homeOf a) new) (scratchOff a) else a

/-- Press commands, waiters and held pushes of a saved core on the core it is restored onto. -/
def Core.rebase (x : Core) (old c : CoreId) : Core :=
  let mv := moveAddr (bulkheadOf old) (bulkheadOf c)
  let home := fun (m : Msg) => { m with dst := c, body := m.body.rehome c }
  { x with
    press := { x.press with queue := x.press.queue.map (fun p => { p with aAddr := mv p.aAddr, bAddr := mv p.bAddr }) }
    waiters := x.waiters.map (fun w => { w with watch := match w.watch with | .word a t => .word (mv a) t | e => e })
    heldPush := x.heldPush.map (fun e => (e.1, e.2.map home)) }

/-- Attached commands of a restored core: their generations, and the responses outstanding for them. -/
def Core.reattach (x : Core) (saved : Core) : Core :=
  let new := fun (k g : Nat) => mapGen (saved.slot k) (x.slot k) g
  let comp := saved.comp.map (fun e =>
    (e.1, match e.2.st with | .attached k g d => { e.2 with st := .attached k (new k g) d } | _ => e.2))
  let y := { x with comp := comp, press := { x.press with queue := x.press.queue.map (fun p => { p with gen := new p.slot p.gen }) } }
  comp.foldl (fun y e => match e.2.st with
    | .attached k g _ => if g < 16 then y.modSlot k (fun t => { t with outst := t.outst.putSparse 0 g (t.outstanding g + 1) }) else y
    | _ => y) y

/-- What makes an image lost: DETAIL of the record of class 0x53, or none. -/
def State.lostPart (s : State) (p v : Nat) (img : Option Image) : Option Nat :=
  let bad := fun (off n : Nat) => (s.readImage p v off n).any (fun z => z.2)
  let hd := s.readImage p v 0 32
  let tampered := fun (lo n : Nat) (i : Image) =>
    ((s.readImage p v (0x5000 + 8 * lo) n).zipIdx).any (fun e => e.1.2 || e.1.1 != deviceWord i.stamp (lo + e.2))
  match img with
  | none => some 0
  | some i =>
    if hd.any (fun z => z.2) ∨ (hd.getD 0 (0, true)).1.toNat ≠ v ∨ bit (hd.getD 1 (0, true)).1 0 = false then some 0
    else if bad 0x100 480 then some 1
    else if bad 0x1000 2048 then some 2
    else if tampered 0 2560 i then some 3
    else if tampered 2560 3072 i then some 4
    else none

/-- Send the records of a lost core: one for each slot that came back LOST. -/
def State.lostRecords (s : State) (c : CoreId) (part : Nat) : State :=
  (List.range 16).foldl (fun q k => if (q.slot c k).st = .lost then q.sendRecord c (q.who c k) ⟨0x53, part, 0, 0⟩ 3 false else q) s

/-- The core state of a lost image: its poisoned tiles, no commands, mailboxes and logs at their reset values. -/
def Core.restoreLost (x saved : Core) (regs : List Dword) (recs : Nat → List Dword) (part tick : Nat) (xlat : Word) : Core :=
  let y := if regs.all (fun z => !z.2) then x.loadRegisters (regs.map (fun z => z.1)) else x
  let queues : Core := if part = 0 ∨ part = 4 then y else
    { y with waiters := saved.waiters, amq := saved.amq, retention := saved.retention, heldPush := saved.heldPush, ending := saved.ending
             nextStage := saved.nextStage
             colls := saved.colls.map (fun e => (e.1, { e.2 with pending := none })) }
  { queues with
    slots := Vector.ofFn (fun (k : Fin 16) => (x.slot k.val).restoreLost (saved.slot k.val) (recs k.val) x.cycle tick xlat)
    mbbase := Core.reset.mbbase, mbsize := Core.reset.mbsize, mbarr := Core.reset.mbarr, logbase := 0, logsize := 0
    press := { PressCore.reset with acc := saved.press.acc, marks := 0xF#4 } }

/-- The owner of an entry is an engine command in progress. -/
def SbOwner.isLive (o : SbOwner) (live : Nat → Bool) : Bool :=
  match o with
  | .engine id | .pair id _ => live id
  | .press => false

/-- The core state of a sound image on a physical core. -/
def Core.restore (x saved : Core) (old c : CoreId) (regs : List Word) (recs : Nat → List Word) (live : Nat → Bool) (tick : Nat) (xlat : Word) :
    Core :=
  let y : Core := { (saved.rebase old c).loadRegisters regs with
    slots := Vector.ofFn (fun (k : Fin 16) => (x.slot k.val).restore (saved.slot k.val) (recs k.val) x.cycle tick xlat)
    cycle := x.cycle, banks := x.banks, dirty := x.dirty, nextSpan := max x.nextSpan saved.nextSpan, halted := true, owed := []
    sb := saved.sb.filter (fun z => z.owner.isLive live), sbWait := saved.sbWait.filter (fun z => z.owner.isLive live) }
  y.reattach (saved.rebase old c)

/-- Collectives that were pending when the core was saved complete with CODE 7 (R397). -/
def State.endColls (s : State) (c : CoreId) : State :=
  (((s.core c).colls.filter (fun e => e.2.pending.isSome)).map (fun e => e.1)).foldl (fun q id => q.finishColl c id (completionWord 0 7)) s

/-- Restore the image of virtual core v onto a physical core: the state, and whether the core is lost. -/
def State.restoreCore (s : State) (p v : Nat) (c : CoreId) : State × Bool :=
  let img := (s.part p).images.find v
  let saved := match img with | some i => i.core | none => Core.reset
  let old := match img with | some i => i.home | none => c
  let hd := (s.readImage p v 0 32).map (fun z => z.1)
  let map : BitVec 256 := BitVec.ofNat 256 (vecOfWords ((hd.drop 4).take 4)).toNat
  let lost0 := s.lostPart p v img
  let xlat := Config.freeWord s.free
  let s1 := (s.zeroBytes (scratchAddr c 0) 0x80000).fresh.modCore c (fun x => { x with dirty := map })
  let stream := s.readImage p v 0x10000 (bf (hd.getD 2 0) 63 3 % 66048)
  let blocks := if lost0 = some 0 then s1.restoreBlocks c (List.range 256) []
    else s1.restoreBlocks c ((List.range 256).filter (fun j => bit map j)) stream
  let lost := match lost0 with | some d => some d | none => if blocks.2 then none else some 5
  let regs := s.readImage p v 0x100 480
  let recs := fun (k : Nat) => s.readImage p v (0x1000 + 0x400 * k) 128
  let s2 := (blocks.1).modPart p (fun y => { y with images := y.images.erase v })
  match lost with
  | some d => ((s2.modCore c (fun x => x.restoreLost saved regs recs d s.tick xlat)).lostRecords c d, true)
  | none =>
    let live := fun (id : Nat) => (s.engine.find id).isSome
    let s3 := s2.modCore c (fun x =>
      x.restore saved old c (regs.map (fun z => z.1)) (fun k => (recs k).map (fun z => z.1)) live s.tick xlat)
    let bars := match img with | some i => i.bars | none => []
    let s4 := if posOf c = 0 then s3.modCluster (clusterOf c) (fun u => { u with bars := bars }) else s3
    (s4.endColls c, false)

/-! ### Replaying engine commands (R333) -/

/-- The first granule of a command that does not translate now: its GA, kind, cause and level. -/
def State.firstBadPage (s : State) (part : Option Nat) : List (Word × Nat) → Option (Word × Nat × Nat × Nat)
  | [] => none
  | (ga, access) :: rest =>
    match s.translateNow part (gaClass ga) (BitVec.ofNat 48 ga.toNat) access with
    | .fault cause lv => some (ga, access, cause, lv)
    | _ => s.firstBadPage part rest

/-- A member on the core it is restored onto, with its places found anew. -/
def State.replayMember (s : State) (cmd : EngCmd) (m : Member) : Member :=
  let tr := fun cls va access => s.translateNow m.part cls va access
  let z := if cmd.kind = 0 then s.stretchesOf m.core m.part tr cmd.sbuf cmd.dbuf cmd.units m.rows
    else m.stretches.map (fun y => { y with src := match y.src with | .at_ a => .at_ (scratchAddr m.core (scratchOff a)) | q => q })
  { m with stretches := z }

/-- The phase in which a replayed command starts. -/
def State.replayPhase (s : State) (cmd : EngCmd) (m : Member) : Phase :=
  match cmd.kind with
  | 1 => .header
  | 4 => .pairs (List.range cmd.pairsTable.length)
  | _ => .window (s.core m.core).cycle

/-- What stops the replay of one member of a command: the first granule of its ranges that does not translate. -/
def State.replayBad (s : State) (cmd : EngCmd) (m : Member) : Option (Word × Nat × Nat × Nat) :=
  s.firstBadPage m.part (s.commandGranules { cmd with members := [m] })

/-- The record of a member whose ranges no longer all translate (R333). -/
def State.replayRecord (s : State) (cmd : EngCmd) (m : Member) : State :=
  match s.replayBad cmd m with
  | some (ga, access, cause, lv) => s.sendRecord m.core ⟨m.part, m.vtid, 0xFFF, m.pc, m.rcb⟩ (pageFaultInfo ga access cause lv) 0 false
  | none => s

/-- A saved command is accepted again. The members whose ranges translate run from their first piece; each of the others completes with CODE 2, and
its handler receives a record. -/
def State.replayCommand (s : State) (id : Nat) (cmd : EngCmd) : State :=
  let bad := cmd.members.filter (fun m => (s.replayBad cmd m).isSome)
  let s1 := bad.foldl (fun q m => q.replayRecord cmd m) s
  let s2 := if bad.isEmpty then s1 else s1.addCommand { cmd with phase := .complete, code := 2, members := bad }
  match cmd.members.filter (fun m => (s.replayBad cmd m).isNone) with
  | [] => { s2 with engine := s2.engine.erase id }
  | m :: rest =>
    let tr := fun cls va access => s.translateNow m.part cls va access
    let header := if cmd.kind = 1 ∨ cmd.sbuf ∨ cmd.dbuf then s.place m.core m.part tr cmd.hga (if cmd.sbuf then 3 else 4) else .at_ 0
    { s2 with engine := s2.engine.put id { cmd with
        phase := s.replayPhase cmd m, members := (m :: rest).map (s.replayMember cmd), header := header, front := 0 } }

/-- A saved command's members on their physical cores; those of lost cores are gone. -/
def State.landMembers (s : State) (p : Nat) (saved : Assoc Image) (lost : List Nat) (cmd : EngCmd) : EngCmd :=
  { cmd with members := (cmd.members.filter (fun m => !lost.contains m.core)).map (fun m =>
      let c := moveCore m.core ((s.part p).pbh (vbhOf m.core))
      let old := match saved.find m.core with | some i => i.core.slot m.slot | none => Slot.reset
      { m with core := c, gen := mapGen old (s.slot c m.slot) m.gen }) }

/-- Accept the saved commands of restored bulkheads, in their order; those of lost cores are discarded. -/
def State.replayAll (s : State) (p : Nat) (vs : List Nat) (saved : Assoc Image) (lost : List Nat) : State :=
  (s.engine.map (fun e => e.1)).foldl (fun q id =>
    match q.engine.find id with
    | some cmd =>
      if cmd.phase = .saved ∧ cmd.members.all (fun m => m.part == some p && vs.contains (vbhOf m.core)) then
        let c1 := q.landMembers p saved lost cmd
        if c1.members.isEmpty then { q.dropLineage cmd (q.openPairs cmd) with engine := q.engine.erase id }
        else q.replayCommand id c1
      else q
    | none => q) s

/-! ### Restoring a region -/

/-- Cores of a virtual bulkhead: virtual and physical. -/
def Part.landing (p : Part) (vs : List Nat) : List (CoreId × CoreId) :=
  vs.flatMap (fun v => (bulkheadCores v).map (fun c => (c, moveCore c (p.pbh v))))

/-- Every slot of the cores of a landing has generations to give. -/
def State.canLand (s : State) (l : List (CoreId × CoreId)) : Bool :=
  l.all (fun e => (s.core e.2).slots.toList.all Slot.canRestore)

/-- Requests for scoreboard entries still to be made at a restored bulkhead follow it. -/
def State.moveGrants (s : State) (p old new : Nat) : State :=
  let mv := fun (c : CoreId) => if isCompute c ∧ bulkheadOf c = old then moveCore c new else c
  { s with engine := s.engine.map (fun e => (e.1,
      match e.2.phase, e.2.members with
      | .grant left, m :: _ => if m.part = some p then { e.2 with phase := .grant (left.map mv) } else e.2
      | _, _ => e.2)) }

/-- Restore virtual bulkheads from their images (R427): the state, and the virtual cores lost. -/
def State.restoreRegion (s : State) (p : Nat) (vs : List Nat) : State × List Nat :=
  let x := s.part p
  let l := x.landing vs
  let s0 := vs.foldl (fun q v => q.clearClusters (x.pbh v)) s
  let r := l.foldl (fun (q : State × List Nat) e =>
    let z := q.1.restoreCore p e.1 e.2
    (z.1, if z.2 then q.2 ++ [e.1] else q.2)) (s0, [])
  let s1 := vs.foldl (fun q v =>
    match x.images.find (coreAtXY (v % 8 * 16) (v / 8 * 16)) with
    | some i => q.moveGrants p (bulkheadOf i.home) (x.pbh v)
    | none => q) r.1
  let s2 := s1.modPart p (fun y => vs.foldl (fun y v => y.setEntry v 1) y)
  let s3 := s2.replayAll p vs x.images r.2
  (l.foldl (fun q e => q.modCore e.2 (fun y => { y with halted := false })) s3, r.2)

end Sys2Proof.Machine
end

