-- ==== Sys2Proof/Machine/Partition.lean ====
section
/-! DEFINITION. Writes to partition registers and the commands (15_system R406, R410, R411, R416, R421, R427, R428; 13_tasks R343; 07_access
R209; 16_package R433, R434, R448). A command is carried out for the thread whose MTC sent it; the host bridge sends the same commands
for no thread (R448). -/

namespace Sys2Proof.Machine

/-! ### Carrying a command out (R410) -/

/-- A sent command matches a step. -/
def PendingCmd.is (q : PendingCmd) (reg : Nat) (subject : Option Nat) (w : Word) : Bool := q.reg == reg && q.part == subject && q.word == w

/-- The oldest matching command, begun or not. -/
def State.findCommand (s : State) (reg : Nat) (subject : Option Nat) (w : Word) (begun : Bool) : Option PendingCmd :=
  s.commands.find? (fun q => q.is reg subject w && q.region.isSome == begun)

/-- The result word reaches its register. -/
def State.setResult (s : State) (reg : Nat) (part : Option Nat) (v : Word) : State :=
  let p := part.getD 0
  match reg with
  | 0x113 => s.modPart p (fun y => { y with tlbinvR := v })
  | 0x11B => s.modPart p (fun y => { y with qcfgR := v })
  | 0x11C => s.modPart p (fun y => { y with rcbadmR := v })
  | 0x11E => s.modPart p (fun y => { y with preemptR := v })
  | 0x11F => s.modPart p (fun y => { y with resumeR := v })
  | 0x202 => { s with pkg := { s.pkg with partctlR := v } }
  | 0x203 => { s with pkg := { s.pkg with mcbindR := v } }
  | 0x242 => { s with pkg := { s.pkg with bhcmdR := v } }
  | _ => s

/-- The thread that waits for a command goes on. -/
def State.releaseCommand (s : State) (q : PendingCmd) : State :=
  let t := s.slot q.core q.slot
  match t.st, t.wait with
  | .blocked, .command r => if t.gen = q.gen then s.retire q.core q.slot r else s
  | _, _ => s

/-- No thread sent the command: it came through the host bridge. -/
def fromHost (q : Option PendingCmd) : Bool := match q with | some c => c.core == selfCoord | none => true

/-- A command is done: its journal entry (R448), its result, and its thread. FUNC is 0 for a context and 1, the physical function, for a command
that no thread sent (log 89, DEDUCED). -/
def State.finish (s : State) (q : Option PendingCmd) (reg : Nat) (subject : Option Nat) (w v : Word) : State :=
  let s1 := if isJournalled reg then s.journalEntry reg w (bf v 7 0) (if fromHost q then 1 else 0) else s
  let s2 := s1.setResult reg subject v
  match q with
  | some c => ({ s2 with commands := s2.commands.erase c }).releaseCommand c
  | none => s2

/-- A register written with no result: the write is applied, and its thread goes on. -/
def State.applyWrite (s : State) (reg : Nat) (subject : Option Nat) (w : Word) (act : State → State) : State :=
  (act s).finish (s.findCommand reg subject w false) reg subject w 0

/-- A command carried out in one step. -/
def State.command (s : State) (reg : Nat) (subject : Option Nat) (w : Word) (act : State → State × Word) : State :=
  let r := act s
  r.1.finish (s.findCommand reg subject w false) reg subject w r.2

/-! ### Partition registers (R406, R416) -/

/-- A partition register without a rule of its own. -/
def Part.writeRegister (p : Part) (n : Nat) (v : Word) : Part :=
  match n with
  | 0x110 => { p with srseed := v }
  | 0x111 => { p with ptroot1 := keepf v 47 12 ||| keepf v 0 0 }
  | 0x112 => { p with ptroot2 := keepf v 47 12 ||| keepf v 0 0 }
  | 0x117 => { p with fqdrop := p.fqdrop &&& ~~~v }
  | 0x118 => { p with linbase := keepf v 47 5 }
  | 0x11D => { p with ctxarea := keepf v 47 16 }
  | _ => p

/-- PARTITION_REGISTER_WRITE (R410). -/
def execPartitionRegisterWrite (p : Nat) (n : BitVec 14) (v : Word) (s : State) : Result :=
  .next (if [0x110, 0x111, 0x112, 0x117, 0x118, 0x11D].contains n.toNat then
      s.applyWrite n.toNat (some p) v (fun s => s.modPart p (fun y => y.writeRegister n.toNat v))
    else s)

/-- A write to FQBASE or FQSIZE empties the queue (R416). -/
def Part.writeQueue (p : Part) (size : Bool) (v : Word) : Part :=
  let q := { p with fqhead := 0, fqtail := 0 }
  if size then { q with fqsize := keepf v 4 0 } else { q with fqbase := keepf v 47 6 }

/-- FAULT_QUEUE_CONFIG_WRITE (R416). -/
def execFaultQueueConfigWrite (p : Nat) (size : Bool) (v : Word) (s : State) : Result :=
  .next (s.applyWrite (if size then 0x115 else 0x114) (some p) v (fun s => s.modPart p (fun y => y.writeQueue size v)))

/-- FQTAIL, clamped between FQHEAD - 2^FQSIZE and FQHEAD (R416). -/
def Part.writeTail (p : Part) (v : Word) : Part :=
  let head := bf p.fqhead 47 0
  { p with fqtail := BitVec.ofNat 64 (min head (max (head - p.fqEntries) (bf v 47 0))) }

/-- FQTAIL_WRITE (R416). -/
def execFqtailWrite (p : Nat) (v : Word) (s : State) : Result :=
  .next (s.applyWrite 0x120 (some p) v (fun s => s.modPart p (fun y => y.writeTail v)))

/-- LINSIZE_WRITE (R406): HEAD is 0, and no record of the old ring is awaited. -/
def execLinsizeWrite (p : Nat) (v : Word) (s : State) : Result :=
  .next (s.applyWrite 0x119 (some p) v (fun s => s.modPart p (fun y => { y with linsize := keepf v 4 0, linhead := 0, linOpen := [] })))

/-! ### TLBINV (R209, R411) -/

/-- The word names an entry. -/
def TlbEntry.named (e : TlbEntry) (w : Word) : Bool :=
  e.cls == bf w 59 58 && (bit w 63 || (if e.big then e.vbase / 32 == bf w 47 21 else e.vbase == bf w 47 16))

/-- The word names a pointer: its table lies on the walk of the page. -/
def Pointer.named (e : Pointer) (w : Word) : Bool :=
  e.cls == bf w 59 58 && (bit w 63 || e.top == bf w 47 16 * 2 ^ 16 / e.span)

/-- A cluster or attach port works for a partition. -/
def State.clusterIn (s : State) (p cl : Nat) : Bool := s.partOf (clusterCore cl 0) 8 == some p

/-- Some CTU of the partition holds a 2 MiB leaf that the word names. -/
def State.bigNamed (s : State) (p : Nat) (w : Word) : Bool :=
  s.clusters.any (fun e => s.clusterIn p e.1 && e.2.tlb.any (fun t => t.big && t.named w))

/-- A command in progress is pinned on a page that the word names. -/
def State.pinned (s : State) (p : Nat) (w : Word) (cmd : EngCmd) : Bool :=
  let big := s.bigNamed p w
  cmd.phase != .complete && cmd.phase != .saved && cmd.live.any (fun m => m.part == some p)
    && (s.commandGranules { cmd with members := cmd.live }).any (fun g =>
      gaClass g.1 == bf w 59 58 && (bit w 63 || bf g.1 47 16 == bf w 47 16 || (big && bf g.1 47 21 == bf w 47 21)))

/-- A chained load of the partition is in progress whose first pointer lies on a page that the word names (R208). -/
def State.chainPinned (s : State) (p : Nat) (w : Word) : Bool :=
  let big := s.bigNamed p w
  s.cores.any (fun e => (List.range 16).any (fun k =>
    match (e.2.slot k).wait with
    | .reply _ _ (.chain ga _ _ _ _ _ _) _ =>
      s.partOf e.1 k == some p && gaClass ga == bf w 59 58
        && (bit w 63 || bf ga 47 16 == bf w 47 16 || (big && bf ga 47 21 == bf w 47 21))
    | _ => false))

/-- The invalidation must still wait (R209): for a command or a chain on a page it names, and for every walk in progress in the partition's CTUs. -/
def State.tlbBusy (s : State) (p : Nat) (w : Word) : Bool :=
  s.engine.any (fun e => s.pinned p w e.2) || s.chainPinned p w || s.clusters.any (fun e => s.clusterIn p e.1 && !e.2.walks.isEmpty)

/-- The walks in progress still serve their requests, but their results are not stored (R209). -/
def State.spoilWalks (s : State) (p : Nat) : State :=
  { s with clusters := s.clusters.map (fun e =>
      (e.1, if s.clusterIn p e.1 then { e.2 with walks := e.2.walks.map (fun x => { x with keep := false }) } else e.2)) }

/-- Remove the named entries of every CTU of the partition, in its TLB, its pointer cache, and what serves one thread alone. -/
def State.invalidate (s : State) (p : Nat) (w : Word) : State :=
  { s with clusters := s.clusters.map (fun e =>
      (e.1, if s.clusterIn p e.1 then { e.2 with tlb := e.2.tlb.filter (fun t => !t.named w), ptrs := e.2.ptrs.filter (fun t => !t.named w),
                                                 spares := e.2.spares.filter (fun t => !t.leaf.named w) } else e.2)) }

/-- TLBINV (R209). -/
def execTlbinv (p : Nat) (w : Word) (s : State) : Result :=
  .next (if bf w 59 58 = 0 ∨ bf w 59 58 = 3 then s.command 0x113 (some p) w (fun s => (s, 2))
    else if s.tlbBusy p w then
      (if s.commands.any (fun q => q.reg == 0x113 && q.part == some p && q.word == w) then s.spoilWalks p else s)
    else s.command 0x113 (some p) w (fun s => (s.invalidate p w, 0)))

/-! ### QCFG (R366, R411) -/

/-- The effect of QCFG. -/
def State.configureQueue (s : State) (p : Nat) (w : Word) : State × Word :=
  let q := bf w 9 0
  let cap := bf w 30 10
  let h := (s.part p).queues.getD q HwQueue.reset
  let old := h.capacity * 2 ^ 32
  if 2 ^ 20 < cap then (s, BitVec.ofNat 64 (2 + old))
  else if cap < h.entries.length then (s, BitVec.ofNat 64 (3 + old))
  else (s.modPart p (fun y => { y with queues := y.queues.put q { h with capacity := cap } }), BitVec.ofNat 64 old)

/-- QCFG. -/
def execQcfg (p : Nat) (w : Word) (s : State) : Result := .next (s.command 0x11B (some p) w (fun s => s.configureQueue p w))

/-! ### RCB admission (R342, R343) -/

/-- The fields of an RCB at level 0, or under its parent's effective ones. -/
def rcbOf (ws : List Word) (parent : Option Rcb) : Rcb :=
  let g := fun (i : Nat) => ws.getD i 0
  let own := fun (i : Nat) => parent.isNone || bit (g 0) (8 + i)
  let up := parent.getD ⟨0, 0, 0, 0, 0, 0, 0, 0, 0, 0, [], [], false⟩
  { level := bf (g 0) 2 0
    prio := if own 3 then bf (g 0) 7 4 else up.prio
    sigmode := if own 7 then bf (g 0) 17 16 else up.sigmode
    parent := g 1
    bhmask := if own 0 then g 2 else up.bhmask
    cores := if own 1 then bf (g 3) 31 0 else up.cores
    share := if own 2 then bf (g 3) 39 32 else up.share
    keyns := if own 5 then bf (g 3) 63 48 else up.keyns
    hcore := if own 4 then bf (g 4) 18 4 else up.hcore
    hmb := if own 4 then bf (g 4) 21 20 else up.hmb
    tbase := if own 6 then (List.range 8).map (fun n => g (8 + 2 * n)) else up.tbase
    tlim := if own 6 then (List.range 8).map (fun n => g (9 + 2 * n)) else up.tlim
    withdrawn := false }

/-- The check of admission, with the admitted parent: the RCB, or the CODE of the refusal. -/
def Part.checkRcb (p : Part) (ga : Word) (ws : List Word) (parent : Option Rcb) : Except Nat Rcb :=
  if bf (ws.getD 0 0) 2 0 = 0 then
    let r := rcbOf ws none
    if !sameRcb ga p.root then .error 4 else if r.sigmode = 3 then .error 7 else .ok r
  else match parent with
    | none => .error 8
    | some up =>
      let r := rcbOf ws (some up)
      if up.withdrawn then .error 8
      else if r.level ≠ up.level + 1 then .error 4
      else if r.bhmask &&& ~~~up.bhmask ≠ 0 then .error 5
      else if up.cores < r.cores ∨ up.share < r.share then .error 6
      else if r.sigmode = 3 then .error 7
      else .ok r

/-- Replace or add an admitted RCB. -/
def Part.addRcb (p : Part) (ga : Word) (r : Rcb) : Part := { p with rcbs := p.rcbs.filter (fun e => !sameRcb e.1 ga) ++ [(ga, r)] }

/-- Admit the RCB at a GA: the state and the CODE. A GA that names no readable block of HBM4E is an invalid field. -/
def State.admitRcb (s : State) (p : Nat) (ga : Word) : State × Nat :=
  if gaClass ga ≠ 1 ∨ !s.isOwnPkg (gaPkg ga) then (s, 2)
  else match s.physical (some p) ga 0 with
    | none => (s, 2)
    | some pa =>
      if s.coreAbsent (homeOf pa) ∨ s.isPoisoned pa 256 then (s, 2)
      else match (s.part p).checkRcb ga (s.readWords pa 32) (s.rcbNamed p (s.readWord (pa + 8))) with
        | .error c => (s.carafeAccess pa, c)
        | .ok r => ((s.carafeAccess pa).modPart p (fun y => y.addRcb ga r), 0)

/-- RCB_ADMIT (R343): bit 0 of the word is 0. -/
def execRcbAdmit (p : Nat) (w : Word) (s : State) : Result :=
  .next (if bit w 0 then s
    else s.command 0x11C (some p) w (fun s =>
      if bf w 7 0 ≠ 0 then (s, 2)
      else
        let r := s.admitRcb p w
        (r.1, BitVec.ofNat 64 r.2)))

/-- RCB_WITHDRAW (R411): bit 0 of the word is 1. -/
def execRcbWithdraw (p : Nat) (w : Word) (s : State) : Result :=
  let ga := keepf w 63 8
  .next (if bit w 0 = false then s
    else s.command 0x11C (some p) w (fun s =>
      if bf w 7 1 ≠ 0 ∨ !s.isOwnPkg (gaPkg ga) ∨ (s.part p).admitted ga = false then (s, 2)
      else (s.modPart p (fun y => { y with rcbs := y.rcbs.map (fun e => if sameRcb e.1 ga then (e.1, { e.2 with withdrawn := true }) else e) }), 0)))

/-! ### PREEMPT and RESUME (R411, R421, R427) -/

/-- A begun pre-emption of the partition shares a virtual bulkhead with a mask (R411). -/
def State.regionBusy (s : State) (p : Nat) (mask : BitVec 64) : Bool :=
  s.commands.any (fun q => match q.region with
    | some vs => vs.any (fun v => bit mask v)
        && (q.part == some p || (q.part.isNone && bf q.word 9 4 == p))
    | none => false)

/-- The core a command came from lies in the region. -/
def State.issuedInside (s : State) (p : Nat) (q : Option PendingCmd) (vs : List Nat) : Bool :=
  match q with
  | some c => ((s.part p).regionCores vs).contains c.core
  | none => false

/-- A region begins to halt for a command; one for no thread is entered in the list of commands. -/
def State.begin_ (s : State) (q : Option PendingCmd) (reg : Nat) (subject : Option Nat) (w : Word) (p : Nat) (vs : List Nat) : State :=
  let s1 := s.haltRegion p vs
  match q with
  | some c => { s1 with commands := s1.commands.map (fun x => if x = c then { x with region := some vs } else x) }
  | none => { s1 with commands := s1.commands ++ [⟨reg, subject, w, selfCoord, 0, 16, some vs⟩] }

/-- The next thing a halting command does: a new one is checked and begins to halt its region, one that has begun ends once the region
is drained. `check` gives the CODE or the region; `end_` the state and the result. -/
def State.halting (s : State) (reg : Nat) (subject : Option Nat) (w : Word) (p : Nat) (check : Option PendingCmd → Except Nat (List Nat))
    (end_ : State → List Nat → State × Word) : State :=
  let begun := s.findCommand reg subject w true
  let waiting := s.findCommand reg subject w false
  match waiting, begun with
  | none, some c =>
    let vs := c.region.getD []
    if s.drained p vs then
      let r := end_ s vs
      r.1.finish begun reg subject w r.2
    else s
  | _, _ =>
    match check waiting with
    | .error code => s.finish waiting reg subject w (BitVec.ofNat 64 code)
    | .ok [] =>
      let r := end_ s []
      r.1.finish waiting reg subject w r.2
    | .ok vs => s.begin_ waiting reg subject w p vs

/-- The mapped virtual bulkheads of a mask whose physical bulkhead the partition owns: an entry of a window names a bulkhead of another one
(16_package R434, R435). -/
def State.ownMapped (s : State) (p : Nat) (mask : BitVec 64) : List Nat :=
  ((s.part p).inState mask 1).filter (fun v => (s.bulkhead ((s.part p).pbh v)).owner == some p)

/-- The checks of a PREEMPT: CODE, or the mapped virtual bulkheads of the RCB's effective BHMASK. -/
def State.preemptRegion (s : State) (p : Nat) (w : Word) (q : Option PendingCmd) : Except Nat (List Nat) :=
  match s.rcbNamed p w with
  | none => .error 2
  | some r =>
    let vs := s.ownMapped p r.bhmask
    if bf w 7 0 ≠ 0 ∨ r.withdrawn then .error 2
    else if s.regionBusy p r.bhmask then .error 1
    else if s.issuedInside p q vs then .error 3
    else .ok vs

/-- PREEMPT (R421-R424): the region halts; once it is drained every image is written and the result counts the cores saved. -/
def execPreempt (p : Nat) (w : Word) (s : State) : Result :=
  .next (s.halting 0x11E (some p) w p (s.preemptRegion p w) (fun s vs => (s.saveRegion p vs, BitVec.ofNat 64 (256 * vs.length % 2 ^ 16 * 2 ^ 16))))

/-- A virtual bulkhead lies in the partition's rectangle. -/
def Part.inRectangle (p : Part) (v : Nat) : Bool := decide (v % 8 < p.width ∧ v / 8 < p.height)

/-- A physical bulkhead is reserved for a partition and present (R411). -/
def State.reservedFor (s : State) (p b : Nat) : Bool := (s.bulkhead b).owner == some p && !(s.bulkhead b).absent

/-- The checks of a RESUME: CODE, or the held virtual bulkheads of the RCB's effective BHMASK. -/
def State.resumeRegion (s : State) (p : Nat) (w : Word) : Except Nat (List Nat) :=
  let x := s.part p
  match s.rcbNamed p w with
  | none => .error 2
  | some r =>
    let held := x.inState r.bhmask 2
    if bf w 7 0 ≠ 0 ∨ r.withdrawn then .error 2
    else if s.regionBusy p r.bhmask then .error 1
    else if (x.inState r.bhmask 0).any x.inRectangle ∨ held.any (fun v => !s.reservedFor p (x.pbh v)) then .error 3
    else .ok held

/-- RESUME (R427): the held virtual bulkheads are restored; it waits while no generation qualifies for a slot (03_strands R89). -/
def execResume (p : Nat) (w : Word) (s : State) : Result :=
  .next (match s.resumeRegion p w with
    | .error code => s.command 0x11F (some p) w (fun s => (s, BitVec.ofNat 64 code))
    | .ok vs =>
      if s.canLand ((s.part p).landing vs) then
        s.command 0x11F (some p) w (fun s =>
          let r := s.restoreRegion p vs
          (r.1, BitVec.ofNat 64 ((256 * vs.length - r.2.length) % 2 ^ 16 * 2 ^ 16 + r.2.length % 2 ^ 16 * 2 ^ 32)))
      else s)

/-! ### The partition map (R202, R428) -/

/-- CTUs of a bulkhead hold no translation. -/
def State.flushBulkhead (s : State) (b : Nat) : State :=
  (bulkheadClusters b).foldl (fun q cl => q.modCluster cl (fun u => { u with tlb := [], ptrs := [], faults := [] })) s

/-- Another partition's contexts run on a bulkhead: it maps it. -/
def State.mappedElsewhere (s : State) (p b : Nat) : Bool :=
  s.parts.any (fun e => e.1 != p && (s.bulkhead b).owner == some e.1
    && (List.range 64).any (fun v => entryState (e.2.entry v) == 1 && e.2.pbh v == b))

/-- A map entry now names a bulkhead: it is reserved for the partition, unless another partition's cores run there and the entry only
opens a window (16_package R435). -/
def State.claimBulkhead (s : State) (p b : Nat) : State :=
  if (s.bulkhead b).owner = some p ∨ s.mappedElsewhere p b = true then s
  else (s.flushBulkhead b).modBulkhead b (fun h => { h with owner := some p })

/-- A bulkhead that no entry of its partition names any more belongs to none. -/
def State.dropBulkhead (s : State) (p b : Nat) : State :=
  if (s.bulkhead b).owner = some p ∧ (List.range 64).all (fun v => entryState ((s.part p).entry v) == 0 || (s.part p).pbh v != b) then
    s.modBulkhead b (fun h => { h with owner := none })
  else s

/-- Write a map entry; a held virtual bulkhead that is mapped is restored before the entry is used. -/
def State.writeMap (s : State) (p v : Nat) (w : Word) : State :=
  let x := s.part p
  let st := entryState (w.setWidth 8)
  let old := x.pbh v
  let set := fun (s : State) (n : Nat) => s.modPart p (fun y => { y with map := y.map.put v (BitVec.ofNat 8 (n * 64 + bf w 5 0)) })
  if entryState (x.entry v) = 2 ∧ st = 1 ∧ x.images.any (fun e => vbhOf e.1 == v) then
    let s1 := ((set s 2).claimBulkhead p (bf w 5 0)).dropBulkhead p old
    (s1.restoreRegion p [v]).1
  else
    let s1 := set s (bf w 7 6)
    let s2 := if st = 0 then s1 else s1.claimBulkhead p (bf w 5 0)
    s2.dropBulkhead p old

/-- PMAPDAT_WRITE (R428). -/
def execPmapdatWrite (p v : Nat) (w : Word) (s : State) : Result :=
  let x := { s.part p with map := (s.part p).map.put v (w.setWidth 8) }
  .next (if entryState ((s.part p).entry v) = 2 ∧ entryState (w.setWidth 8) = 1 ∧ s.canLand (x.landing [v]) = false then s
    else s.applyWrite 0x201 (some (p * 64 + v)) w (fun s => s.writeMap p v w))

/-! ### PARTCTL (16_package R432-R434) -/

/-- Fields of a PARTCTL word. -/
def pcOp (w : Word) : Nat := bf w 3 0
def pcPart (w : Word) : Nat := bf w 9 4
def pcRow (w : Word) : Nat := bf w 12 10
def pcCol (w : Word) : Nat := bf w 15 13
def pcHeight (w : Word) : Nat := bf w 18 16 + 1
def pcWidth (w : Word) : Nat := bf w 21 19 + 1

/-- The rectangle of a create: virtual bulkhead and physical bulkhead. -/
def createRectangle (w : Word) : List (Nat × Nat) :=
  (List.range (pcHeight w)).flatMap (fun y => (List.range (pcWidth w)).map (fun x => (8 * y + x, 8 * (pcRow w + y) + pcCol w + x)))

/-- The refusals of R433 before the root RCB is read. -/
def State.createCode (s : State) (w : Word) : Nat :=
  let bs := (createRectangle w).map (fun e => e.2)
  if (s.part (pcPart w)).used ∨ 8 < pcRow w + pcHeight w ∨ 8 < pcCol w + pcWidth w ∨ bs.any (fun b => (s.bulkhead b).owner.isSome) then 3
  else if bs.any (fun b => (s.bulkhead b).absent) then 4
  else 0

/-- A route that crosses no fenced die, both ways. -/
def State.homeReachable (s : State) (c h : CoreId) : Bool :=
  let a := attachXY s.pkg.altStacks c
  let b := attachXY s.pkg.altStacks h
  !s.coreAbsent h && !(routeDies a b).any s.dieFenced && !(routeDies b a).any s.dieFenced

/-- UNREACH and GUNREACH of R433. -/
def State.unreachable (s : State) (cores : List CoreId) : Nat :=
  if s.pkg.fencedDies = 0 then 0
  else
    let out := fun (homes : List CoreId) => cores.any (fun c => homes.any (fun h => !s.homeReachable c h))
    let stackList := (List.range 8).filter (fun k => out ((List.range 32).map (carafeCore k)))
    let gates := (List.range 4).filter (fun g => out ((List.range 16).map (fun i => coreAt (16 + g) 0 i)))
    stackList.foldl (fun n k => n + 2 ^ (40 + k)) 0 + gates.foldl (fun n g => n + 2 ^ (48 + g)) 0

/-- The partition that a creation block describes, before its root is admitted. -/
def createPart (w : Word) (ws : List Word) : Part :=
  let g := fun (i : Nat) => ws.getD i 0
  { Part.reset with
    used := true, height := pcHeight w, width := pcWidth w
    map := (createRectangle w).foldl (fun m e => m.put e.1 (BitVec.ofNat 8 (64 + e.2))) []
    srseed := g 20, ptroot1 := keepf (g 18) 47 12 ||| keepf (g 18) 0 0, ptroot2 := keepf (g 19) 47 12 ||| keepf (g 19) 0 0
    root := keepf (g 21) 63 8 }

/-- The first strand (R433): level 1, under the root RCB, with the segments and pc of the creation block. -/
def Slot.firstStrand (t : Slot) (tick n : Nat) (ws : List Word) : Slot :=
  { (t.enter tick n).setSegments (ws.take 16) with pc := keepf (ws.getD 16 0) 63 1, rcbptr := keepf (ws.getD 21 0) 63 8, privst := 1 }

/-- Create a partition: the state and the result word. -/
def State.createPartition (s : State) (w : Word) : State × Word :=
  let pa := 2 ^ 48 + bf w 63 24 * 256
  let p := pcPart w
  let code := s.createCode w
  if code ≠ 0 then (s, BitVec.ofNat 64 code)
  else if !capacityOk 1 (bf w 63 24 * 256) ∨ s.coreAbsent (homeOf pa) ∨ s.isPoisoned pa 256 then (s, 2)
  else
    let ws := s.readWords pa 32
    let x := createPart w ws
    let bs := (createRectangle w).map (fun e => e.2)
    match coreXlate x (bf (ws.getD 17 0) 18 4) with
    | .at_ c =>
      let s1 := bs.foldl (fun q b => (q.flushBulkhead b).modBulkhead b (fun h => { h with owner := some p })) (s.modPart p (fun _ => x))
      let r := s1.admitRcb p x.root
      if r.2 ≠ 0 then (s, BitVec.ofNat 64 (5 + r.2 * 256))
      else
        let cores := bs.flatMap bulkheadCores
        let s2 := cores.foldl (fun q c => q.modCore c (fun y => { y.rooted x.root with colls := [] })) r.1
        (s2.modSlot c 0 (fun t => t.firstStrand s.tick (s2.core c).cycle ws), BitVec.ofNat 64 (s.unreachable cores))
    | _ => (s, 2)

/-- CREATE (R433). -/
def execCreate (w : Word) (s : State) : Result := .next (if pcOp w = 1 then s.command 0x202 none w (fun s => s.createPartition w) else s)

/-- The checks of a destroy: every mapped virtual bulkhead halts. -/
def State.destroyRegion (s : State) (w : Word) (q : Option PendingCmd) : Except Nat (List Nat) :=
  let x := s.part (pcPart w)
  let vs := s.ownMapped (pcPart w) (-1)
  if !x.used then .error 2
  else if s.regionBusy (pcPart w) (-1) then .error 1
  else if s.issuedInside (pcPart w) q vs then .error 3
  else .ok vs

/-- A physical core of a destroyed partition: every context has ended. -/
def State.emptyCore (s : State) (c : CoreId) : State :=
  s.modCore c (fun x => { x.emptied with comp := x.comp.map (fun e => (e.1, { e.2 with st := .free })) })

/-- The contexts of a partition in the user slots of a memory core that MCBIND has bound to it end with it (log 89, DEDUCED). -/
def Core.emptyUsers (x : Core) : Core :=
  { x with slots := Vector.ofFn (fun (k : Fin 16) =>
      let t := x.slot k.val
      if k.val < 8 then t else { Slot.reset with gen := t.gen, outst := t.outst, nextPost := t.nextPost, readyAt := t.readyAt }) }

/-- Everything a partition held is gone (R434). -/
def State.destroyPartition (s : State) (p : Nat) (vs : List Nat) : State :=
  let bs := vs.map (fun v => (s.part p).pbh v)
  let bound := (s.channels.filter (fun e => e.2.bound == some p)).map (fun e => e.1)
  let s0 := bound.foldl (fun q c => q.modCore c Core.emptyUsers) s
  let s1 := (bs.flatMap bulkheadCores).foldl (fun q c => q.emptyCore c) s0
  let s2 := bs.foldl (fun q b => q.clearClusters b) s1
  { s2 with
    parts := s2.parts.put p Part.reset
    bulkheads := s2.bulkheads.map (fun e => (e.1, if e.2.owner = some p then { e.2 with owner := none } else e.2))
    engine := s2.engine.filter (fun e => !e.2.members.all (fun m => m.part == some p))
    colls := s2.colls.filter (fun z => z.part != p) }

/-- DESTROY (R434): halts as a PREEMPT of the root does, and writes no image. -/
def execDestroy (w : Word) (s : State) : Result :=
  .next (if pcOp w = 2 then
      s.halting 0x202 none w (pcPart w) (s.destroyRegion w) (fun s vs => (s.destroyPartition (pcPart w) vs, 0))
    else s)

/-- Extend a partition's virtual rectangle (R434): the state and the CODE. -/
def State.extendPartition (s : State) (w : Word) : State × Word :=
  let p := pcPart w
  let x := s.part p
  if !x.used then (s, 2)
  else if pcHeight w < x.height ∨ pcWidth w < x.width then (s, 3)
  else (s.modPart p (fun y => { y with height := pcHeight w, width := pcWidth w }), 0)

/-- EXTEND (R434). -/
def execExtend (w : Word) (s : State) : Result := .next (if pcOp w = 3 then s.command 0x202 none w (fun s => s.extendPartition w) else s)

/-- The virtual bulkhead of a release. -/
def pcVbh (w : Word) : Nat := bf w 29 24

/-- The checks of a release; a virtual bulkhead that is held already has nothing to save. -/
def State.releaseRegion (s : State) (w : Word) (q : Option PendingCmd) : Except Nat (List Nat) :=
  let x := s.part (pcPart w)
  let v := pcVbh w
  if !x.used ∨ entryState (x.entry v) = 0 then .error 2
  else if s.regionBusy (pcPart w) (BitVec.ofNat 64 (2 ^ v)) then .error 1
  else if entryState (x.entry v) = 2 then .ok []
  else if s.issuedInside (pcPart w) q [v] then .error 3
  else .ok [v]

/-- RELEASE_VIRTUAL_BULKHEAD (R428, R434): saved, and its physical bulkhead leaves the partition. -/
def execReleaseVirtualBulkhead (w : Word) (s : State) : Result :=
  let p := pcPart w
  .next (if pcOp w = 4 then
      s.halting 0x202 none w p (s.releaseRegion w) (fun s vs =>
        let b := (s.part p).pbh (pcVbh w)
        ((s.saveRegion p vs).modBulkhead b (fun h => if h.owner = some p then { h with owner := none } else h), 0))
    else s)

/-! ### MCBIND (R411) -/

/-- The memory core that an MCBIND word names. -/
def mcbindCore (w : Word) : CoreId := carafeCore (bf w 7 5) (bf w 4 0)

/-- Every user slot of a memory core is FREE. -/
def State.userSlotsFree (s : State) (c : CoreId) : Bool := (List.range 16).all (fun k => decide (k < 8) || (s.slot c k).st == .free)

/-- Bind or unbind a memory core: the state and the CODE. Its attach port keeps no translation. -/
def State.bindMemory (s : State) (w : Word) (part : Option Nat) : State × Word :=
  let c := mcbindCore w
  if s.coreAbsent c ∨ part.any (fun p => !(s.part p).used) then (s, 2)
  else if !s.userSlotsFree c then (s, 1)
  else ((s.modChannel c (fun h => { h with bound := part })).modCluster (clusterOf c) (fun u => { u with tlb := [], spares := [], ptrs := [], faults := [] }), 0)

/-- MCBIND_BIND (R411): V is 1. -/
def execMcbindBind (w : Word) (s : State) : Result :=
  .next (if bit w 14 then s.command 0x203 none w (fun s => s.bindMemory w (some (bf w 13 8))) else s)

/-- MCBIND_UNBIND (R411): V is 0. -/
def execMcbindUnbind (w : Word) (s : State) : Result :=
  .next (if bit w 14 then s else s.command 0x203 none w (fun s => s.bindMemory w none))

end Sys2Proof.Machine
end

