-- ==== Sys2Proof/Machine/Package.lean ====
section
/-! DEFINITION. Bulkhead reset and park (16_package R431, R436, R438), the governor (R438-R440), packets of reserved kinds and link errors
(08_messages R214; 16_package R444, R445), group links and their ingress (R450, R451), the host bridge (R452, R453), and bring-up (R446,
R447). -/

namespace Sys2Proof.Machine

/-! ### BHCMD (R431) -/

/-- A sent BHCMD for a bulkhead, begun or not. -/
def State.findBhcmd (s : State) (op bh : Nat) (begun : Bool) : Option PendingCmd :=
  s.commands.find? (fun q => q.reg == 0x242 && bf q.word 3 0 == op && bf q.word 9 4 == bh && q.region.isSome == begun)

/-- The word of a BHCMD. -/
def bhcmdWord (op bh : Nat) : Word := BitVec.ofNat 64 (op + bh * 16)

/-- A BHCMD ends with a CODE. -/
def State.finishBhcmd (s : State) (q : Option PendingCmd) (op bh code : Nat) : State :=
  s.finish q 0x242 none (match q with | some c => c.word | none => bhcmdWord op bh) (BitVec.ofNat 64 code)

/-- A BHCMD begins: it ends with a later step. -/
def State.beginBhcmd (s : State) (q : Option PendingCmd) (op bh : Nat) : State :=
  match q with
  | some c => { s with commands := s.commands.map (fun x => if x = c then { x with region := some [] } else x) }
  | none => { s with commands := s.commands ++ [⟨0x242, none, bhcmdWord op bh, selfCoord, 0, 16, some []⟩] }

/-! ### Bulkhead reset (R436) -/

/-- Keys that the contexts and staging entries of a core hold. -/
def State.dropCoreKeys (s : State) (c : CoreId) : State :=
  let x := s.core c
  let held := x.slots.toList.flatMap (fun t =>
    t.origin.keys.map (fun k => (t.origin.keyns, k))
      ++ (match t.spilled with | some o => o.origin.keys.map (fun k => (o.origin.keyns, k)) | none => []))
  let s1 := held.foldl (fun q e => q.launch (q.dispatcherPacket c (keySlice e.1 e.2) (.keyRelease e.1 e.2))) s
  let s2 := x.staging.foldl (fun q z => q.withdrawStage c z) s1
  x.owed.foldl (fun q o => o.packets.foldl (fun q m => q.launch m) q) s2

/-- Engine commands of a core are lost. -/
def State.dropCommands (s : State) (c : CoreId) : State :=
  (s.engine.map (fun e => e.1)).foldl (fun q id =>
    match q.engine.find id with
    | some cmd => (cmd.onCores [c]).foldl (fun r m =>
        match r.engine.find id with | some g => r.removeMember id g m.core m.entry | none => r) q
    | none => q) s

/-- The record of class 0x54 to the root handler of every partition that mapped the bulkhead. -/
def State.resetRecords (s : State) (b : Nat) : State :=
  s.parts.foldl (fun q e =>
    if (List.range 64).any (fun v => entryState (e.2.entry v) == 1 && e.2.pbh v == b) then
      q.sendRecord (coreAt 16 0 0) (Who.root e.1 0) ⟨0x54, 0, 0, BitVec.ofNat 64 b⟩ 3 false
    else q) s

/-- A core after its bulkhead's reset, which leaves the responses outstanding and what they count against (03_strands R89); its slots name
the root RCB (01_machine R16). -/
def Core.lost (x : Core) (root : Word) : Core :=
  ({ Core.reset with
    dirty := x.dirty
    slots := x.slots.map (fun t => { Slot.reset with gen := t.gen, outst := t.outst, nextPost := t.nextPost }) } : Core).rooted root

/-- Waits of other bulkheads at a core that is lost, those in its waiter table and the pushes held at its port, are answered absent (R437). -/
def State.answerStranded (s : State) (b : Nat) (c : CoreId) : State :=
  let x := s.core c
  let there := fun (h : CoreId) => !(isCompute h && bulkheadOf h == b)
  let s1 := (x.waiters.filter (fun w => there w.core)).foldl (fun q w => q.answerWaiterAs c w .absent 0) s
  (x.heldPush.filterMap (fun e => e.2)).foldl (fun q m => if there m.src then q.answerAbsent m else q) s1

/-- Everything on the cores of a bulkhead is lost. -/
def State.loseBulkhead (s : State) (b : Nat) : State :=
  let cores := bulkheadCores b
  let s1 := cores.foldl (fun q c => ((q.answerStranded b c).dropCoreKeys c).dropCommands c) s
  let s2 := cores.foldl (fun q c => q.modCore c (fun x => x.lost (s.rootOf b))) s1
  let s3 := s2.clearClusters b
  { s3 with commands := s3.commands.map (fun q => if cores.contains q.core then { q with gen := 16 } else q) }

/-- The refusal of a BHCMD before its own checks: 4 absent, 5 in reset, 1 entering or leaving a park. -/
def Bulkhead.refusal (b : Bulkhead) : Option Nat :=
  if b.absent then some 4 else if b.park = 3 then some 5 else if b.park = 4 then some 1 else none

/-- BULKHEAD_RESET (R436): accepted, and from now on the gates answer absent. -/
def execBulkheadReset (b : Nat) (s : State) : Result :=
  let q := s.findBhcmd 1 b false
  .next (match (s.bulkhead b).refusal with
    | some code => s.finishBhcmd q 1 b code
    | none =>
      (((s.loseBulkhead b).resetRecords b).modBulkhead b (fun h => { h with park := 3, stopped := false, raising := false })).beginBhcmd q 1 b)

/-- Every scratchpad of a bulkhead is zero. -/
def State.scrubBulkhead (s : State) (b : Nat) : State :=
  (bulkheadCores b).foldl (fun q c => (q.zeroBytes (scratchAddr c 0) 0x80000).modCore c (fun x => { x with dirty := 0 })) s

/-- BULKHEAD_RESET_COMPLETE (R436): the scrub is done and the bulkhead is in service. -/
def execBulkheadResetComplete (b : Nat) (s : State) : Result :=
  .next (if (s.bulkhead b).park = 3 then
      ((s.scrubBulkhead b).modBulkhead b (fun h => { h with park := 0, dirty := false })).finishBhcmd (s.findBhcmd 1 b true) 1 b 0
    else s)

/-! ### Park (R431, R438) -/

/-- What forbids a park (R431): an occupied slot, an active scoreboard entry, or a map entry with STATE 1. -/
def State.parkBusy (s : State) (b : Nat) : Bool :=
  (bulkheadCores b).any (fun c => (s.core c).slots.toList.any (fun t => t.st != .free) || !(s.core c).sb.isEmpty)
    || s.parts.any (fun e => (List.range 64).any (fun v => entryState (e.2.entry v) == 1 && e.2.pbh v == b))

/-- A park begins: OP 2 for K1 or 3 for K2. From K2, the way to K1 includes the scrub of its exit: target 5 (R438). -/
def State.park (s : State) (b level : Nat) : State :=
  let q := s.findBhcmd (level + 1) b false
  match (s.bulkhead b).refusal with
  | some code => s.finishBhcmd q (level + 1) b code
  | none =>
    if (s.bulkhead b).park = level then s.finishBhcmd q (level + 1) b 5
    else if s.parkBusy b then s.finishBhcmd q (level + 1) b 3
    else (s.modBulkhead b (fun h => { h with target := if h.park = 2 ∧ level = 1 then 5 else level, park := 4, raising := false })).beginBhcmd q (level + 1) b

/-- PARK_K1. -/
def execParkK1 (b : Nat) (s : State) : Result := .next (s.park b 1)

/-- PARK_K2. -/
def execParkK2 (b : Nat) (s : State) : Result := .next (s.park b 2)

/-- UNPARK (R431): target 0, and 3 where the exit includes the scrub of K2. -/
def execUnpark (b : Nat) (s : State) : Result :=
  let q := s.findBhcmd 4 b false
  let h := s.bulkhead b
  .next (match h.refusal with
    | some code => s.finishBhcmd q 4 b code
    | none =>
      if h.park = 0 then s.finishBhcmd q 4 b 5
      else (s.modBulkhead b (fun h => { h with target := if h.park = 2 then 3 else 0, park := 4 })).beginBhcmd q 4 b)

/-- PARK_TRANSITION_COMPLETE (R438): K2 sets DIRTY, and its exit has scrubbed the scratchpads. -/
def execParkTransitionComplete (b : Nat) (s : State) : Result :=
  let h := s.bulkhead b
  .next (if h.park = 4 then
      (match h.target with
       | 1 => (s.modBulkhead b (fun h => { h with park := 1 })).finishBhcmd (s.findBhcmd 2 b true) 2 b 0
       | 2 => (s.modBulkhead b (fun h => { h with park := 2, dirty := true })).finishBhcmd (s.findBhcmd 3 b true) 3 b 0
       | 5 => ((s.scrubBulkhead b).modBulkhead b (fun h => { h with park := 1, dirty := false })).finishBhcmd (s.findBhcmd 2 b true) 2 b 0
       | 3 => ((s.scrubBulkhead b).modBulkhead b (fun h => { h with park := 0, dirty := false })).finishBhcmd (s.findBhcmd 4 b true) 4 b 0
       | _ => (s.modBulkhead b (fun h => { h with park := 0 })).finishBhcmd (s.findBhcmd 4 b true) 4 b 0)
    else s)

/-! ### The governor (R438-R440) -/

/-- The key of a bulkhead plus 1: the highest effective PRIO among the admitted RCBs whose BHMASK maps onto it; 0 for none (log 74, DESIGN CHOICE). -/
def State.governKey (s : State) (b : Nat) : Nat :=
  match (s.bulkhead b).owner with
  | none => 0
  | some p =>
    let x := s.part p
    x.rcbs.foldl (fun n e =>
      if !e.2.withdrawn && (List.range 64).any (fun v => bit e.2.bhmask v && entryState (x.entry v) == 1 && x.pbh v == b) then max n (e.2.prio + 1) else n) 0

/-- A bulkhead is running: in service, its clock not stopped. -/
def Bulkhead.running (b : Bulkhead) : Bool := b.park == 0 && !b.absent && !b.stopped

/-- The least or the greatest key among bulkheads; a tie goes to the higher number. -/
def State.chooseBulkhead (s : State) (greatest : Bool) (ok : Bulkhead → Bool) : Option Nat :=
  (List.range 64).foldl (fun (best : Option Nat) b =>
    if ok (s.bulkhead b) then
      (match best with
       | none => some b
       | some a =>
         if (if greatest then s.governKey a ≤ s.governKey b else s.governKey b ≤ s.governKey a) then some b else best)
    else best) none

/-- The governor steps down or stops a bulkhead. -/
def State.stepDown (s : State) : State :=
  match s.chooseBulkhead false (fun b => b.running && decide (b.pcur < 4)) with
  | some b =>
    let s1 := s.modBulkhead b (fun h => { h with pcur := h.pcur + 1, raising := false })
    { s1 with pkg := { s1.pkg with steps := s1.pkg.steps + 1 } }
  | none =>
    match s.chooseBulkhead false Bulkhead.running with
    | some b => (s.modBulkhead b (fun h => { h with stopped := true })).journalEntry 0xF08 (BitVec.ofNat 64 b) 0 0
    | none => s

/-- The governor restarts or raises a bulkhead; a raise keeps the old clock until the voltage is ready. -/
def State.stepUp (s : State) : State :=
  match s.chooseBulkhead true (fun b => b.stopped && b.park == 0) with
  | some b => s.modBulkhead b (fun h => { h with stopped := false })
  | none =>
    match s.chooseBulkhead true (fun b => b.running && decide (b.preq < b.pcur) && !b.raising) with
    | some b => s.modBulkhead b (fun h => { h with raising := true })
    | none => s

/-- GOVERNOR_SAMPLE (R440): `low` says that the draw has been below 0.95 of the ceiling throughout the last 100 µs. -/
def execGovernorSample (draw : BitVec 11) (low : Bool) (s : State) : Result :=
  let watts := bf s.pkg.pwrceil 10 0
  let overDraw := decide (watts < draw.toNat)
  let s1 := { s with pkg := { s.pkg with draw := draw, overDraw := overDraw } }
  .next (if overDraw then s1.stepDown else if low = true ∧ 100 * draw.toNat < 95 * watts then s1.stepUp else s1)

/-- PSTATE_TRANSITION_COMPLETE (R438): the clock switches to the next higher state. -/
def execPstateTransitionComplete (b : Nat) (s : State) : Result :=
  let h := s.bulkhead b
  .next (if h.raising = true ∧ h.preq < h.pcur then s.modBulkhead b (fun h => { h with pcur := h.pcur - 1, raising := false }) else s)

/-! ### Link reliability (R214, R444, R445) -/

/-- Add 1 to a saturating 16-bit counter of RASCNT (R429). -/
def State.countRas (s : State) (lo : Nat) : State :=
  let v := bf s.pkg.rascnt (lo + 15) lo
  { s with pkg := { s.pkg with rascnt := setf s.pkg.rascnt (lo + 15) lo (min 0xFFFF (v + 1)) } }

/-- Change a link. -/
def State.modLink (s : State) (n : Nat) (f : Link → Link) : State :=
  { s with pkg := { s.pkg with links := s.pkg.links.put n (f (s.pkg.links.getD n Link.reset)) } }

/-- RESERVED_KIND_PACKET (R214, R444): the packet is gone and counts as one replay. -/
def execReservedKindPacket (link : Nat) (kind : BitVec 5) (s : State) : Result :=
  .next (if 17 ≤ kind.toNat then s.modLink link (fun l => { l with replays := l.replays + 1 }) else s)

/-- FLIT_CRC_ERROR (R444): the flits are replayed in their order, so nothing but the count changes. -/
def execFlitCrcError (link : Nat) (s : State) : Result := .next (s.modLink link (fun l => { l with replays := l.replays + 1 }))

/-- REPLAY_WINDOW (R445). -/
def execReplayWindow (link : Nat) (s : State) : Result :=
  let n := (s.pkg.links.getD link Link.reset).replays
  let s1 := s.modLink link (fun l => { l with replays := 0, retraining := l.retraining || (decide (256 ≤ n) && !l.failed) })
  .next (if 16 ≤ n then (s1.countRas 32).journalEntry 0xF07 (BitVec.ofNat 64 link) 0 0 else s1)

/-- RETRAIN_COMPLETE (R445): a failure is tried again, and the third in succession fails the link. -/
def execRetrainComplete (link : Nat) (ok : Bool) (s : State) : Result :=
  let l := s.pkg.links.getD link Link.reset
  .next (if l.retraining = false then s
    else if ok then (s.modLink link (fun l => { l with fails := 0, retraining := false })).journalEntry 0xF03 (BitVec.ofNat 64 link) 0 0
    else if 2 ≤ l.fails then
      (s.modLink link (fun l => { l with fails := l.fails + 1, retraining := false, failed := true })).journalEntry 0xF04 (BitVec.ofNat 64 link) 0 0
    else s.modLink link (fun l => { l with fails := l.fails + 1 }))

/-! ### Group links (R450) -/

/-- GRPDAT under its access codes. -/
def groupWord (v : Word) : Word := keepf v 63 63 ||| keepf v 8 0

/-- What waited for a port of a peer leaves. -/
def State.releasePort (s : State) (peer : Nat) : State :=
  (s.portHeld.filter (fun m => pkgOf m.dst == peer)).foldl (fun q m => q.launch m)
    { s with portHeld := s.portHeld.filter (fun m => pkgOf m.dst != peer) }

/-- GRPDAT_WRITE (R450): the step takes place once the old port has drained. -/
def execGrpdatWrite (peer : Nat) (v : Word) (s : State) : Result :=
  .next (s.applyWrite 0x249 (some peer) v (fun s =>
    ({ s with pkg := { s.pkg with groups := s.pkg.groups.put peer (groupWord v), groupAlt := s.pkg.groupAlt.filter (fun n => n != peer)
                                  groupDown := s.pkg.groupDown.filter (fun n => n != peer) } }).releasePort peer))

/-- A packet left for a peer through its port in use, at a place among what has left that `lost` names. -/
def State.lostOn (s : State) (peer : Nat) (lost : List Nat) (e : Sent × Nat) : Bool :=
  lost.contains e.2 && e.1.port == s.peerPort peer && pkgOf e.1.msg.dst == peer

/-- GROUP_PORT_FAILURE (R450) for a peer, in two steps: the port in use fails; and it has drained: every message on it has been delivered, but for
those that are lost, whose requests are answered absent. With ALTEN traffic then moves from the primary to the alternate port; without, every later request is answered
absent. -/
def execGroupPortFailure (failure : Nat × Option (List Nat)) (s : State) : Result :=
  let peer := failure.1
  let w := s.pkg.groups.getD peer 0
  let down := s.pkg.groupDown.contains peer
  .next (if bit w 63 = false then s
    else match failure.2 with
    | none => if down then s else { s with pkg := { s.pkg with groupDown := s.pkg.groupDown ++ [peer] } }
    | some lost =>
    if down = false then s
    else
      let gone := s.egress.zipIdx.filter (s.lostOn peer lost)
      let s1 : State := { s with egress := (s.egress.zipIdx.filter (fun e => !s.lostOn peer lost e)).map (fun e => e.1)
                                 net := s.net ++ (gone.map (fun e => e.1.msg)).filter (fun m => !m.body.isReply) }
      if s.portDrains peer then
        ({ s1 with pkg := { s1.pkg with groupAlt := s1.pkg.groupAlt ++ [peer], groupDown := s1.pkg.groupDown.filter (fun n => n != peer) } }).releasePort peer
      else s1)

/-! ### Group ingress (R451, R210, R388)

The model's form of a packet from another package: its kind, its target as the sender's program named it, and payload doublewords of
which the first, h, holds what R213 puts into a header (log 27, DESIGN CHOICE). -/

/-- The local partition that a peer's partition is bound to. -/
def State.boundPart (s : State) (peer part : Nat) : Option Nat :=
  (List.range 64).find? (fun l =>
    let w := s.pkg.bindings.getD (peer + 16 * l) 0
    bit w 63 && bf w 5 0 == part)

/-- The gateway core that stands for the package's group ports. -/
def ingressCore : CoreId := coreAt 16 0 0

/-- Where an address leads in the bound partition: a translation fault as cause and level, absent, or a place. -/
inductive IngressPlace where
  | fault (cause level : Nat)
  | absent
  | at_ (dst : CoreId) (held : Option CoreId) (a : Nat)
deriving DecidableEq, Repr

/-- Translate the target GA of an access of size bytes for the bound partition; coordinates and offsets that the sender's package lets
pass (log 83, DEDUCED) are checked again here. -/
def State.ingressPlace (s : State) (l : Nat) (ga : Word) (size access : Nat) : IngressPlace :=
  match gaClass ga with
  | 0 =>
    let v := gaCore ga
    if 16 ≤ dieOf v ∨ 0x80000 < bf ga 32 0 + size then .absent
    else (match s.xlate l v with
     | .at_ c => .at_ c none (scratchAddr c (bf ga 32 0))
     | .held => .at_ (overflowCore l) (some v) (scratchAddr v (bf ga 32 0))
     | .outside => .absent)
  | 1 | 2 =>
    (match s.translateNow (some l) (gaClass ga) (BitVec.ofNat 48 ga.toNat) access with
     | .ok pa => .at_ (homeOf pa) none pa
     | .fault cause lv => .fault cause lv
     | .miss => .absent)
  | _ => .absent

/-- Where a core that a target word, a thread or a token names lies. -/
def State.ingressCoreOf (s : State) (l : Nat) (v : CoreId) : IngressPlace :=
  match s.xlate l v with
  | .at_ c => .at_ c none 0
  | .held => .at_ (overflowCore l) (some v) 0
  | .outside => .absent

/-- The operation of an engine request on a GA (`Body.engine`), which its header word carries as its number plus 8; smaller numbers are
the operations on a token. -/
def ingressEngine (h : Word) : Option Nat := if 8 ≤ bf h 27 24 then some (bf h 27 24 - 8) else none

/-- The access kind of a packet, for the page-table tests: an engine reads only a copy's source. -/
def ingressAccess (kind : Nat) (h : Word) : Nat :=
  match kind with
  | 0 => 0
  | 1 => 1
  | 12 => if ingressEngine h = some 0 then 3 else 4
  | _ => 2

/-- Where a request of each kind goes: a load of no bytes is a read of the target core's FIT (14_population R375), and a class-3 access
names a core by its physical coordinates (15_system R412). -/
def State.ingressTarget (s : State) (l kind : Nat) (target h : Word) : IngressPlace :=
  let access := ingressAccess kind h
  match kind with
  | 0 => if bf h 7 0 = 0 then s.ingressCoreOf l (bf target 18 4) else s.ingressPlace l target (bf h 7 0) access
  | 1 => s.ingressPlace l target (bf h 7 0) access
  | 10 | 11 => s.ingressPlace l target 8 access
  | 4 | 5 | 7 => s.ingressCoreOf l (bf target 18 4)
  | 12 => if (ingressEngine h).isSome then s.ingressPlace l target 8 access else s.ingressCoreOf l (bf target 46 32)
  | 15 => if isCore (gaCore target) then .at_ (gaCore target) none (bf target 32 0) else .absent
  | _ => .absent

/-- The status of a reply, by number. -/
def statusOf (n : Nat) : Status :=
  match n with
  | 0 => .done | 2 => .refused | 3 => .poisoned | 4 => .retry | 5 => .logRefused | 6 => .foreign | 7 => .queueFull | 8 => .queueClosed | 9 => .collective
  | _ => .absent

/-- The body of a request at an address. -/
def ingressBody (kind : Nat) (target h : Word) (a : Nat) (ws : List Word) : Body :=
  let g := fun (i : Nat) => ws.getD i 0
  match kind with
  | 0 => if bf h 7 0 = 0 then .fitRead none else .load a (bf h 7 0)
  | 1 => .store a (bf h 7 0) (vecOfWords (ws.take 4))
  | 4 => .mail (bf target 21 20) ws false []
  | 5 => .active (g 0) (g 1) (g 2) 0
  | 7 => .wake
  | 10 => .atomic (bf h 27 24) (bit h 28) a (g 0) (g 1)
  | 11 =>
    let op := bf h 31 24
    if op = 13 then .logApp (ws.take 4) else if op < 13 then .sync op a (g 0) else .codelet (op % 4) a (bf (g 0) 31 0) 0
  | 15 => .control (bit h 24) a (g 0) (bf h 26 25)
  | _ =>
    match ingressEngine h with
    | some op => .engine op (BitVec.ofNat 64 a) (bf (g 0) 31 0)
    | none => .query (bf h 27 24) (bf target 31 16) (bf target 5 0)

/-- A reply to a request that left this package: the core and slot it names are physical. One of a partition that is not bound reaches its thread as
an absent answer (R451). -/
def ingressReply (kind : Nat) (h : Word) (ws : List Word) (bound : Bool) : Option Body :=
  let status := if bound then statusOf (bf h 31 28) else .absent
  match kind with
  | 2 => some (.dataReply status (if bound then vecOfWords (ws.take 4) else 0) (if bound then BitVec.ofNat 6 (bf h 37 32) else 0))
  | 3 => some (.ack status (bf h 21 16) (ws.getD 0 0) (if bound then ws.getD 1 0 else 0))
  | 6 => some (.msgStatus (if bound then bf h 30 28 else 2))
  | _ => none

/-- The packet as it travels on in this package. -/
def ingressMsg (peer : Nat) (part : Option Nat) (dst : CoreId) (held : Option CoreId) (slot : Nat) (h : Word) (body : Body) : Msg :=
  ⟨peerCore peer, dst, slot, bf h 15 12, part, if bit h 22 then some (bf h 21 16) else none, bf h 56 38, 0, ones, peer, held, false, none, body⟩

/-- A fault at the ingress (R210, R388): the record goes to the issuing region's handler in its package, and the request is refused. -/
def State.ingressFault (s : State) (peer : Nat) (target : Word) (f : FaultInfo) (m : Msg) : State :=
  let seq := s.fseq.getD ingressCore 0
  let payload := recordPayload f ⟨none, m.vtid, peer, ones, 0⟩ 0 true seq ingressCore
  let s1 := ({ s with fseq := s.fseq.put ingressCore (seq + 1) }).launch { m with src := ingressCore, dst := peerCore peer, body := .mail 0 payload true [] }
  s1.answer m .refused 0 0 target 0

/-- A pair of a BLENDX arrives (R388): descriptor, pair, its place and the pairs of its table in [15:0] and [31:16], the parent's bytes, and a bit of
each poisoned piece; h names the command. The gateway checks CHILD and the spill area, and the pair goes to the blend engine of the child's cluster. -/
def State.ingressPair (s : State) (l peer : Nat) (h : Word) (ws : List Word) : State :=
  let desc := ws.take 8
  let pair := ws.getD 8 0
  let n := blendBytes desc
  let words := (n + 7) / 8
  let data := bytesOf (((ws.drop 10).take words).foldr (fun w v => w.toNat + 2 ^ 64 * v) 0) n
  let marks := (ws.drop (10 + words)).foldr (fun w v => w.toNat + 2 ^ 64 * v) 0
  let bad := (List.range words).filter (fun i => marks.testBit i)
  let m := ingressMsg peer (some l) ingressCore none (bf h 11 8) h
    (.migrate desc pair data bad (bf h 53 38) (bf (ws.getD 9 0) 15 0) (bf (ws.getD 9 0) 31 16))
  let fails := fun (f : FaultInfo) => (s.recordArrival l m false).ingressFault peer pair f m
  match s.keyFault (some l) (pairChild pair) with
  | some e => fails ⟨0x13, e, pair, 0⟩
  | none =>
    if s.lendsAt l (pairChild pair) = true ∧ inSpillArea (blendDoff desc) n = true then fails ⟨0x12, 8, pair, 0⟩
    else
      let g : Member := ⟨ingressCore, m.slot, m.gen, 64, m.vtid, m.rcb, some l, m.pc, 0, [], [], false, false⟩
      s.addCommand { EngCmd.start 4 (.pairs [0]) g desc 0 with pairsTable := [pair], inbound := some m }

/-- A collective contribution or abort token of another package (R391, R394): h holds the identifier, attempt, sequence and member count, and the word
after the data its poison marks. One that must wait stays on its link. -/
def State.ingressColl (s : State) (l peer : Nat) (target h : Word) (ws : List Word) : State :=
  let id := bf h 5 0
  let att : BitVec 16 := BitVec.ofNat 16 (bf h 31 16)
  let n := bf h 62 48
  let keys := ((ws.drop 9).take n).map (fun w => bf w 14 0)
  let mask := ws.getD (9 + n + collNdw ws) 0
  if bit h 63 then
    if keys.any (fun v => s.xlate l v == .held) then s else
    let s1 := keys.foldl (fun q v => match s.xlate l v with | .at_ c => q.applyAbort c l id att | _ => q) s
    s1.answerWith (ingressMsg peer (some l) ingressCore none (bf target 3 0) h (.abort id att true)) .done 0
  else
    let x : Contribution := ⟨memberKey peer (bf target 14 0), ws.take 9, keys, (ws.drop (9 + n)).take (collNdw ws),
      ((List.range (collNdw ws)).filter (fun i => bit mask i)) ++ (if bit mask absentMark then [absentMark] else []), none⟩
    let seq : BitVec 16 := BitVec.ofNat 16 (bf h 47 32)
    let joined := s.colls.filter (fun z => z.part == l && z.id == id && z.att == att && z.seq == seq)
    if joined.any (fun z => s.resultHeld z.got) then joined.foldl (fun q z => q.powerResults z.got) s
    else s.joinColl l id att seq x

/-- GROUP_INGRESS (R451): a packet of a bound partition is rewritten and goes on; any other is answered absent. A reply passes to the
thread that waits, the status of a record of the host bridge to its place, which h holds in [62:48] (log 27). The ports of a fenced gateway die answer
absent, and nothing comes in through a port that has failed (R447, R450). -/
def execGroupIngress (peer part : Nat) (kind : BitVec 5) (target : Word) (payload : List Word) (s : State) : Result :=
  let h := payload.headD 0
  let ws := payload.tail
  let k := kind.toNat
  let bound := s.boundPart peer part
  let back := if k = 6 ∧ bf h 62 48 ≠ 0 then bf h 62 48 else bf target 3 0
  .next (if s.pkg.groupDown.contains peer then s else match ingressReply k h ws bound.isSome with
    | some b => { s with net := s.net ++ [ingressMsg peer bound (bf target 18 4) none back h b] }
    | none =>
      let slot := if k = 7 then bf target 3 0 else bf h 11 8
      let m := ingressMsg peer none ingressCore none slot h (ingressBody k target h target.toNat ws)
      match (if s.peerOpen peer then bound else none) with
      | none => if k = 7 then s else s.answerAbsent m
      | some l =>
        if k = 14 then s.ingressColl l peer target h ws
        else if k = 12 ∧ bf h 27 24 = 0 then s.ingressPair l peer h ws
        else match s.ingressTarget l k target h with
          | .fault cause lv => s.ingressFault peer target (pageFaultInfo target (ingressAccess k h) cause lv) m
          | .absent => if k = 7 then s else s.answerAbsent m
          | .at_ dst held a => { s with net := s.net ++ [ingressMsg peer (some l) dst held slot h (ingressBody k target h a ws)] })

/-! ### The host bridge (R452, R453) -/

/-- Where a record's target word leads in a function's partition (08_messages R216): to a core of it, or to another package of the group. -/
def State.hostTarget (s : State) (p : Nat) (w : Word) : IngressPlace :=
  if 16 ≤ dieOf (bf w 18 4) then .absent
  else if s.isOwnPkg (bf w 59 48) then s.ingressCoreOf p (bf w 18 4)
  else if s.isPeer (bf w 59 48) then .at_ (peerTarget (bf w 59 48) (bf w 18 4)) none 0
  else .absent

/-- Forward one record of a function: as an ACTM of the gateway core under the bound RCB, or with status 2. -/
def State.forwardRecord (s : State) (vf n : Nat) : State :=
  let f := s.pkg.vfs.getD vf VFun.reset
  let i := n % 64
  let g := fun (j : Nat) => f.records.getD (4 * i + j) 0
  let p := bf f.bind 53 48
  let rcb : Word := 0x1FFF000000000000#64 ||| keepf f.bind 47 8
  let fail := s.hostStatus (64 * (vf + 1) + i) 2
  let put := fun (s : State) => { s with pkg := { s.pkg with vfs := s.pkg.vfs.put vf { f with status := f.status.put i 0 } } }
  if bit f.bind 63 = false then fail
  else match s.hostTarget p (g 0) with
    | .at_ dst held _ =>
      (put s).launch ⟨ingressCore, dst, 64 * (vf + 1) + i, 0, some p, none, ingressCore * 16, rcb, ones, 0xFFF, held, true, none,
        .active (g 1) (g 2) (g 3) rcb⟩
    | _ => fail

/-- Forward records from CONS on. -/
def State.forwardRecords (s : State) (vf : Nat) : (count : Nat) → State
  | 0 => s
  | n + 1 =>
    let f := s.pkg.vfs.getD vf VFun.reset
    let s1 := s.forwardRecord vf f.cons.toNat
    let f1 := s1.pkg.vfs.getD vf VFun.reset
    ({ s1 with pkg := { s1.pkg with vfs := s1.pkg.vfs.put vf { f1 with cons := f1.cons + 1 } } }).forwardRecords vf n

/-- DOORBELL (R452): the host has written the window's records and PROD; new records are forwarded in PROD order, at most 64 ahead of
CONS. A function without a binding forwards none, and each of its records takes status 2 (R453). A package that bridges its group to no host has the
bridge disabled (R452). -/
def execDoorbell (vf : Nat) (prod : BitVec 16) (window : List Word) (s : State) : Result :=
  let f := s.pkg.vfs.getD vf VFun.reset
  let records : Assoc Word := ((window.take 256).zipIdx).map (fun e => (e.2, e.1))
  let s1 := { s with pkg := { s.pkg with vfs := s.pkg.vfs.put vf { f with prod := prod, records := records } } }
  .next (if s.pkg.bridge then s1.forwardRecords vf (min 64 (prod - f.cons).toNat) else s)

/-! ### Bring-up (R446, R447) -/

/-- Fenced dies from the authentication failures: compute, gateway and base dies. -/
def fencedBits (badCompute : BitVec 16) (badGateway : BitVec 4) (badStack : BitVec 8) : BitVec 32 :=
  BitVec.ofNat 32 (badCompute.toNat + badGateway.toNat * 2 ^ 16 + badStack.toNat * 2 ^ 24)

/-- Stacks that attach through their alternate ports (R12). -/
def altBits (badCompute : BitVec 16) : BitVec 8 :=
  BitVec.ofNat 8 (((List.range 8).filter (fun k => bit badCompute (primaryDie k) && !bit badCompute (alternateDie k))).foldl (fun n k => n + 2 ^ k) 0)

/-- Bulkheads of fenced dies read ABSENT. -/
def State.fenceBulkheads (s : State) : State :=
  (List.range 64).foldl (fun q b =>
    if s.dieFenced (dieOf (coreAtXY (b % 8 * 16) (b / 8 * 16))) then q.modBulkhead b (fun h => { h with absent := true }) else q) s

/-- The journal records each fenced die and each stack on its alternate port. -/
def State.journalFences (s : State) (badCompute : BitVec 16) : State :=
  let s1 := (List.range 32).foldl (fun q d => if s.dieFenced d then q.journalEntry 0xF01 (BitVec.ofNat 64 d) 0 0 else q) s
  (List.range 8).foldl (fun q k => if bit (altBits badCompute) k then q.journalEntry 0xF02 (BitVec.ofNat 64 k) 0 0 else q) s1

/-- What outlives a start: the channels' spare and retired rows, and the model's own counters. -/
def State.restarted (s : State) : State :=
  let keep := fun (b : HbmBank) => { HbmBank.reset with spares := b.spares, spared := b.spared, retired := b.retired }
  let rows := fun (h : Channel) => { Channel.reset with banks := h.banks.map (fun b => (b.1, keep b.2)) }
  let channels := s.channels.map (fun e => (e.1, rows e.2))
  { State.reset with
    channels := channels
    free := s.free, tick := s.tick, turn := s.turn, schedule := s.schedule }

/-- Fences take effect. -/
def State.applyFences (s : State) (badCompute : BitVec 16) (badGateway : BitVec 4) (badStack : BitVec 8) : State :=
  ({ s with pkg := { s.pkg with fencedDies := fencedBits badCompute badGateway badStack, altStacks := altBits badCompute } }).fenceBulkheads.journalFences
    badCompute

/-- Every 8-byte word of a row of a channel, as physical addresses (12_engines R340). -/
def rowWords (mc : CoreId) (bank row : Nat) : List Nat :=
  (List.range 128).map (fun i =>
    2 ^ 48 + (dieOf mc - 24) * 2 ^ 45 + (row * 64 + bank * 4 + i / 32) * 2 ^ 13 + colOf mc * 256 + i % 32 * 8)

/-- Reads of a retired row return poison (R443). -/
def State.poisonRow (s : State) (mc : CoreId) (bank row : Nat) : State :=
  { s with poison := (rowWords mc bank row).foldl (fun p a => setPoison p a 8) s.poison }

/-- Retired rows of every channel read poison. -/
def State.poisonRetired (s : State) : State :=
  s.channels.foldl (fun q c => c.2.banks.foldl (fun q b => b.2.retired.foldl (fun q r => q.poisonRow c.1 b.1 r) q) q) s

/-- COLD_START (R446, R447): with gateway die 16 failed the package stays in reset. Every memory starts with no contents of its own, and
the journal is opened anew. With the gateway dies that failed comes whether this package bridges its group to a host (R452; log 43). -/
def execColdStart (badCompute : BitVec 16) (badGateway : BitVec 4 × Bool) (badStack : BitVec 8) (s : State) : Result :=
  .next (if bit badGateway.1 0 then { s.restarted with pkg := { Pkg.reset with inReset := true } }
    else ({ s.restarted.poisonRetired with pkg := { Pkg.reset with bridge := badGateway.2 } }).applyFences badCompute badGateway.1 badStack)

/-- WARM_START (R446, R447): HBM4E, capacity memory and the scratchpads of clean bulkheads keep their bytes, dirty bulkheads are
scrubbed, and the journal resumes. -/
def execWarmStart (badCompute : BitVec 16) (badGateway : BitVec 4) (badStack : BitVec 8) (s : State) : Result :=
  .next (if bit badGateway 0 then { s.restarted with pkg := { Pkg.reset with inReset := true } }
    else
      let clean := (List.range 64).foldl (fun q b => if (s.bulkhead b).dirty then q.scrubBulkhead b else q) s
      let cores := (clean.cores.filter (fun e => isCompute e.1)).map (fun e => (e.1, { Core.reset with dirty := e.2.dirty }))
      let s1 := { s.restarted with
        mem := clean.mem, poison := clean.poison, cores := cores
        pkg := { Pkg.reset with bridge := s.pkg.bridge, jrnlHead := s.pkg.jrnlHead, journal := s.pkg.journal } }
      s1.applyFences badCompute badGateway badStack)

end Sys2Proof.Machine
end

