-- ==== Sys2Proof/Machine/Memory.lean ====
section
/-! DEFINITION. The HBM4E channels: accesses, rows and refresh (12_engines R340, R341), scrubbing and row sparing
(16_package R441-R443). Times are cycles of the memory core. -/

namespace Sys2Proof.Machine

/-- Banks of a channel. -/
def bankNumbers : List Nat := List.range 16

/-! ### Accesses (R340) -/

/-- A bank takes an access: nothing is in service and no refresh blocks it. -/
def HbmBank.free (b : HbmBank) : Bool := b.serving.isNone && b.refreshEnd.isNone

/-- The oldest waiting access whose bank is free and which no earlier access of its source core precedes: its place and itself. -/
def nextAccess (h : Channel) : List Access → (seen : List CoreId) → (i : Nat) → Option (Nat × Access)
  | [], _, _ => none
  | a :: rest, seen, i =>
    if !seen.contains a.core && (h.bank (hbmBank a.addr)).free then some (i, a) else nextAccess h rest (a.core :: seen) (i + 1)

/-- The latency by the bank's state. -/
def HbmBank.latency (b : HbmBank) (row : Nat) : Nat :=
  match b.row with
  | some r => if r = row then 40 else 80
  | none => 64

/-- The cycle of MA1 of a waiting access of a thread; any other is at the port. -/
def State.accessTime (s : State) (a : Access) : Nat :=
  match a.for_ with
  | .thread k _ _ => (match (s.slot a.core k).wait with | .channel _ at_ _ => at_ | _ => 0)
  | _ => 0

/-- The partition that an access is for (16_package R443). -/
def State.accessPart (s : State) (a : Access) : Option Nat :=
  match a.for_ with
  | .thread k _ _ => s.partOf a.core k
  | .packet m => m.part
  | .engine id => (match s.engine.find id with | some cmd => cmd.enginePart | none => none)
  | .walk cl _ _ => s.partOf (clusterCore cl 0) 8

/-- A row that has had no access for 512 cc closes, and its bank's debt is repaid with back-to-back REFpb (R340, R341). -/
def HbmBank.closeIdle (b : HbmBank) (now : Nat) : HbmBank :=
  if b.row.isSome = true ∧ b.free = true ∧ b.lastEnd + 512 ≤ now then
    { b with row := none, repay := b.debt, refreshEnd := if b.debt = 0 then none else some (now + 192) }
  else b

/-- Every idle row of a channel closes. -/
def State.closeRows (s : State) (mc : CoreId) : State :=
  if (s.channel mc).drain = none then
    s.modChannel mc (fun h => { h with banks := h.banks.map (fun b => (b.1, b.2.closeIdle (s.core mc).cycle)) })
  else s

/-- CHANNEL_ACCESS (R340): at most one access starts in a cycle, and none during a drain. -/
def execChannelAccess (mc : Nat) (s0 : State) : Result :=
  let s := s0.closeRows mc
  let h := s.channel mc
  .next (if h.drain.isSome ∨ h.began = some (s.core mc).cycle then s
    else match nextAccess h h.waiting [] 0 with
      | none => s
      | some (i, a) =>
        let now := max (s.core mc).cycle (s.accessTime a)
        let row := hbmRow a.addr
        let s1 := s.modChannel mc (fun h => { h.modBank (hbmBank a.addr) (fun b =>
            { b with serving := some (a, now + b.latency row), row := some row }) with
              waiting := h.waiting.eraseIdx i, began := some (s.core mc).cycle })
        s1.noteRow (s.accessPart a) a.addr)

/-- The access of an MCRD or MCWR is performed: a write lands, and the thread that still waits receives its value and retires. -/
def State.completeAccess (s : State) (c : CoreId) (k gen addr : Nat) (data : Option Word) : State :=
  let s1 := s.modSlot c k (fun t => t.subOut gen)
  let s2 := match data with | some v => s1.performWrite addr (bytesOf v.toNat 8) | none => s1
  let t := s2.slot c k
  match t.wait with
  | .channel d at_ r =>
    if t.accepts gen then
      (match data with
       | some _ => s2.retire c k r
       | none =>
         if s2.isPoisoned addr 8 then s2.contain c k (poisonFault (s.gaOf (s.partOf c k) addr))
         else (s2.deliver false c k (.mcrd d at_) ((s2.readWord addr).setWidth 256) 0).retire c k r)
    else s2
  | _ => s2

/-- What an access serves still waits for it. -/
def State.wantsAccess (s : State) (a : Access) : Bool :=
  match a.for_ with
  | .thread _ _ _ => true
  | .packet m => s.net.contains m
  | .engine id => (s.engine.find id).isSome
  | .walk cl cls va => (s.cluster cl).walks.any (fun w =>
      w.cls == cls && w.va == va && 2 ^ 48 + (w.table + walkIndex w.level w.va * 8) == a.addr)

/-- CHANNEL_ACCESS_COMPLETE (R340): the access of a thread is performed. Any other is performed by the step that it serves, which gives its bank free;
one that serves nothing any more gives it free here. -/
def execChannelAccessComplete (mc bank : Nat) (s : State) : Result :=
  .next (match ((s.channel mc).bank bank).serving with
    | some (a, due) =>
      if due ≤ (s.core mc).cycle then
        (match a.for_ with
         | .thread k gen data => (s.endAccess a).completeAccess a.core k gen a.addr data
         | _ => if s.wantsAccess a then s else s.endAccess a)
      else s
    | none => s)

/-! ### Rows and refresh (R340, R341) -/

/-- ROW_CLOSE (R340, R341): 512 cc after the last access; a debt is repaid with back-to-back REFpb. -/
def execRowClose (mc bank : Nat) (s : State) : Result :=
  let now := (s.core mc).cycle
  let b := (s.channel mc).bank bank
  .next (if b.row.isSome = true ∧ b.free = true ∧ b.lastEnd + 512 ≤ now ∧ (s.channel mc).drain = none then
      s.modChannel mc (fun h => h.modBank bank (fun b => b.closeIdle now))
    else s)

/-- An access waits for a bank. -/
def Channel.awaited (h : Channel) (b : Nat) : Bool := h.waiting.any (fun a => hbmBank a.addr == b) || (h.bank b).serving.isSome

/-- A drain is forced: no further REFpb of a repayment is issued (R341). -/
def Channel.forceDrain (h : Channel) (n : Nat) : Channel :=
  bankNumbers.foldl (fun h b => h.modBank b (fun y => { y with repay := 0 })) { h with drain := some n }

/-- The refresh slot of bank k (R341), once in its cycle, CYCLE ≡ 240 + 390k (mod 6,240). A slot that falls during a drain counts as served. -/
def State.refreshSlot (s : State) (mc k : Nat) : State :=
  let now := (s.core mc).cycle
  let h := s.channel mc
  let b := h.bank k
  if 16 ≤ k ∨ now % 6240 ≠ 240 + 390 * k ∨ h.drain.isSome = true ∨ h.slotAt = some now then s
  else
    let s1 := s.modChannel mc (fun h => { h with slotAt := some now })
    if b.row = none ∧ h.awaited k = false then
      s1.modChannel mc (fun h => h.modBank k (fun b => { b with refreshEnd := some ((b.refreshEnd.getD now) + 192) }))
    else if b.debt = 8 then s1.modChannel mc (fun h => h.forceDrain 9)
    else s1.modChannel mc (fun h => h.modBank k (fun b => { b with debt := b.debt + 1 }))

/-- REFRESH_SLOT (R341). -/
def execRefreshSlot (mc k : Nat) (s : State) : Result := .next (s.refreshSlot mc k)

/-- The refresh slot that falls in this cycle of a memory core, if any. -/
def State.slotOfCycle (s : State) (c : CoreId) : State :=
  let n := (s.core c).cycle % 6240
  if isMemoryCore c ∧ 240 ≤ n ∧ (n - 240) % 390 = 0 then (s.closeRows c).refreshSlot c ((n - 240) / 390) else s

/-- REFRESH_DRAIN (R341): the access in service and every REFpb issued are over; every row closes and the first REFab runs. -/
def execRefreshDrain (mc : Nat) (s : State) : Result :=
  let h := s.channel mc
  .next (if h.drain.isSome = true ∧ h.refab = none ∧ bankNumbers.all (fun b => (h.bank b).free) = true then
      s.modChannel mc (fun h =>
        { bankNumbers.foldl (fun h b => h.modBank b (fun y => { y with row := none })) h with refab := some ((s.core mc).cycle + 448) })
    else s)

/-- A REFab ends: every debt falls by 1, and the next one issues or the drain is over. -/
def Channel.endRefab (h : Channel) (end_ : Nat) : Channel :=
  let h1 := bankNumbers.foldl (fun h b => h.modBank b (fun y => { y with debt := y.debt - 1 })) h
  match h.drain with
  | some n => if n ≤ 1 then { h1 with drain := none, refab := none } else { h1 with drain := some (n - 1), refab := some (end_ + 448) }
  | none => { h1 with refab := none }

/-- A REFpb ends: a repayment lowers the debt and issues the next. -/
def HbmBank.endRefpb (b : HbmBank) (end_ : Nat) : HbmBank :=
  if b.repay = 0 then { b with refreshEnd := none }
  else { b with repay := b.repay - 1, debt := b.debt - 1, refreshEnd := if b.repay = 1 then none else some (end_ + 192) }

/-- REFRESH_COMPLETE (R341). -/
def execRefreshComplete (mc bank : Nat) (s : State) : Result :=
  let now := (s.core mc).cycle
  let h := s.channel mc
  .next (match h.refab with
    | some e => if e ≤ now then s.modChannel mc (fun h => h.endRefab e) else s
    | none =>
      match (h.bank bank).refreshEnd with
      | some e => if e ≤ now then s.modChannel mc (fun h => h.modBank bank (fun b => b.endRefpb e)) else s
      | none => s)

/-! ### Scrubbing (16_package R441, R442) -/

/-- An error found by a scrubber: 1 corrected, counted in one field of RASCNT; 2 uncorrectable, written back as poison and counted. -/
def State.scrubbed (s : State) (a n err lo : Nat) : State :=
  match err with
  | 0 => s
  | 1 => s.countRas lo
  | _ => ((s.putPoison a (s.readBytes a n)).countRas 48)

/-- SCRATCHPAD_SCRUB (R441): word number w of a scratchpad. -/
def execScratchpadScrub (c w err : Nat) (s : State) : Result :=
  .next (if isCore c = true ∧ 8 * w < scratchSize c ∧ (s.core c).bankDown (8 * w) 8 = false then s.scrubbed (scratchAddr c (8 * w)) 8 err 0 else s)

/-- The physical byte of 32-byte unit u of a channel. -/
def unitAddr (mc : CoreId) (u : Nat) : Nat := 2 ^ 48 + (dieOf mc - 24) * 2 ^ 45 + u / 8 * 2 ^ 13 + colOf mc * 256 + u % 8 * 32

/-- Bank and row of unit u of a channel. -/
def unitBank (u : Nat) : Nat := u / 32 % 16
def unitRow (u : Nat) : Nat := u / 512

/-- A unit in error counts towards the sparing of its row (R443): an uncorrectable one at once, the fourth corrected one of the row in this pass. -/
def HbmBank.note (b : HbmBank) (u err : Nat) : HbmBank :=
  let fixed := if err = 1 ∧ b.fixed.contains u = false then b.fixed ++ [u] else b.fixed
  let due := decide (2 ≤ err ∨ (err = 1 ∧ 4 ≤ (fixed.filter (fun v => unitRow v == unitRow u)).length))
  { b with fixed := fixed, sparing := if due && !b.sparing.contains (unitRow u) then b.sparing ++ [unitRow u] else b.sparing }

/-- A patrol pass of a channel begins with unit 0 (log 45, DESIGN CHOICE). -/
def Channel.newPass (h : Channel) (u : Nat) : Channel :=
  if u = 0 then { h with banks := h.banks.map (fun e => (e.1, { e.2 with fixed := [] })) } else h

/-- The byte of 64-bit word u of the capacity memory whose home is a gateway core (01_machine R28). -/
def capacityAddr (gc : CoreId) (u : Nat) : Nat := 2 ^ 49 + (dieOf gc - 16) * 2 ^ 46 + u / 32 * 2 ^ 12 + colOf gc * 256 + u % 32 * 8

/-- PATROL_SCRUB (R442): a 32-byte unit of HBM4E is visited; or, named by a gateway core, a 64-bit word of its capacity memory is read, whose code
has the same poison rule (R454; log 45). -/
def execPatrolScrub (mc u err : Nat) (s : State) : Result :=
  .next (if isMemoryCore mc = true ∧ u < 2 ^ 35 ∧ capacityOk 1 (unitAddr mc u % 2 ^ 45) = true then
      let s1 := s.modChannel mc (fun h => h.newPass u)
      (if err = 0 then s1 else s1.modChannel mc (fun h => h.modBank (unitBank u) (fun b => b.note u err))).scrubbed (unitAddr mc u) 32 err 16
    else if isGateway mc = true ∧ u < 2 ^ 39 ∧ capacityOk 2 (capacityAddr mc u % 2 ^ 46) = true then s.scrubbed (capacityAddr mc u) 8 err 16
    else s)

/-! ### Row sparing (R443) -/

/-- The physical GA of a row, in the layout of R26. -/
def rowGa (mc : CoreId) (bank row : Nat) : Word :=
  BitVec.ofNat 64 (0x1FFF * 2 ^ 48 + (dieOf mc - 24) * 2 ^ 45 + (row * 64 + bank * 4) * 2 ^ 13 + colOf mc * 256)

/-- Units of a row that could not be corrected go into the spare as poison. -/
def State.poisonUnits (s : State) (mc : CoreId) (bank row : Nat) (lost : List Nat) : State :=
  { s with poison := (rowWords mc bank row).zipIdx.foldl (fun p e => if lost.contains (e.2 / 4) then setPoison p e.1 8 else p) s.poison }

/-- The row has no good spare left: it is retired, and the root handler of the partition of the last request to it is told. -/
def State.retireRow (s : State) (mc : CoreId) (bank row : Nat) : State :=
  let s1 := (s.poisonRow mc bank row).modChannel mc (fun h => h.modBank bank (fun b => { b with spares := 0, retired := row :: b.retired }))
  let s2 := s1.journalEntry 0xF06 (rowGa mc bank row) 0 0
  match (s.channel mc).rowParts.find (row * 16 + bank) with
  | some p => s2.sendRecord mc (Who.root p 0) ⟨0x55, bank, 0, rowGa mc bank row⟩ 0 false
  | none => s2

/-- ROW_SPARE (R443): a row that an error has made due. `bad` are the spare rows that fail during the copy, `lost` the units that could not be
corrected. -/
def execRowSpare (mc bank row : Nat) (bad lost : List Nat) (s : State) : Result :=
  let b := (s.channel mc).bank bank
  .next (if isMemoryCore mc = false ∨ 16 ≤ bank ∨ b.sparing.contains row = false then s
    else
      let s1 := s.modChannel mc (fun h => h.modBank bank (fun b => { b with sparing := b.sparing.filter (fun r => r != row) }))
      if b.retired.contains row then s1
      else if b.spares ≤ bad.length then s1.retireRow mc bank row
      else
      let left := b.spares - bad.length - 1
      ((s1.poisonUnits mc bank row lost).modChannel mc (fun h => h.modBank bank (fun b =>
        { b with spares := left, spared := (row, 7 - left) :: b.spared }))).journalEntry 0xF05 (rowGa mc bank row) 0 0)

end Sys2Proof.Machine
end

