-- ==== Sys2Proof/Machine/Dispatch.lean ====
section
/-! DEFINITION. One arm per instruction or device step: the direct call of its meaning. -/

namespace Sys2Proof.Machine

def exec (i : Instr) (s : State) : Host.Outcome State Fault Refusal :=
  match i with
  | .add d a b => Sys2Proof.Machine.execAdd d a b s
  | .sub d a b => Sys2Proof.Machine.execSub d a b s
  | .and d a b => Sys2Proof.Machine.execAnd d a b s
  | .or d a b => Sys2Proof.Machine.execOr d a b s
  | .xor d a b => Sys2Proof.Machine.execXor d a b s
  | .andn d a b => Sys2Proof.Machine.execAndn d a b s
  | .sll d a b => Sys2Proof.Machine.execSll d a b s
  | .srl d a b => Sys2Proof.Machine.execSrl d a b s
  | .sra d a b => Sys2Proof.Machine.execSra d a b s
  | .rol d a b => Sys2Proof.Machine.execRol d a b s
  | .mul d a b => Sys2Proof.Machine.execMul d a b s
  | .mulh d a b => Sys2Proof.Machine.execMulh d a b s
  | .mulhu d a b => Sys2Proof.Machine.execMulhu d a b s
  | .div d a b => Sys2Proof.Machine.execDiv d a b s
  | .divu d a b => Sys2Proof.Machine.execDivu d a b s
  | .rem d a b => Sys2Proof.Machine.execRem d a b s
  | .remu d a b => Sys2Proof.Machine.execRemu d a b s
  | .slt d a b => Sys2Proof.Machine.execSlt d a b s
  | .sltu d a b => Sys2Proof.Machine.execSltu d a b s
  | .min d a b => Sys2Proof.Machine.execMin d a b s
  | .max d a b => Sys2Proof.Machine.execMax d a b s
  | .minu d a b => Sys2Proof.Machine.execMinu d a b s
  | .maxu d a b => Sys2Proof.Machine.execMaxu d a b s
  | .addw d a b => Sys2Proof.Machine.execAddw d a b s
  | .subw d a b => Sys2Proof.Machine.execSubw d a b s
  | .clz d a => Sys2Proof.Machine.execClz d a s
  | .ctz d a => Sys2Proof.Machine.execCtz d a s
  | .popc d a => Sys2Proof.Machine.execPopc d a s
  | .brev d a => Sys2Proof.Machine.execBrev d a s
  | .bswap d a => Sys2Proof.Machine.execBswap d a s
  | .sextb d a => Sys2Proof.Machine.execSextb d a s
  | .sexth d a => Sys2Proof.Machine.execSexth d a s
  | .sextw d a => Sys2Proof.Machine.execSextw d a s
  | .zextw d a => Sys2Proof.Machine.execZextw d a s
  | .selz d a b => Sys2Proof.Machine.execSelz d a b s
  | .selnz d a b => Sys2Proof.Machine.execSelnz d a b s
  | .extv d a b => Sys2Proof.Machine.execExtv d a b s
  | .insv d a b => Sys2Proof.Machine.execInsv d a b s
  | .adds d a b => Sys2Proof.Machine.execAdds d a b s
  | .subs d a b => Sys2Proof.Machine.execSubs d a b s
  | .addi d a imm => Sys2Proof.Machine.execAddi d a imm s
  | .andi d a imm => Sys2Proof.Machine.execAndi d a imm s
  | .ori d a imm => Sys2Proof.Machine.execOri d a imm s
  | .xori d a imm => Sys2Proof.Machine.execXori d a imm s
  | .slti d a imm => Sys2Proof.Machine.execSlti d a imm s
  | .sltiu d a imm => Sys2Proof.Machine.execSltiu d a imm s
  | .slli d a n => Sys2Proof.Machine.execSlli d a n s
  | .srli d a n => Sys2Proof.Machine.execSrli d a n s
  | .srai d a n => Sys2Proof.Machine.execSrai d a n s
  | .roli d a n => Sys2Proof.Machine.execRoli d a n s
  | .extu d a o w => Sys2Proof.Machine.execExtu d a o w s
  | .exts d a o w => Sys2Proof.Machine.execExts d a o w s
  | .ins d a o w => Sys2Proof.Machine.execIns d a o w s
  | .li d imm => Sys2Proof.Machine.execLi d imm s
  | .lish d imm => Sys2Proof.Machine.execLish d imm s
  | .addpc d imm => Sys2Proof.Machine.execAddpc d imm s
  | .beq a b o => Sys2Proof.Machine.execBeq a b o s
  | .bne a b o => Sys2Proof.Machine.execBne a b o s
  | .blt a b o => Sys2Proof.Machine.execBlt a b o s
  | .bge a b o => Sys2Proof.Machine.execBge a b o s
  | .bltu a b o => Sys2Proof.Machine.execBltu a b o s
  | .bgeu a b o => Sys2Proof.Machine.execBgeu a b o s
  | .jal d imm => Sys2Proof.Machine.execJal d imm s
  | .jalr d a imm => Sys2Proof.Machine.execJalr d a imm s
  | .fork d a b => Sys2Proof.Machine.execFork d a b s
  | .halt => Sys2Proof.Machine.execHalt s
  | .haltk a b => Sys2Proof.Machine.execHaltk a b s
  | .yield a => Sys2Proof.Machine.execYield a s
  | .wake a => Sys2Proof.Machine.execWake a s
  | .bsig sc => Sys2Proof.Machine.execBsig sc s
  | .ldb d a imm => Sys2Proof.Machine.execLdb d a imm s
  | .ldbu d a imm => Sys2Proof.Machine.execLdbu d a imm s
  | .ldh d a imm => Sys2Proof.Machine.execLdh d a imm s
  | .ldhu d a imm => Sys2Proof.Machine.execLdhu d a imm s
  | .ldw d a imm => Sys2Proof.Machine.execLdw d a imm s
  | .ldwu d a imm => Sys2Proof.Machine.execLdwu d a imm s
  | .ldd d a imm => Sys2Proof.Machine.execLdd d a imm s
  | .stb d a imm => Sys2Proof.Machine.execStb d a imm s
  | .sth d a imm => Sys2Proof.Machine.execSth d a imm s
  | .stw d a imm => Sys2Proof.Machine.execStw d a imm s
  | .std d a imm => Sys2Proof.Machine.execStd d a imm s
  | .ldacq d a z => Sys2Proof.Machine.execLdacq d a z s
  | .strel d a z => Sys2Proof.Machine.execStrel d a z s
  | .fence sc => Sys2Proof.Machine.execFence sc s
  | .fenceI => Sys2Proof.Machine.execFenceI s
  | .send d a b => Sys2Proof.Machine.execSend d a b s
  | .actm d a b => Sys2Proof.Machine.execActm d a b s
  | .mbpop d a b => Sys2Proof.Machine.execMbpop d a b s
  | .mbpeek d a => Sys2Proof.Machine.execMbpeek d a s
  | .mbwait d a b => Sys2Proof.Machine.execMbwait d a b s
  | .chld d a b => Sys2Proof.Machine.execChld d a b s
  | .chldv d a b => Sys2Proof.Machine.execChldv d a b s
  | .amoadd d a b sc => Sys2Proof.Machine.execAmoadd d a b sc s
  | .amoand d a b sc => Sys2Proof.Machine.execAmoand d a b sc s
  | .amoor d a b sc => Sys2Proof.Machine.execAmoor d a b sc s
  | .amoxor d a b sc => Sys2Proof.Machine.execAmoxor d a b sc s
  | .amomin d a b sc => Sys2Proof.Machine.execAmomin d a b sc s
  | .amomax d a b sc => Sys2Proof.Machine.execAmomax d a b sc s
  | .amominu d a b sc => Sys2Proof.Machine.execAmominu d a b sc s
  | .amomaxu d a b sc => Sys2Proof.Machine.execAmomaxu d a b sc s
  | .amoswap d a b sc => Sys2Proof.Machine.execAmoswap d a b sc s
  | .amocas d a b sc => Sys2Proof.Machine.execAmocas d a b sc s
  | .amofadd d a b sc => Sys2Proof.Machine.execAmofadd d a b sc s
  | .logapp o a b => Sys2Proof.Machine.execLogapp o a b s
  | .logseal d => Sys2Proof.Machine.execLogseal d s
  | .barset d a b => Sys2Proof.Machine.execBarset d a b s
  | .barj d a => Sys2Proof.Machine.execBarj d a s
  | .barw d a b => Sys2Proof.Machine.execBarw d a b s
  | .barq d a => Sys2Proof.Machine.execBarq d a s
  | .tladd d a b => Sys2Proof.Machine.execTladd d a b s
  | .tlset d a b => Sys2Proof.Machine.execTlset d a b s
  | .tlrd d a => Sys2Proof.Machine.execTlrd d a s
  | .tlwait d a b => Sys2Proof.Machine.execTlwait d a b s
  | .tkt d a => Sys2Proof.Machine.execTkt d a s
  | .tkwait d a b => Sys2Proof.Machine.execTkwait d a b s
  | .tkdone d a => Sys2Proof.Machine.execTkdone d a s
  | .clinit d a b => Sys2Proof.Machine.execClinit d a b s
  | .cldec d a => Sys2Proof.Machine.execCldec d a s
  | .clpush d a => Sys2Proof.Machine.execClpush d a s
  | .clend b => Sys2Proof.Machine.execClend b s
  | .qpush d a b => Sys2Proof.Machine.execQpush d a b s
  | .qpop d a => Sys2Proof.Machine.execQpop d a s
  | .qpopw d a b => Sys2Proof.Machine.execQpopw d a b s
  | .chnk d a b => Sys2Proof.Machine.execChnk d a b s
  | .cpy d a => Sys2Proof.Machine.execCpy d a s
  | .cpyg d a => Sys2Proof.Machine.execCpyg d a s
  | .cpys d a => Sys2Proof.Machine.execCpys d a s
  | .publish d a b => Sys2Proof.Machine.execPublish d a b s
  | .htst d a => Sys2Proof.Machine.execHtst d a s
  | .hwait d a => Sys2Proof.Machine.execHwait d a s
  | .hdet d a => Sys2Proof.Machine.execHdet d a s
  | .hcan d a => Sys2Proof.Machine.execHcan d a s
  | .mcrd d a => Sys2Proof.Machine.execMcrd d a s
  | .mcwr d a => Sys2Proof.Machine.execMcwr d a s
  | .pusht d a => Sys2Proof.Machine.execPusht d a s
  | .mma f n a b => Sys2Proof.Machine.execMma f n a b s
  | .mmag f n a b => Sys2Proof.Machine.execMmag f n a b s
  | .mxzero d b => Sys2Proof.Machine.execMxzero d b s
  | .mxlda d a b => Sys2Proof.Machine.execMxlda d a b s
  | .mxst d a b => Sys2Proof.Machine.execMxst d a b s
  | .mxepi a => Sys2Proof.Machine.execMxepi a s
  | .fitset d a => Sys2Proof.Machine.execFitset d a s
  | .fitget d a => Sys2Proof.Machine.execFitget d a s
  | .poprank d a => Sys2Proof.Machine.execPoprank d a s
  | .blend d a => Sys2Proof.Machine.execBlend d a s
  | .blendx d a => Sys2Proof.Machine.execBlendx d a s
  | .linrd d a b => Sys2Proof.Machine.execLinrd d a b s
  | .coll d a => Sys2Proof.Machine.execColl d a s
  | .cabort d a => Sys2Proof.Machine.execCabort d a s
  | .catt d a b => Sys2Proof.Machine.execCatt d a b s
  | .fadd d a b p => Sys2Proof.Machine.execFadd d a b p s
  | .fsub d a b p => Sys2Proof.Machine.execFsub d a b p s
  | .fmul d a b p => Sys2Proof.Machine.execFmul d a b p s
  | .fdiv d a b p => Sys2Proof.Machine.execFdiv d a b p s
  | .fsqrt d a p => Sys2Proof.Machine.execFsqrt d a p s
  | .fmin d a b p => Sys2Proof.Machine.execFmin d a b p s
  | .fmax d a b p => Sys2Proof.Machine.execFmax d a b p s
  | .feq d a b p => Sys2Proof.Machine.execFeq d a b p s
  | .flt d a b p => Sys2Proof.Machine.execFlt d a b p s
  | .fle d a b p => Sys2Proof.Machine.execFle d a b p s
  | .fclass d a p => Sys2Proof.Machine.execFclass d a p s
  | .fsgnj d a b p => Sys2Proof.Machine.execFsgnj d a b p s
  | .fsgnjn d a b p => Sys2Proof.Machine.execFsgnjn d a b p s
  | .fcvtFi d a k p => Sys2Proof.Machine.execFcvtFi d a k p s
  | .fcvtIf d a k p => Sys2Proof.Machine.execFcvtIf d a k p s
  | .fcvtP d a p => Sys2Proof.Machine.execFcvtP d a p s
  | .fsin d a p => Sys2Proof.Machine.execFsin d a p s
  | .fcos d a p => Sys2Proof.Machine.execFcos d a p s
  | .fexp2 d a p => Sys2Proof.Machine.execFexp2 d a p s
  | .flog2 d a p => Sys2Proof.Machine.execFlog2 d a p s
  | .fma d a b p => Sys2Proof.Machine.execFma d a b p s
  | .fms d a b p => Sys2Proof.Machine.execFms d a b p s
  | .fnma d a b p => Sys2Proof.Machine.execFnma d a b p s
  | .mfc d a => Sys2Proof.Machine.execMfc d a s
  | .mtc a b => Sys2Proof.Machine.execMtc a b s
  | .trap a => Sys2Proof.Machine.execTrap a s
  | .eret => Sys2Proof.Machine.execEret s
  | .segld d a b => Sys2Proof.Machine.execSegld d a b s
  | .segst d a b => Sys2Proof.Machine.execSegst d a b s
  | .bkpt => Sys2Proof.Machine.execBkpt s
  | .vadd d a b t => Sys2Proof.Machine.execVadd d a b t s
  | .vsub d a b t => Sys2Proof.Machine.execVsub d a b t s
  | .vmul d a b t => Sys2Proof.Machine.execVmul d a b t s
  | .vfma d a b t => Sys2Proof.Machine.execVfma d a b t s
  | .vmin d a b t => Sys2Proof.Machine.execVmin d a b t s
  | .vmax d a b t => Sys2Proof.Machine.execVmax d a b t s
  | .vabs d a t => Sys2Proof.Machine.execVabs d a t s
  | .vneg d a t => Sys2Proof.Machine.execVneg d a t s
  | .vand d a b t => Sys2Proof.Machine.execVand d a b t s
  | .vor d a b t => Sys2Proof.Machine.execVor d a b t s
  | .vxor d a b t => Sys2Proof.Machine.execVxor d a b t s
  | .vshl d a b t => Sys2Proof.Machine.execVshl d a b t s
  | .vshr d a b t => Sys2Proof.Machine.execVshr d a b t s
  | .vsra d a b t => Sys2Proof.Machine.execVsra d a b t s
  | .vadds d a b t => Sys2Proof.Machine.execVadds d a b t s
  | .vsubs d a b t => Sys2Proof.Machine.execVsubs d a b t s
  | .vmulh d a b t => Sys2Proof.Machine.execVmulh d a b t s
  | .vdiv d a b t => Sys2Proof.Machine.execVdiv d a b t s
  | .vcmpeq d a b t => Sys2Proof.Machine.execVcmpeq d a b t s
  | .vcmplt d a b t => Sys2Proof.Machine.execVcmplt d a b t s
  | .vcmple d a b t => Sys2Proof.Machine.execVcmple d a b t s
  | .vsel d a b t => Sys2Proof.Machine.execVsel d a b t s
  | .vshuf d a b t => Sys2Proof.Machine.execVshuf d a b t s
  | .vbcast d a t => Sys2Proof.Machine.execVbcast d a t s
  | .vextr d a b t => Sys2Proof.Machine.execVextr d a b t s
  | .vins d a b t => Sys2Proof.Machine.execVins d a b t s
  | .vredadd d a t => Sys2Proof.Machine.execVredadd d a t s
  | .vredmax d a t => Sys2Proof.Machine.execVredmax d a t s
  | .vredmin d a t => Sys2Proof.Machine.execVredmin d a t s
  | .vdot d a b t => Sys2Proof.Machine.execVdot d a b t s
  | .vmov d a t => Sys2Proof.Machine.execVmov d a t s
  | .vcvt d a t sc n => Sys2Proof.Machine.execVcvt d a t sc n s
  | .vrcp d a t => Sys2Proof.Machine.execVrcp d a t s
  | .vrsq d a t => Sys2Proof.Machine.execVrsq d a t s
  | .vexp2 d a t => Sys2Proof.Machine.execVexp2 d a t s
  | .vlog2 d a t => Sys2Proof.Machine.execVlog2 d a t s
  | .vsin d a t => Sys2Proof.Machine.execVsin d a t s
  | .vcos d a t => Sys2Proof.Machine.execVcos d a t s
  | .vtanh d a t => Sys2Proof.Machine.execVtanh d a t s
  | .vsigm d a t => Sys2Proof.Machine.execVsigm d a t s
  | .vld d a imm => Sys2Proof.Machine.execVld d a imm s
  | .vst d a imm => Sys2Proof.Machine.execVst d a imm s
  | .movK d a => Sys2Proof.Machine.execMovK d a s
  | .addK d a b => Sys2Proof.Machine.execAddK d a b s
  | .subK d a b => Sys2Proof.Machine.execSubK d a b s
  | .andK d a b => Sys2Proof.Machine.execAndK d a b s
  | .orK d a b => Sys2Proof.Machine.execOrK d a b s
  | .xorK d a b => Sys2Proof.Machine.execXorK d a b s
  | .addiK d a imm => Sys2Proof.Machine.execAddiK d a imm s
  | .slliK d a imm => Sys2Proof.Machine.execSlliK d a imm s
  | .lddK d a imm => Sys2Proof.Machine.execLddK d a imm s
  | .stdK d a imm => Sys2Proof.Machine.execStdK d a imm s
  | .beqz a o => Sys2Proof.Machine.execBeqz a o s
  | .bnez a o => Sys2Proof.Machine.execBnez a o s
  | .illegalInstruction p0 p1 two => Sys2Proof.Machine.execIllegalInstruction p0 p1 two s
  | .slotGrant core => Sys2Proof.Machine.execSlotGrant core s
  | .generationAdvance core slot => Sys2Proof.Machine.execGenerationAdvance core slot s
  | .yieldIntervalEnd core slot => Sys2Proof.Machine.execYieldIntervalEnd core slot s
  | .divideComplete core slot => Sys2Proof.Machine.execDivideComplete core slot s
  | .fpIterativeComplete core slot => Sys2Proof.Machine.execFpIterativeComplete core slot s
  | .vectorIterativeComplete core slot => Sys2Proof.Machine.execVectorIterativeComplete core slot s
  | .bankPowerDown core bank => Sys2Proof.Machine.execBankPowerDown core bank s
  | .bankPowerUp core bank => Sys2Proof.Machine.execBankPowerUp core bank s
  | .slotLend core => Sys2Proof.Machine.execSlotLend core s
  | .spill core slot => Sys2Proof.Machine.execSpill core slot s
  | .fill core slot => Sys2Proof.Machine.execFill core slot s
  | .loadRequest n => Sys2Proof.Machine.execLoadRequest n s
  | .store n => Sys2Proof.Machine.execStore n s
  | .dataReply n => Sys2Proof.Machine.execDataReply n s
  | .acknowledgement n => Sys2Proof.Machine.execAcknowledgement n s
  | .registerParityError core slot => Sys2Proof.Machine.execRegisterParityError core slot s
  | .sharedBankParityError core slot => Sys2Proof.Machine.execSharedBankParityError core slot s
  | .mailboxMessage n => Sys2Proof.Machine.execMailboxMessage n s
  | .mbwaitTimeout core slot => Sys2Proof.Machine.execMbwaitTimeout core slot s
  | .activeMessage n => Sys2Proof.Machine.execActiveMessage n s
  | .messageStatus n => Sys2Proof.Machine.execMessageStatus n s
  | .wakeMessage n => Sys2Proof.Machine.execWakeMessage n s
  | .chainStep n => Sys2Proof.Machine.execChainStep n s
  | .chainReply n => Sys2Proof.Machine.execChainReply n s
  | .atomic n => Sys2Proof.Machine.execAtomic n s
  | .synchronisation n => Sys2Proof.Machine.execSynchronisation n s
  | .waitRetry core slot => Sys2Proof.Machine.execWaitRetry core slot s
  | .logAppend n => Sys2Proof.Machine.execLogAppend n s
  | .controlSpaceAccess n => Sys2Proof.Machine.execControlSpaceAccess n s
  | .slotctlResume core slot => Sys2Proof.Machine.execSlotctlResume core slot s
  | .skip core slot => Sys2Proof.Machine.execSkip core slot s
  | .kill core slot => Sys2Proof.Machine.execKill core slot s
  | .release core slot => Sys2Proof.Machine.execRelease core slot s
  | .heldMessageAppend n => Sys2Proof.Machine.execHeldMessageAppend n s
  | .overflowQueueDelivery part vbh => Sys2Proof.Machine.execOverflowQueueDelivery part vbh s
  | .overflowRetry part vbh => Sys2Proof.Machine.execOverflowRetry part vbh s
  | .pageTableWalk core cls va => Sys2Proof.Machine.execPageTableWalk core cls va s
  | .scoreboardGrant core => Sys2Proof.Machine.execScoreboardGrant core s
  | .mergeWindowEnd cmd => Sys2Proof.Machine.execMergeWindowEnd cmd s
  | .bufferHeaderAccess cmd => Sys2Proof.Machine.execBufferHeaderAccess cmd s
  | .copyPiece cmd => Sys2Proof.Machine.execCopyPiece cmd s
  | .engineCompletion cmd => Sys2Proof.Machine.execEngineCompletion cmd s
  | .publishFlip cmd => Sys2Proof.Machine.execPublishFlip cmd s
  | .pressFetch core => Sys2Proof.Machine.execPressFetch core s
  | .pressStart cluster => Sys2Proof.Machine.execPressStart cluster s
  | .pressComplete cluster => Sys2Proof.Machine.execPressComplete cluster s
  | .dispatcherStage core => Sys2Proof.Machine.execDispatcherStage core s
  | .heldRingPush core => Sys2Proof.Machine.execHeldRingPush core s
  | .keyRequest n => Sys2Proof.Machine.execKeyRequest n s
  | .keyGrant n => Sys2Proof.Machine.execKeyGrant n s
  | .keyRetry core entry => Sys2Proof.Machine.execKeyRetry core entry s
  | .keyRelease n => Sys2Proof.Machine.execKeyRelease n s
  | .qpopwTimeout core slot => Sys2Proof.Machine.execQpopwTimeout core slot s
  | .blendPair cmd pair => Sys2Proof.Machine.execBlendPair cmd pair s
  | .collectiveContribution n => Sys2Proof.Machine.execCollectiveContribution n s
  | .abortToken n => Sys2Proof.Machine.execAbortToken n s
  | .faultQueueAppend n => Sys2Proof.Machine.execFaultQueueAppend n s
  | .reservedKindPacket link kind => Sys2Proof.Machine.execReservedKindPacket link kind s
  | .groupIngress peer part kind target payload => Sys2Proof.Machine.execGroupIngress peer part kind target payload s
  | .rotationWrite core hi v => Sys2Proof.Machine.execRotationWrite core hi v s
  | .sigctlWrite core slot v => Sys2Proof.Machine.execSigctlWrite core slot v s
  | .mailboxConfigWrite core size mb v => Sys2Proof.Machine.execMailboxConfigWrite core size mb v s
  | .logConfigWrite core size v => Sys2Proof.Machine.execLogConfigWrite core size v s
  | .pinRelease core => Sys2Proof.Machine.execPinRelease core s
  | .xlat core slot v => Sys2Proof.Machine.execXlat core slot v s
  | .partitionRegisterWrite part num v => Sys2Proof.Machine.execPartitionRegisterWrite part num v s
  | .faultQueueConfigWrite part size v => Sys2Proof.Machine.execFaultQueueConfigWrite part size v s
  | .fqtailWrite part v => Sys2Proof.Machine.execFqtailWrite part v s
  | .linsizeWrite part v => Sys2Proof.Machine.execLinsizeWrite part v s
  | .tlbinv part w => Sys2Proof.Machine.execTlbinv part w s
  | .qcfg part w => Sys2Proof.Machine.execQcfg part w s
  | .rcbAdmit part w => Sys2Proof.Machine.execRcbAdmit part w s
  | .rcbWithdraw part w => Sys2Proof.Machine.execRcbWithdraw part w s
  | .preempt part w => Sys2Proof.Machine.execPreempt part w s
  | .resume part w => Sys2Proof.Machine.execResume part w s
  | .pmapdatWrite part vbh v => Sys2Proof.Machine.execPmapdatWrite part vbh v s
  | .create w => Sys2Proof.Machine.execCreate w s
  | .destroy w => Sys2Proof.Machine.execDestroy w s
  | .extend w => Sys2Proof.Machine.execExtend w s
  | .releaseVirtualBulkhead w => Sys2Proof.Machine.execReleaseVirtualBulkhead w s
  | .mcbindBind w => Sys2Proof.Machine.execMcbindBind w s
  | .mcbindUnbind w => Sys2Proof.Machine.execMcbindUnbind w s
  | .bulkheadReset bh => Sys2Proof.Machine.execBulkheadReset bh s
  | .bulkheadResetComplete bh => Sys2Proof.Machine.execBulkheadResetComplete bh s
  | .parkK1 bh => Sys2Proof.Machine.execParkK1 bh s
  | .parkK2 bh => Sys2Proof.Machine.execParkK2 bh s
  | .unpark bh => Sys2Proof.Machine.execUnpark bh s
  | .parkTransitionComplete bh => Sys2Proof.Machine.execParkTransitionComplete bh s
  | .pwrceilWrite v => Sys2Proof.Machine.execPwrceilWrite v s
  | .governorSample draw low => Sys2Proof.Machine.execGovernorSample draw low s
  | .pstateTransitionComplete bh => Sys2Proof.Machine.execPstateTransitionComplete bh s
  | .grpdatWrite peer v => Sys2Proof.Machine.execGrpdatWrite peer v s
  | .doorbell vf prod window => Sys2Proof.Machine.execDoorbell vf prod window s
  | .scratchpadScrub core word err => Sys2Proof.Machine.execScratchpadScrub core word err s
  | .patrolScrub mc unit err => Sys2Proof.Machine.execPatrolScrub mc unit err s
  | .rowSpare mc bank row bad lost => Sys2Proof.Machine.execRowSpare mc bank row bad lost s
  | .channelAccess mc => Sys2Proof.Machine.execChannelAccess mc s
  | .rowClose mc bank => Sys2Proof.Machine.execRowClose mc bank s
  | .refreshSlot mc bank => Sys2Proof.Machine.execRefreshSlot mc bank s
  | .refreshDrain mc => Sys2Proof.Machine.execRefreshDrain mc s
  | .flitCrcError link => Sys2Proof.Machine.execFlitCrcError link s
  | .replayWindow link => Sys2Proof.Machine.execReplayWindow link s
  | .retrainComplete link ok => Sys2Proof.Machine.execRetrainComplete link ok s
  | .coldStart badCompute badGateway badStack => Sys2Proof.Machine.execColdStart badCompute badGateway badStack s
  | .warmStart badCompute badGateway badStack => Sys2Proof.Machine.execWarmStart badCompute badGateway badStack s
  | .codeletCounterRequest n => Sys2Proof.Machine.execCodeletCounterRequest n s
  | .carafeQueueOperation n => Sys2Proof.Machine.execCarafeQueueOperation n s
  | .tokenQuery n => Sys2Proof.Machine.execTokenQuery n s
  | .fitRead n => Sys2Proof.Machine.execFitRead n s
  | .channelAccessComplete mc bank => Sys2Proof.Machine.execChannelAccessComplete mc bank s
  | .refreshComplete mc bank => Sys2Proof.Machine.execRefreshComplete mc bank s
  | .groupPortFailure peer => Sys2Proof.Machine.execGroupPortFailure peer s
  | .bhctlWrite bh v => Sys2Proof.Machine.execBhctlWrite bh v s

end Sys2Proof.Machine
end

