-- ==== Sys2Proof/Machine/Schedule.lean ====
section
/-! DEFINITION. Which slot of a core issues (03_strands R74, R75), and what the machine does next: the head of the schedule, or, with an
empty schedule, a fixed rotation over the fabric clock, the device steps the state asks for, and the cores (log 4, DESIGN CHOICE). -/

namespace Sys2Proof.Machine

/-! ### Rotation (R73-R75) -/

/-- ROTLO and ROTHI as they apply in this cycle: a write applies from the cycle after its MTC's WB (R76). -/
def Core.rotation (x : Core) : Word × Word :=
  match x.rotOld.find? (fun e => decide (x.cycle < e.1)) with
  | some e => e.2
  | none => (x.rotlo, x.rothi)

/-- The owner of a rotation position; 16 or above where the position is empty (R73). -/
def Core.owner (x : Core) (q : Nat) : Nat :=
  let k := q % 16
  bf (if k < 8 then x.rotation.1 else x.rotation.2) (5 * (k % 8) + 4) (5 * (k % 8))

/-- A slot is eligible (R74): in RUN, and no issue in the last 7 cycles, nor before it may (R79, R87). A slot in a YIELD interval is BLOCKED. -/
def Core.eligible (x : Core) (k : Nat) : Bool :=
  (x.slot k).st == .run && decide ((x.slot k).readyAt ≤ x.cycle)

/-- The order in which slots are tried (R75): from the current position on, then the slots in no position. -/
def Core.scanOrder (x : Core) : List Nat :=
  let listed := ((List.range 16).map (fun i => x.owner (x.cycle + i))).filter (fun k => decide (k < 16))
  listed ++ (List.range 16).filter (fun k => !listed.contains k)

/-- The slot that issues in this cycle. -/
def Core.issueSlot (x : Core) : Option Nat := x.scanOrder.find? x.eligible

/-! ### Steps the state asks for -/

/-- The device steps that something in the state can wait for, under the names and with the arguments they have in `Instr`. -/
inductive Event where
  | spill (core : Nat) (slot : Nat)
  | fill (core : Nat) (slot : Nat)
  | generationAdvance (core : Nat) (slot : Nat)
  | yieldIntervalEnd (core : Nat) (slot : Nat)
  | divideComplete (core : Nat) (slot : Nat)
  | fpIterativeComplete (core : Nat) (slot : Nat)
  | vectorIterativeComplete (core : Nat) (slot : Nat)
  | mbwaitTimeout (core : Nat) (slot : Nat)
  | qpopwTimeout (core : Nat) (slot : Nat)
  | waitRetry (core : Nat) (slot : Nat)
  | dispatcherStage (core : Nat)
  | slotGrant (core : Nat)
  | slotLend (core : Nat)
  | heldRingPush (core : Nat)
  | bankPowerUp (core : Nat) (bank : Nat)
  | scoreboardGrant (core : Nat)
  | pressFetch (core : Nat)
  | pressStart (cluster : Nat)
  | pressComplete (cluster : Nat)
  | keyRetry (core : Nat) (entry : Nat)
  | pageTableWalk (core : Nat) (cls : Nat) (va : BitVec 48)
  | mergeWindowEnd (cmd : Nat)
  | bufferHeaderAccess (cmd : Nat)
  | copyPiece (cmd : Nat)
  | publishFlip (cmd : Nat)
  | blendPair (cmd : Nat) (pair : Nat)
  | engineCompletion (cmd : Nat)
  | loadRequest (n : Nat)
  | store (n : Nat)
  | dataReply (n : Nat)
  | acknowledgement (n : Nat)
  | mailboxMessage (n : Nat)
  | activeMessage (n : Nat)
  | messageStatus (n : Nat)
  | wakeMessage (n : Nat)
  | chainStep (n : Nat)
  | chainReply (n : Nat)
  | atomic (n : Nat)
  | synchronisation (n : Nat)
  | logAppend (n : Nat)
  | controlSpaceAccess (n : Nat)
  | heldMessageAppend (n : Nat)
  | overflowQueueDelivery (part : Nat) (vbh : Nat)
  | overflowRetry (part : Nat) (vbh : Nat)
  | keyRequest (n : Nat)
  | keyGrant (n : Nat)
  | keyRelease (n : Nat)
  | collectiveContribution (n : Nat)
  | abortToken (n : Nat)
  | faultQueueAppend (n : Nat)
  | codeletCounterRequest (n : Nat)
  | carafeQueueOperation (n : Nat)
  | tokenQuery (n : Nat)
  | fitRead (n : Nat)
  | partitionRegisterWrite (part : Nat) (num : BitVec 14) (v : Word)
  | faultQueueConfigWrite (part : Nat) (size : Bool) (v : Word)
  | fqtailWrite (part : Nat) (v : Word)
  | linsizeWrite (part : Nat) (v : Word)
  | tlbinv (part : Nat) (w : Word)
  | qcfg (part : Nat) (w : Word)
  | rcbAdmit (part : Nat) (w : Word)
  | rcbWithdraw (part : Nat) (w : Word)
  | preempt (part : Nat) (w : Word)
  | resume (part : Nat) (w : Word)
  | pmapdatWrite (part : Nat) (vbh : Nat) (v : Word)
  | create (w : Word)
  | destroy (w : Word)
  | extend (w : Word)
  | releaseVirtualBulkhead (w : Word)
  | mcbindBind (w : Word)
  | mcbindUnbind (w : Word)
  | bulkheadReset (bh : Nat)
  | bulkheadResetComplete (bh : Nat)
  | parkK1 (bh : Nat)
  | parkK2 (bh : Nat)
  | unpark (bh : Nat)
  | parkTransitionComplete (bh : Nat)
  | pstateTransitionComplete (bh : Nat)
  | grpdatWrite (peer : Nat) (v : Word)
  | channelAccess (mc : Nat)
  | rowClose (mc : Nat) (bank : Nat)
  | refreshDrain (mc : Nat)
  | channelAccessComplete (mc : Nat) (bank : Nat)
  | refreshComplete (mc : Nat) (bank : Nat)
deriving DecidableEq, Repr

/-- An event takes place: the meaning of its device step. -/
def Event.run (e : Event) (s : State) : Result :=
  match e with
  | .spill core slot => execSpill core slot s
  | .fill core slot => execFill core slot s
  | .generationAdvance core slot => execGenerationAdvance core slot s
  | .yieldIntervalEnd core slot => execYieldIntervalEnd core slot s
  | .divideComplete core slot => execDivideComplete core slot s
  | .fpIterativeComplete core slot => execFpIterativeComplete core slot s
  | .vectorIterativeComplete core slot => execVectorIterativeComplete core slot s
  | .mbwaitTimeout core slot => execMbwaitTimeout core slot s
  | .qpopwTimeout core slot => execQpopwTimeout core slot s
  | .waitRetry core slot => execWaitRetry core slot s
  | .dispatcherStage core => execDispatcherStage core s
  | .slotGrant core => execSlotGrant core s
  | .slotLend core => execSlotLend core s
  | .heldRingPush core => execHeldRingPush core s
  | .bankPowerUp core bank => execBankPowerUp core bank s
  | .scoreboardGrant core => execScoreboardGrant core s
  | .pressFetch core => execPressFetch core s
  | .pressStart cluster => execPressStart cluster s
  | .pressComplete cluster => execPressComplete cluster s
  | .keyRetry core entry => execKeyRetry core entry s
  | .pageTableWalk core cls va => execPageTableWalk core cls va s
  | .mergeWindowEnd cmd => execMergeWindowEnd cmd s
  | .bufferHeaderAccess cmd => execBufferHeaderAccess cmd s
  | .copyPiece cmd => execCopyPiece cmd s
  | .publishFlip cmd => execPublishFlip cmd s
  | .blendPair cmd pair => execBlendPair cmd pair s
  | .engineCompletion cmd => execEngineCompletion cmd s
  | .loadRequest n => execLoadRequest n s
  | .store n => execStore n s
  | .dataReply n => execDataReply n s
  | .acknowledgement n => execAcknowledgement n s
  | .mailboxMessage n => execMailboxMessage n s
  | .activeMessage n => execActiveMessage n s
  | .messageStatus n => execMessageStatus n s
  | .wakeMessage n => execWakeMessage n s
  | .chainStep n => execChainStep n s
  | .chainReply n => execChainReply n s
  | .atomic n => execAtomic n s
  | .synchronisation n => execSynchronisation n s
  | .logAppend n => execLogAppend n s
  | .controlSpaceAccess n => execControlSpaceAccess n s
  | .heldMessageAppend n => execHeldMessageAppend n s
  | .overflowQueueDelivery part vbh => execOverflowQueueDelivery part vbh s
  | .overflowRetry part vbh => execOverflowRetry part vbh s
  | .keyRequest n => execKeyRequest n s
  | .keyGrant n => execKeyGrant n s
  | .keyRelease n => execKeyRelease n s
  | .collectiveContribution n => execCollectiveContribution n s
  | .abortToken n => execAbortToken n s
  | .faultQueueAppend n => execFaultQueueAppend n s
  | .codeletCounterRequest n => execCodeletCounterRequest n s
  | .carafeQueueOperation n => execCarafeQueueOperation n s
  | .tokenQuery n => execTokenQuery n s
  | .fitRead n => execFitRead n s
  | .partitionRegisterWrite part num v => execPartitionRegisterWrite part num v s
  | .faultQueueConfigWrite part size v => execFaultQueueConfigWrite part size v s
  | .fqtailWrite part v => execFqtailWrite part v s
  | .linsizeWrite part v => execLinsizeWrite part v s
  | .tlbinv part w => execTlbinv part w s
  | .qcfg part w => execQcfg part w s
  | .rcbAdmit part w => execRcbAdmit part w s
  | .rcbWithdraw part w => execRcbWithdraw part w s
  | .preempt part w => execPreempt part w s
  | .resume part w => execResume part w s
  | .pmapdatWrite part vbh v => execPmapdatWrite part vbh v s
  | .create w => execCreate w s
  | .destroy w => execDestroy w s
  | .extend w => execExtend w s
  | .releaseVirtualBulkhead w => execReleaseVirtualBulkhead w s
  | .mcbindBind w => execMcbindBind w s
  | .mcbindUnbind w => execMcbindUnbind w s
  | .bulkheadReset bh => execBulkheadReset bh s
  | .bulkheadResetComplete bh => execBulkheadResetComplete bh s
  | .parkK1 bh => execParkK1 bh s
  | .parkK2 bh => execParkK2 bh s
  | .unpark bh => execUnpark bh s
  | .parkTransitionComplete bh => execParkTransitionComplete bh s
  | .pstateTransitionComplete bh => execPstateTransitionComplete bh s
  | .grpdatWrite peer v => execGrpdatWrite peer v s
  | .channelAccess mc => execChannelAccess mc s
  | .rowClose mc bank => execRowClose mc bank s
  | .refreshDrain mc => execRefreshDrain mc s
  | .channelAccessComplete mc bank => execChannelAccessComplete mc bank s
  | .refreshComplete mc bank => execRefreshComplete mc bank s

/-- The device step that delivers or performs a packet in flight. -/
def packetStep (m : Msg) (n : Nat) : Event :=
  if m.held.isSome then .heldMessageAppend n
  else match m.body with
    | .load _ _ => .loadRequest n
    | .pieces _ _ _ => .loadRequest n
    | .store _ _ _ => .store n
    | .storing _ _ _ _ => .store n
    | .dataReply _ _ _ => .dataReply n
    | .ack _ _ _ _ => .acknowledgement n
    | .mail _ _ _ _ => .mailboxMessage n
    | .active _ _ _ _ => .activeMessage n
    | .msgStatus _ => .messageStatus n
    | .wake => .wakeMessage n
    | .chain _ _ _ _ _ _ _ => .chainStep n
    | .chainReply _ _ _ => .chainReply n
    | .atomic _ _ _ _ _ => .atomic n
    | .sync _ _ _ => .synchronisation n
    | .withdraw => .synchronisation n
    | .logApp _ => .logAppend n
    | .codelet _ _ _ _ => .codeletCounterRequest n
    | .query _ _ _ => .tokenQuery n
    | .engine _ _ _ => .tokenQuery n
    | .fitRead _ => .fitRead n
    | .sample _ _ _ => .dataReply n
    | .contribution _ _ _ _ _ _ _ _ => .collectiveContribution n
    | .gathering _ _ _ _ _ _ _ _ _ _ => .collectiveContribution n
    | .migrate _ _ _ _ _ _ _ => .store n
    | .operand _ _ => .pressFetch m.src
    | .abort _ _ _ => .abortToken n
    | .control _ _ _ _ => .controlSpaceAccess n
    | .queue _ _ _ => .carafeQueueOperation n
    | .keyRequest _ _ _ => .keyRequest n
    | .keyGrant _ => .keyGrant n
    | .keyRelease _ _ => .keyRelease n

/-- The steps of packets, by their places. -/
def packetSteps : List Msg → Nat → List Event
  | [], _ => []
  | m :: rest, n => packetStep m n :: packetSteps rest (n + 1)

/-- The step that an engine command waits for. -/
def engineStep (id : Nat) (c : EngCmd) : List Event :=
  match c.phase with
  | .window _ => [.mergeWindowEnd id]
  | .header => [.bufferHeaderAccess id]
  | .grant _ => [.engineCompletion id]
  | .moving _ => [.copyPiece id]
  | .publishing _ => [.publishFlip id]
  | .pairs left => left.map (.blendPair id)
  | .complete => [.engineCompletion id]
  | .saved => []

/-- The step that carries out a command-register write (15_system R410, R411; 16_package R431, R432). -/
def commandStep (q : PendingCmd) : List Event :=
  let p := q.part.getD 0
  let w := q.word
  match q.reg with
  | 0x113 => [.tlbinv p w]
  | 0x114 => [.faultQueueConfigWrite p false w]
  | 0x115 => [.faultQueueConfigWrite p true w]
  | 0x120 => [.fqtailWrite p w]
  | 0x119 => [.linsizeWrite p w]
  | 0x11B => [.qcfg p w]
  | 0x11C => if bit w 0 then [.rcbWithdraw p w] else [.rcbAdmit p w]
  | 0x11E => [.preempt p w]
  | 0x11F => [.resume p w]
  | 0x201 => [.pmapdatWrite (p / 64) (p % 64) w]
  | 0x202 => match bf w 3 0 with
    | 1 => [.create w]
    | 2 => [.destroy w]
    | 3 => [.extend w]
    | _ => [.releaseVirtualBulkhead w]
  | 0x203 => if bit w 14 then [.mcbindBind w] else [.mcbindUnbind w]
  | 0x242 =>
    if q.region.isSome then []
    else match bf w 3 0 with
      | 1 => [.bulkheadReset (bf w 9 4)]
      | 2 => [.parkK1 (bf w 9 4)]
      | 3 => [.parkK2 (bf w 9 4)]
      | _ => [.unpark (bf w 9 4)]
  | 0x249 => [.grpdatWrite p w]
  | n => [.partitionRegisterWrite p (BitVec.ofNat 14 n) w]

/-- The step that the wait of a slot asks for, whether or not it is due. -/
def slotStep (c k : Nat) (t : Slot) : List Event :=
  (if t.owes then [.generationAdvance c k] else [])
    ++ (match t.st, t.wait with
        | .spill, _ => [.spill c k]
        | .fill, _ => [.fill c k]
        | .blocked, .retry _ _ _ _ _ => [.waitRetry c k]
        | .blocked, .qpopw _ _ _ _ _ (some _) _ => [.waitRetry c k, .qpopwTimeout c k]
        | .blocked, .qpopw _ (some _) _ _ _ _ _ => [.qpopwTimeout c k]
        | .blocked, .mbwait _ _ (some _) _ => [.mbwaitTimeout c k]
        | _, _ => [])

/-- The steps of one core. -/
def coreSteps (c : Nat) (x : Core) : List Event :=
  ((List.range 16).flatMap (fun k => slotStep c k (x.slot k)))
    ++ (if x.ringCount ≠ 0 ∨ x.amq.any Active.isKeyed then [.dispatcherStage c] else [])
    ++ (if x.nextClaim.isSome then [.slotGrant c, .slotLend c] else [])
    ++ (if x.heldPush.isEmpty && x.ending.isEmpty then [] else [.heldRingPush c])
    ++ ((x.banks.filter (fun b => b.2.upAt.isSome)).map (fun b => .bankPowerUp c b.1))
    ++ (if x.sbWait.isEmpty then [] else [.scoreboardGrant c])
    ++ (if x.press.queue.isEmpty then [] else [.pressFetch c, .pressStart (clusterOf c)])
    ++ (((List.range x.staging.length).filter (fun i => (x.staging[i]?).any (fun z => z.retryAt.isSome))).map (.keyRetry c))

/-- The steps of one cluster. -/
def clusterSteps (cl : Nat) (u : Cluster) : List Event :=
  (if u.running.isSome then [.pressComplete cl] else []) ++ (u.walks.take 16).map (fun w => .pageTableWalk (clusterCore cl 0) w.cls w.va)

/-- The steps of one channel. -/
def channelSteps (mc : Nat) (h : Channel) : List Event :=
  (if h.waiting.isEmpty then [] else [.channelAccess mc])
    ++ (if h.drain.isSome then [.refreshDrain mc] else [])
    ++ (if h.refab.isSome then [.refreshComplete mc 0] else [])
    ++ h.banks.flatMap (fun b =>
        (if b.2.serving.isSome then [.channelAccessComplete mc b.1] else [])
          ++ (if b.2.refreshEnd.isSome then [.refreshComplete mc b.1] else [])
          ++ (if b.2.row.isSome then [.rowClose mc b.1] else []))

/-- The steps of one bulkhead. -/
def bulkheadSteps (b : Nat) (h : Bulkhead) : List Event :=
  (match h.park with | 3 => [.bulkheadResetComplete b] | 4 => [.parkTransitionComplete b] | _ => [])
    ++ (if h.raising then [.pstateTransitionComplete b] else [])

/-- The steps of one partition's overflow queue. -/
def partSteps (p : Nat) (x : Part) : List Event :=
  (x.overflow.filterMap (fun m => m.held)).flatMap (fun v => [.overflowQueueDelivery p (vbhOf v), .overflowRetry p (vbhOf v)])

/-- Every device step that something in the state waits for; some may not be due, and then change nothing (log 11, DESIGN CHOICE). -/
def State.askedSteps (s : State) : List Event :=
  packetSteps s.net 0
    ++ s.engine.flatMap (fun e => engineStep e.1 e.2)
    ++ s.commands.flatMap commandStep
    ++ (if s.faultRecs.isEmpty then [] else [.faultQueueAppend 0])
    ++ s.cores.flatMap (fun e => coreSteps e.1 e.2)
    ++ s.clusters.flatMap (fun e => clusterSteps e.1 e.2)
    ++ s.channels.flatMap (fun e => channelSteps e.1 e.2)
    ++ s.bulkheads.flatMap (fun e => bulkheadSteps e.1 e.2)
    ++ s.parts.flatMap (fun e => partSteps e.1 e.2)

/-! ### What comes next -/

/-- One step of the machine: a turn of the schedule, or an event of the state's own. -/
inductive Move where
  | turn (t : Turn)
  | event (e : Event)

/-- What the machine does next. -/
def State.nextMove (s : State) : Move :=
  match s.schedule with
  | t :: _ => .turn t
  | [] =>
    match s.tick % 3 with
    | 0 => .turn .fabric
    | 1 => match s.askedSteps with
      | [] => .turn (.cycle s.turn)
      | i :: rest => .event ((i :: rest).getD (s.tick / 3 % (rest.length + 1)) i)
    | _ => .turn (.cycle s.turn)

/-- The listed core after one, and the first after the last. -/
def coreAfter (l : List Nat) (c : Nat) : Nat := (l.find? (fun d => decide (c < d))).getD (l.headD 0)

/-- The step is counted, and the schedule or the rotation moves on. -/
def State.advance (s : State) (m : Move) : State :=
  let s1 := { s with tick := s.tick + 1 }
  match s.schedule, m with
  | _ :: rest, _ => { s1 with schedule := rest }
  | [], .turn (.cycle c) => { s1 with turn := coreAfter (s.cores.map (fun e => e.1)) c }
  | [], _ => s1

/-! ### One cycle of a core -/

/-- What a core does in a cycle: nothing to execute, or an instruction in the state in which it is executed. -/
inductive Cycle where
  | idle (s : State)
  | issue (i : Instr) (s : State)

/-- The thread of a slot is the one whose instruction is executed. -/
def State.focus (s : State) (c : CoreId) (k : Nat) : State :=
  ({ s with curCore := c, curSlot := k }).modSlot c k (fun t => { t with readyAt := (s.core c).cycle + 8, wokenAt := none })

/-- The banks in use are noted where the bulkhead may power banks down, and one unused for 4,096 cc loses power (R90). -/
def State.watchBanks (s : State) (c : CoreId) : State :=
  if s.bankPowerDownOn c then (List.range 16).foldl (fun q j => q.idleBank c j) (s.stampBanks c) else s

/-- What goes by the core's own clock: write-backs (R71), intervals and iterative operations (R92; 04_integer R105, 05_numbers R148, 06_vector
R179), MBWAIT's time, the payloads of MBPOP and of the message port (08_messages R217, R229, R230, R241), the steps of LOGSEAL (09_sync R259), the records of LINRD (14_population R387), and the refresh slots of a
memory core (12_engines R341). -/
def State.settleClock (s : State) (c : CoreId) : State :=
  (((List.range 16).foldl (fun q k => q.settleTimer c k) (s.land c)).portStep c).slotOfCycle c

/-- The cycle begins: a slot is chosen and its instruction fetched (R36, R70, R75). -/
def State.beginCycle (s : State) (c : CoreId) : Cycle :=
  if s.clockRuns c then
    let s1 := (s.settleClock c).watchBanks c
    if (s1.core c).halted then .idle s1
    else match (s1.core c).issueSlot with
      | none => .idle s1
      | some k =>
        match (s1.focus c k).fetch with
        | .run i => .issue i (s1.focus c k)
        | .stop s2 => .idle s2
  else .idle s

/-- The cycle ends: CYCLE advances while the clock runs (R34). -/
def State.endCycle (s : State) (c : CoreId) : State :=
  if s.clockRuns c then s.modCore c (fun x => { x with cycle := x.cycle + 1 }) else s

/-! ### Loading one instruction -/

/-- The core and slot on which a program's instruction exists: compute core 0, or the user slots of memory core (24,0,0). -/
def loadPlace (i : Option Instr) : CoreId × Nat :=
  match i with
  | some x => if Instr.existsOn x 0 then (0, 0) else (coreAt 24 0 0, 8)
  | none => (0, 0)

/-- Every rotation position names one slot. -/
def allPositions (k : Nat) : Word := (List.range 8).foldl (fun w i => w ||| BitVec.ofNat 64 (k * 2 ^ (5 * i))) 0

/-- A context that fetches from offset 0 of its core's scratchpad through segment 1 (01_machine R27, 07_access R182). -/
def Slot.loaded (t : Slot) (cycle : Nat) : Slot :=
  { t with st := .run, wait := .none, park := none, pc := 0x2000000000000000#64,
           readyAt := min t.readyAt cycle,
           segBase := t.segBase.set 1 (BitVec.ofNat 64 (0xFFF * 2 ^ 48 + selfCoord * 2 ^ 33)),
           segLim := t.segLim.set 1 (BitVec.ofNat 64 (2 ^ 61 + 4)) }

/-- A core that fetches the loaded context in its next cycle. -/
def Core.loaded (x : Core) (k : Nat) : Core :=
  { x.modSlot k (fun t => t.loaded x.cycle) with
    rotlo := allPositions k, rothi := allPositions k, rotOld := [], halted := false, landing := [], flight := [], ctlOld := [],
    banks := x.banks.erase 0, sb := [] }

/-- Place the bytes of an instruction at a core's offset 0, a context on it, and that core's next cycle (log 7, DESIGN CHOICE). -/
def State.loadProgram (s : State) (c : CoreId) (k : Nat) (bs : List Byte) : State :=
  let s1 := s.modCore c (fun x => x.loaded k)
  let h : Bulkhead → Bulkhead := fun b => { b with park := 0, absent := false, stopped := false }
  let s2 := if isCompute c then s1.modBulkhead (bulkheadOf c) h else s1
  { s2 with mem := putBytes s2.mem (scratchAddr c 0) bs, poison := clearPoison s2.poison (scratchAddr c 0) bs.length,
            schedule := [.cycle c] }

end Sys2Proof.Machine
end

