-- ==== Sys2Proof/Machine/Step.lean ====
section
/-! DEFINITION. One step of the package: what is next in the schedule takes place (log 4 and log 6, DESIGN CHOICE); and the loading of one instruction (log 7, DESIGN CHOICE). -/

namespace Sys2Proof.Machine

/-- A device step of the schedule. An encoded instruction is no device step: it runs only when a slot fetches it. -/
def deviceStep (i : Instr) (s : State) : Host.Outcome State Fault Refusal := if i.isDevice then exec i s else .next s

/-- An instruction is executed in its cycle, and the cycle ends. -/
def issueStep (c : CoreId) (i : Instr) (s : State) : Host.Outcome State Fault Refusal :=
  match exec i s with
  | .next t => .next ((t.noteFlight i s).endCycle c)
  | .fault f => .fault f
  | .refused r => .refused r

/-- One cycle of a core. -/
def cycleStep (c : CoreId) (s : State) : Host.Outcome State Fault Refusal :=
  match s.beginCycle c with
  | .idle t => .next (t.endCycle c)
  | .issue i t => issueStep c i t

/-- A move in the state whose schedule has advanced. -/
def moveStep (m : Move) (s : State) : Host.Outcome State Fault Refusal :=
  match m with
  | .turn .fabric => .next { s with fc := s.fc + 1 }
  | .turn (.device i) => deviceStep i s
  | .turn (.cycle c) => cycleStep c s
  | .event e => e.run s

/-- The machine's step. -/
def step (s : State) : Host.Outcome State Fault Refusal :=
  if s.pkg.inReset then .fault .packageInReset else moveStep s.nextMove (s.advance s.nextMove)

/-- The instruction of nbits bits, loaded where the next step fetches it. -/
def State.withFetchWord (s : State) (nbits w : Nat) : State :=
  s.loadProgram (loadPlace (decodeTableWord nbits w)).1 (loadPlace (decodeTableWord nbits w)).2 (tableBytes nbits w)

end Sys2Proof.Machine
end

