-- ==== Sys2Proof/Safety.lean ====
section
/-! DEFINITION. What counts as a safe run, and the words the claims use: an instruction that runs, writes a register, parks its thread,
or leaves parts of the state as they were. -/

namespace Sys2Proof.Machine

/-- A step goes on. -/
def Completes (r : Host.Outcome State Fault Refusal) : Prop := ∃ t, r = .next t

/-- Memory is in its canonical form (log 1, DESIGN CHOICE). -/
abbrev State.CanonicalMemory (s : State) : Prop := Memory.wf s.mem = true

/-- n steps lead from one state to another. -/
def Leads (n : Nat) (s t : State) : Prop := Sys2Proof.core.run n s = .next t

/-- A safe run: however many steps are taken, the machine goes on, with canonical memory. -/
def SafeRun (s : State) : Prop := ∀ n, ∃ t, Leads n s t ∧ t.CanonicalMemory

/-! ### Words of the claims -/

/-- Executing i in s gives t. -/
def Runs (i : Instr) (s t : State) : Prop := exec i s = .next t

/-- No register that an instruction of the issuing thread names is pending (03_strands R78). -/
abbrev State.Ready (s : State) (names : List Dest) : Prop := s.anyPending names = false

/-- Executing i writes v to the scalar register d of the issuing thread and retires: len bytes, these registers in assembly order. -/
def Writes (i : Instr) (s : State) (len : Nat) (names : List Reg) (d : Reg) (v : Word) : Prop :=
  Runs i s ((s.putReg d v).done ⟨len, names, 0⟩)

/-- Executing i parks the issuing thread with a fault (02_encoding R52, 07_access R185): nothing else is done. -/
def Faults (i : Instr) (s : State) (f : FaultInfo) : Prop := Runs i s (s.takeFault s.curCore s.curSlot f)

/-- Every byte of memory reads the same, and no word gained or lost its poison. -/
def SameMemory (s t : State) : Prop := t.mem = s.mem ∧ t.poison = s.poison

/-- Every byte outside n bytes from a reads the same. -/
def SameOutside (s t : State) (a n : Nat) : Prop := ∀ x, x < a ∨ a + n ≤ x → t.readByte x = s.readByte x

/-- Every register of every slot and core reads the same, and is left with the same value once every write in flight has landed. -/
def SameRegisters (s t : State) : Prop := ∀ c k r, readReg t c k r = readReg s c k r ∧ readVec t c k r = readVec s c k r
  ∧ lastReg t c k r = lastReg s c k r ∧ lastVec t c k r = lastVec s c k r

/-- The checker of the issuing thread is off (03_strands R99). -/
abbrev State.CheckerOff (s : State) (c : CoreId) (k : Nat) : Prop := bf (s.slot c k).sigctl 1 0 = 0

/-- The thread in a slot is in RUN with its pc moved by len bytes from where it was (03_strands R82). -/
def Advanced (s t : State) (c : CoreId) (k len : Nat) : Prop :=
  (t.slot c k).st = .run ∧ (t.slot c k).pc = addOffset (s.slot c k).pc (BitVec.ofNat 64 len)

/-- Every slot but one of one core, and every other core's slots, are the same. -/
def SameOtherSlots (s t : State) (c : CoreId) (k : Nat) : Prop :=
  ∀ d j, d ≠ c ∨ slotIx j ≠ slotIx k → t.slot d j = s.slot d j

/-- The 5-bit field that a compact field stands for (02_encoding R41). -/
def wideReg (r : KReg) : Reg := BitVec.ofNat 5 (if r.toNat < 8 then r.toNat else r.toNat + 8)

end Sys2Proof.Machine
end

