-- ==== Sys2Proof/Certificates/Slice0/Obligations.lean ====
section
/-! DEFINITION. The statements for the provers: what the manual's rules say of the model, one definition each. -/

open Sys2Proof Sys2Proof.Machine

/-! ### Registers, retirement and the checker -/

/-- 02_encoding R40; 03_strands R71, R77; 04_integer R104. A write to a scalar field is read back through the same field, unless the field is
p0, which reads as zero and whose writes change nothing; every other scalar field, vector field and slot, and memory, stay as they were. A
write at the WB of an instruction that issues in cycle i is what its field is left with: a private field reads it at once, a shared one
reads as before to instructions that issue up to cycle i + 4, and a write that lands in between is seen until then and is lost. A write of a
shared field by another agent in the cycle of a write of a higher-numbered slot is lost. -/
def Obligations.ScalarFieldsNameTheirRegisters : Prop :=
  ∀ (s : State) (c : CoreId) (k : Nat) (r q : Reg) (v : Word),
    let lands := ∀ d : Dest, (s.core c).outranked k d = false
    readReg s c k 0 = 0 ∧ writeReg s c k 0 v = s ∧ backReg s c k 0 v = s
    ∧ (r ≠ 0 → r.toNat < 16 ∨ lands → readReg (writeReg s c k r v) c k r = v)
    ∧ (16 ≤ r.toNat → (s.core c).outranked k (.scalar r) = true → writeReg s c k r v = s)
    ∧ (16 ≤ r.toNat → ∀ e ∈ (s.core c).stale, e.reg = .scalar r → e.till = (s.core c).cycle → k < e.slot → writeReg s c k r v = s)
    ∧ (q ≠ r → readReg (writeReg s c k r v) c k q = readReg s c k q)
    ∧ (∀ j, 16 ≤ r.toNat → lands → readReg (writeReg s c k r v) c j r = v)
    ∧ (∀ j, r.toNat < 16 → slotIx j ≠ slotIx k → readReg (writeReg s c k r v) c j q = readReg s c j q)
    ∧ (∀ d j, d ≠ c → readReg (writeReg s c k r v) d j q = readReg s d j q)
    ∧ (∀ x, readVec (writeReg s c k r v) c k x = readVec s c k x)
    ∧ (∀ x : Reg, ∀ u, x.toNat < 16 ∨ lands → readVec (writeVec s c k x u) c k x = u)
    ∧ SameMemory s (writeReg s c k r v)
    ∧ (let t := backReg s c k r v
      (r ≠ 0 → lastReg t c k r = v) ∧ (q ≠ r → lastReg t c k q = lastReg s c k q ∧ readReg t c k q = readReg s c k q)
      ∧ (r ≠ 0 → r.toNat < 16 → readReg t c k r = v) ∧ (16 ≤ r.toNat → readReg t c k r = readReg s c k r)
      ∧ (16 ≤ r.toNat → (s.core c).staleOf (.scalar r) = none → ∀ n,
          readReg (t.modCore c (fun x => { x with cycle := x.cycle + n })) c k r = (if n < 5 then readReg s c k r else v))
      ∧ (∀ x, readVec t c k x = readVec s c k x ∧ lastVec t c k x = lastVec s c k x) ∧ SameOtherSlots s t c k ∧ SameMemory s t)
    ∧ (16 ≤ r.toNat → (s.core c).staleOf (.scalar r) ≠ none → lastReg (writeReg s c k r v) c k r = lastReg s c k r)

/-- 03_strands R79, R82, R101 with SIGCTL.MODE 0. An instruction of len bytes that retires moves the pc by len in its offset, modulo 2^61, keeps
the segment number, leaves the thread in RUN, free to issue from the cycle after its write-back, and changes nothing else of the slot, no other slot, no shared register and no memory;
nothing is sent. -/
def Obligations.RetirementAdvancesOnlyThePc : Prop :=
  ∀ (s : State) (c : CoreId) (k : Nat) (r : Retire), bf (s.slot c k).sigctl 1 0 = 0 → r.len < 2 ^ 61 →
    let t := s.retire c k r
    (t.slot c k).st = .run ∧ (t.slot c k).wait = .none ∧ (t.slot c k).park = none
    ∧ bf (t.slot c k).pc 63 61 = bf (s.slot c k).pc 63 61
    ∧ bf (t.slot c k).pc 60 0 = (bf (s.slot c k).pc 60 0 + r.len) % 2 ^ 61
    ∧ { t.slot c k with st := (s.slot c k).st, wait := (s.slot c k).wait, park := (s.slot c k).park, pc := (s.slot c k).pc, readyAt := (s.slot c k).readyAt }
        = s.slot c k
    ∧ (t.slot c k).readyAt = max (s.slot c k).readyAt ((s.core c).cycle + 3)
    ∧ SameOtherSlots s t c k ∧ (t.core c).s = (s.core c).s ∧ (t.core c).vs = (s.core c).vs ∧ (t.core c).stale = (s.core c).stale
    ∧ SameMemory s t ∧ t.net = s.net ∧ t.faultRecs = s.faultRecs

/-- 03_strands R100, R101, R102. What the checker does with a mode other than 0: the six rows of R101's table, with the fold and the compare
of R100. -/
def Obligations.SignatureCheckerFollowsItsTable : Prop :=
  ∀ (w : Word) (r : Retire) (sig : BitVec 24), bf w 1 0 ≠ 0 → r.kind ≤ 4 →
    let st := bf w 3 2
    let n := bf w 8 4
    let h := bf w 31 16
    let exp := bf w 55 32
    let fold := r.fold.foldl (fun (x : Nat) (v : Reg) => ((x * 8 % 65536 + x / 8192 % 8) % 65536) ^^^ v.toNat) h
    (st = 1 ∨ st = 3 → (checker w r (some sig)) = (sigWord w sig.toNat 0 0 2, none))
    ∧ (st = 1 → ∃ f, checker w r none = (sigWord w exp h n 3, some f) ∧ f.cls = 0x48)
    ∧ (st = 2 → (checker w r (some sig)).1 = sigWord w sig.toNat 0 0 2
        ∧ ((checker w r (some sig)).2.isNone ↔ exp = n * 2 ^ 19 + h))
    ∧ (st = 2 → r.kind = 0 → checker w r none = (sigWord w exp fold ((n + 1) % 32) 2, none))
    ∧ (st = 2 → r.kind ≠ 0 → exp = (n + 1) % 32 * 2 ^ 19 + r.kind * 2 ^ 16 + fold →
        checker w r none = (sigWord w exp fold ((n + 1) % 32) 1, none))
    ∧ (st = 2 → r.kind ≠ 0 → exp ≠ (n + 1) % 32 * 2 ^ 19 + r.kind * 2 ^ 16 + fold →
        ∃ f, checker w r none = (sigWord w exp fold ((n + 1) % 32) 3, some f) ∧ f.cls = 0x48)
    ∧ (st = 3 → checker w r none = (w, none))

/-- 03_strands R78. An instruction that names a pending register is cancelled: its thread becomes BLOCKED on one of the pending registers it
names, and nothing else changes. Stated for one instruction of each of five classes. -/
def Obligations.PendingRegisterCancels : Prop :=
  ∀ (s : State) (d a b : Reg), s.anyPending (scalars [d, a, b]) = true →
    ∃ w, w ∈ scalars [d, a, b] ∧ isPending s s.curCore s.curSlot w = true ∧
      let t := s.cancel (.pendingRegister w)
      Runs (.add d a b) s t ∧ Runs (.fork d a b) s t ∧ Runs (.send d a b) s t ∧ Runs (.tladd d a b) s t ∧ Runs (.clinit d a b) s t
      ∧ (t.slot s.curCore s.curSlot) = { s.slot s.curCore s.curSlot with st := .blocked, wait := .reissue (.pendingRegister w) }
      ∧ SameOtherSlots s t s.curCore s.curSlot ∧ SameMemory s t ∧ t.net = s.net
      ∧ (t.core s.curCore).s = (s.core s.curCore).s ∧ (t.core s.curCore).vs = (s.core s.curCore).vs

/-- 02_encoding R52. An illegal instruction sends a record of class "illegal instruction" with the pc of the first parcel and its parcels, and
parks the thread; no register, no other slot and no memory changes. The record is a message to the handler mailbox of the thread's
effective RCB when the map has its core, and otherwise a fault-queue record. -/
def Obligations.IllegalInstructionParks : Prop :=
  ∀ (s : State) (p0 p1 : BitVec 16) (two : Bool),
    let c := s.curCore
    let k := s.curSlot
    let parcels := if two then p0.toNat + p1.toNat * 65536 else p0.toNat
    let f : FaultInfo := ⟨0x01, if two then 2 else 1, BitVec.ofNat 64 parcels, 0⟩
    ∃ t, Runs (.illegalInstruction p0 p1 two) s t ∧ t = (s.sendRecord c (s.who c k) f 1 false).modSlot c k
        (fun x => { x with st := .parked, wait := .none, park := some ⟨1, 1, (s.core c).cycle⟩ })
      ∧ t.slot c k = { s.slot c k with st := .parked, wait := .none, park := some ⟨1, 1, (s.core c).cycle⟩ }
      ∧ SameOtherSlots s t c k ∧ (t.core c).s = (s.core c).s ∧ (t.core c).vs = (s.core c).vs ∧ (t.core c).stale = (s.core c).stale ∧ SameMemory s t
      ∧ (t.net.length + t.faultRecs.length = s.net.length + s.faultRecs.length + 1)

/-! ### Integer instructions -/

/-- 04_integer R108. The table of R108, with every shift amount modulo 64, and the function code of each row. -/
def Obligations.IntegerTableOfR108 : Prop :=
  ∀ (s : State) (d a b : Reg), s.Ready (scalars [d, a, b]) →
    let x := s.reg a
    let y := s.reg b
    let sh := y.toNat % 64
    let row := fun (i : Instr) (fn : Nat) (v : Word) => Writes i s 4 [d, a, b] d v ∧ encodeWord i % 512 = fn
    row (.add d a b) 0 (x + y) ∧ row (.sub d a b) 1 (x - y) ∧ row (.and d a b) 2 (x &&& y) ∧ row (.or d a b) 3 (x ||| y)
    ∧ row (.xor d a b) 4 (x ^^^ y) ∧ row (.andn d a b) 5 (x &&& ~~~y) ∧ row (.sll d a b) 6 (x <<< sh) ∧ row (.srl d a b) 7 (x >>> sh)
    ∧ row (.sra d a b) 8 (x.sshiftRight sh) ∧ row (.rol d a b) 9 (if sh = 0 then x else (x <<< sh) ||| (x >>> (64 - sh)))
    ∧ row (.slt d a b) 17 (if x.toInt < y.toInt then 1 else 0) ∧ row (.sltu d a b) 18 (if x.toNat < y.toNat then 1 else 0)
    ∧ row (.min d a b) 19 (if x.toInt ≤ y.toInt then x else y) ∧ row (.max d a b) 20 (if y.toInt ≤ x.toInt then x else y)
    ∧ row (.minu d a b) 21 (if x.toNat ≤ y.toNat then x else y) ∧ row (.maxu d a b) 22 (if y.toNat ≤ x.toNat then x else y)

/-- 04_integer R109, R111, R112. Products by their exact 128-bit value, 32-bit sums sign-extended, and saturating sums. -/
def Obligations.ProductsWordsAndSaturation : Prop :=
  ∀ (s : State) (d a b : Reg), s.Ready (scalars [d, a, b]) →
    let x := s.reg a
    let y := s.reg b
    let code := fun (i : Instr) (fn : Nat) => encodeWord i / 2 ^ 24 = 0xC0 ∧ encodeWord i % 512 = fn
    let sp : BitVec 128 := BitVec.ofInt 128 (x.toInt * y.toInt)
    let up : BitVec 128 := BitVec.ofNat 128 (x.toNat * y.toNat)
    let sat := fun (i : Int) => if (0x7FFFFFFFFFFFFFFF : Int) < i then 0x7FFFFFFFFFFFFFFF#64
      else if i < -(2 : Int) ^ 63 then 0x8000000000000000#64 else BitVec.ofInt 64 i
    Writes (.mul d a b) s 4 [d, a, b] d (sp.setWidth 64) ∧ Writes (.mulh d a b) s 4 [d, a, b] d ((sp >>> 64).setWidth 64)
    ∧ Writes (.mulhu d a b) s 4 [d, a, b] d ((up >>> 64).setWidth 64)
    ∧ Writes (.addw d a b) s 4 [d, a, b] d (((x + y).setWidth 32).signExtend 64)
    ∧ Writes (.subw d a b) s 4 [d, a, b] d (((x - y).setWidth 32).signExtend 64)
    ∧ Writes (.adds d a b) s 4 [d, a, b] d (sat (x.toInt + y.toInt)) ∧ Writes (.subs d a b) s 4 [d, a, b] d (sat (x.toInt - y.toInt))
    ∧ code (.mul d a b) 10 ∧ code (.mulh d a b) 11 ∧ code (.mulhu d a b) 12 ∧ code (.addw d a b) 23 ∧ code (.subw d a b) 24 ∧ code (.adds d a b) 38 ∧ code (.subs d a b) 39

/-- 04_integer R105, R110; 03_strands R77, R79; 05_numbers R148; 06_vector R179. A division enters the divider: its thread is BLOCKED until 25
cycles after its issue, holding the quotient or remainder of the table. A unit delivers in its cycle, whose
result instructions that issue two cycles earlier read: the destination is written, the flags are raised and the instruction retires, and its
slot issues from the next cycle on; before that, the step changes nothing. That a delivery counts as the WB of an instruction two cycles on is the
model's choice (log 6). -/
def Obligations.DivisionsAndIterativeUnits : Prop :=
  (∀ (s : State) (d a b : Reg), s.Ready (scalars [d, a, b]) →
     let x := s.reg a
     let y := s.reg b
     let enters := fun (i : Instr) (v : Word) =>
       Runs i s (s.block (.iter .divider (.scalar d) (v.setWidth 256) 0 ((s.core s.curCore).cycle + 25) ⟨4, [d, a, b], 0⟩))
     let code := fun (i : Instr) (fn : Nat) => encodeWord i / 2 ^ 24 = 0xC0 ∧ encodeWord i % 512 = fn
     (code (.div d a b) 13 ∧ code (.divu d a b) 14 ∧ code (.rem d a b) 15 ∧ code (.remu d a b) 16)
     ∧ ∃ q r qu ru : Word, enters (.div d a b) q ∧ enters (.rem d a b) r ∧ enters (.divu d a b) qu ∧ enters (.remu d a b) ru
       ∧ (y = 0 → q = 0xFFFFFFFFFFFFFFFF#64 ∧ r = x ∧ qu = 0xFFFFFFFFFFFFFFFF#64 ∧ ru = x)
       ∧ (y ≠ 0 → qu.toNat = x.toNat / y.toNat ∧ ru.toNat = x.toNat % y.toNat)
       ∧ (x = 0x8000000000000000#64 → y = 0xFFFFFFFFFFFFFFFF#64 → q = 0x8000000000000000#64 ∧ r = 0)
       ∧ (y ≠ 0 → ¬(x = 0x8000000000000000#64 ∧ y = 0xFFFFFFFFFFFFFFFF#64) →
           q.toInt = x.toInt.tdiv y.toInt ∧ r.toInt = x.toInt - q.toInt * y.toInt))
  ∧ (∀ (s : State) (c k due : Nat) (d : Dest) (v : Vec) (f : BitVec 6) (r : Retire), (s.slot c k).st = .blocked →
     let held := fun (u : IterUnit) => (s.slot c k).wait = .iter u d v f due r
     let t := (((writeDest s c k d v).raiseAt c k f).retire c k r).modSlot c k (fun x => { x with readyAt := due + 1 })
     (held .divider → due ≤ (s.core c).cycle + 2 → Runs (.divideComplete c k) s t)
     ∧ (held .fp → due ≤ (s.core c).cycle + 2 → Runs (.fpIterativeComplete c k) s t)
     ∧ (held .vector → due ≤ (s.core c).cycle + 2 → Runs (.vectorIterativeComplete c k) s t)
     ∧ (held .divider → (s.core c).cycle + 2 < due → Runs (.divideComplete c k) s s)
     ∧ (held .fp → (s.core c).cycle + 2 < due → Runs (.fpIterativeComplete c k) s s)
     ∧ (held .vector → (s.core c).cycle + 2 < due → Runs (.vectorIterativeComplete c k) s s))

/-- 04_integer R113, R114. Counts, reversals and extensions of one operand, and the two selections. 04_integer R117, R118, R119. Bit fields,
bit by bit: a field is truncated at bit 63, width 0 extracts 0 and inserts nothing, and a variable offset of 64 or more does the same. -/
def Obligations.OneOperandSelectionAndBitFields : Prop :=
  (∀ (s : State) (d a b : Reg), s.Ready (scalars [d, a, b]) →
     let x := s.reg a
     let y := s.reg b
     let code := fun (i : Instr) (fn : Nat) => encodeWord i / 2 ^ 24 = 0xC0 ∧ encodeWord i % 512 = fn
     (∃ v : Word, Writes (.clz d a) s 4 [d, a] d v ∧ v.toNat ≤ 64 ∧ (∀ i, 64 - v.toNat ≤ i → x.getLsbD i = false)
       ∧ (v.toNat < 64 → x.getLsbD (63 - v.toNat) = true))
     ∧ (∃ v : Word, Writes (.ctz d a) s 4 [d, a] d v ∧ v.toNat ≤ 64 ∧ (∀ i, i < v.toNat → x.getLsbD i = false)
       ∧ (v.toNat < 64 → x.getLsbD v.toNat = true))
     ∧ (∃ v : Word, Writes (.popc d a) s 4 [d, a] d v ∧ v.toNat = ((List.range 64).filter (fun i => x.getLsbD i)).length)
     ∧ (∃ v : Word, Writes (.brev d a) s 4 [d, a] d v ∧ ∀ i, i < 64 → v.getLsbD i = x.getLsbD (63 - i))
     ∧ (∃ v : Word, Writes (.bswap d a) s 4 [d, a] d v ∧ ∀ n i, n < 8 → i < 8 → v.getLsbD (8 * n + i) = x.getLsbD (8 * (7 - n) + i))
     ∧ Writes (.sextb d a) s 4 [d, a] d ((x.setWidth 8).signExtend 64) ∧ Writes (.sexth d a) s 4 [d, a] d ((x.setWidth 16).signExtend 64)
     ∧ Writes (.sextw d a) s 4 [d, a] d ((x.setWidth 32).signExtend 64) ∧ Writes (.zextw d a) s 4 [d, a] d ((x.setWidth 32).setWidth 64)
     ∧ Writes (.selz d a b) s 4 [d, a, b] d (if y = 0 then x else s.reg d)
     ∧ Writes (.selnz d a b) s 4 [d, a, b] d (if y ≠ 0 then x else s.reg d)
     ∧ code (.clz d a) 25 ∧ code (.ctz d a) 26 ∧ code (.popc d a) 27 ∧ code (.brev d a) 28 ∧ code (.bswap d a) 29 ∧ code (.sextb d a) 30 ∧ code (.sexth d a) 31 ∧ code (.sextw d a) 32 ∧ code (.zextw d a) 33
     ∧ code (.selz d a b) 34 ∧ code (.selnz d a b) 35)
  ∧ (∀ (s : State) (d a b : Reg) (o w : BitVec 6), s.Ready (scalars [d, a, b]) →
     let x := s.reg a
     let old := s.reg d
     let bitf := fun (sub : Nat) => 0xC8 * 2 ^ 24 + d.toNat * 2 ^ 19 + a.toNat * 2 ^ 14 + o.toNat * 2 ^ 8 + sub * 2 ^ 6 + w.toNat
     let code := fun (i : Instr) (fn : Nat) => encodeWord i / 2 ^ 24 = 0xC0 ∧ encodeWord i % 512 = fn
     let width := fun (off n : Nat) => min n (64 - off)
     let isExtract := fun (v : Word) (off n : Nat) => ∀ i, i < 64 → v.getLsbD i = (decide (i < width off n) && x.getLsbD (off + i))
     let isSigned := fun (v : Word) (off n : Nat) => ∀ i, i < 64 →
       v.getLsbD i = (decide (width off n ≠ 0) && x.getLsbD (off + min i (width off n - 1)))
     let isInsert := fun (v : Word) (off n : Nat) => ∀ i, i < 64 →
       v.getLsbD i = if off ≤ i ∧ i < off + width off n then x.getLsbD (i - off) else old.getLsbD i
     let vo := (s.reg b).toNat % 256
     let vw := min ((s.reg b).toNat / 256 % 256) 64
     (∃ v, Writes (.extu d a o w) s 4 [d, a] d v ∧ isExtract v o.toNat w.toNat)
     ∧ (∃ v, Writes (.exts d a o w) s 4 [d, a] d v ∧ isSigned v o.toNat w.toNat)
     ∧ (∃ v, Writes (.ins d a o w) s 4 [d, a] d v ∧ isInsert v o.toNat w.toNat)
     ∧ (∃ v, Writes (.extv d a b) s 4 [d, a, b] d v ∧ (64 ≤ vo → v = 0) ∧ (vo < 64 → isExtract v vo vw))
     ∧ (∃ v, Writes (.insv d a b) s 4 [d, a, b] d v ∧ (64 ≤ vo → v = old) ∧ (vo < 64 → isInsert v vo vw))
     ∧ encodeWord (.extu d a o w) = bitf 0 ∧ encodeWord (.exts d a o w) = bitf 1 ∧ encodeWord (.ins d a o w) = bitf 2 ∧ code (.extv d a b) 36 ∧ code (.insv d a b) 37)

/-- 04_integer R115, R116, R120, R121, R122. Immediates sign-extended, shifts by an immediate, and constants. -/
def Obligations.ImmediatesAndConstants : Prop :=
  ∀ (s : State) (d a : Reg) (i : BitVec 14) (n : BitVec 6) (j : BitVec 19) (h : BitVec 16), s.Ready (scalars [d, a]) →
    let x := s.reg a
    let imm : Word := i.signExtend 64
    let word := fun (i : Instr) (cls low : Nat) => encodeWord i = cls * 2 ^ 24 + d.toNat * 2 ^ 19 + low
    let shift := fun (i : Instr) (op : Nat) => word i 0xC7 (a.toNat * 2 ^ 14 + op * 2 ^ 12 + n.toNat)
    let formI := fun (y : Instr) (cls : Nat) => word y cls (a.toNat * 2 ^ 14 + i.toNat)
    let pc := (s.slot s.curCore s.curSlot).pc
    Writes (.addi d a i) s 4 [d, a] d (x + imm) ∧ Writes (.andi d a i) s 4 [d, a] d (x &&& imm)
    ∧ Writes (.ori d a i) s 4 [d, a] d (x ||| imm) ∧ Writes (.xori d a i) s 4 [d, a] d (x ^^^ imm)
    ∧ Writes (.slti d a i) s 4 [d, a] d (if x.toInt < imm.toInt then 1 else 0)
    ∧ Writes (.sltiu d a i) s 4 [d, a] d (if x.toNat < imm.toNat then 1 else 0)
    ∧ Writes (.slli d a n) s 4 [d, a] d (x <<< n.toNat) ∧ Writes (.srli d a n) s 4 [d, a] d (x >>> n.toNat)
    ∧ Writes (.srai d a n) s 4 [d, a] d (x.sshiftRight n.toNat)
    ∧ Writes (.roli d a n) s 4 [d, a] d (if n.toNat = 0 then x else (x <<< n.toNat) ||| (x >>> (64 - n.toNat)))
    ∧ Writes (.li d j) s 4 [d] d (j.signExtend 64) ∧ Writes (.lish d h) s 4 [d] d (s.reg d * 65536 + h.setWidth 64)
    ∧ (∃ v, Writes (.addpc d j) s 4 [d] d v ∧ bf v 63 61 = bf pc 63 61
        ∧ bf v 60 0 = (bf pc 60 0 + ((j.signExtend 64) * 2 : Word).toNat) % 2 ^ 61)
    ∧ formI (.addi d a i) 0xC1 ∧ formI (.andi d a i) 0xC2 ∧ formI (.ori d a i) 0xC3 ∧ formI (.xori d a i) 0xC4 ∧ formI (.slti d a i) 0xC5
    ∧ formI (.sltiu d a i) 0xC6 ∧ word (.li d j) 0xC9 j.toNat ∧ word (.lish d h) 0xCA h.toNat ∧ word (.addpc d j) 0xCB j.toNat
    ∧ shift (.slli d a n) 0 ∧ shift (.srli d a n) 1 ∧ shift (.srai d a n) 2 ∧ shift (.roli d a n) 3

/-- 02_encoding R44. Each compact arithmetic instruction writes what its 32-bit equivalent writes, and retires with 2 bytes; the compact
branches go where BEQ and BNE with p0 go, or on by 2. -/
def Obligations.CompactFormsMatchTheirEquivalents : Prop :=
  ∀ (s : State) (d a b : KReg) (i : BitVec 4) (o : BitVec 8),
    let D := wideReg d
    let A := wideReg a
    let B := wideReg b
    s.Ready (scalars [D, A, B]) →
    let pair := fun (small wide : Instr) (ks ws : List Reg) => ∃ v, Writes small s 2 ks D v ∧ Writes wide s 4 ws D v
    pair (.movK d a) (.add D A 0) [D, A] [D, A, 0] ∧ pair (.addK d a b) (.add D A B) [D, A, B] [D, A, B]
    ∧ pair (.subK d a b) (.sub D A B) [D, A, B] [D, A, B] ∧ pair (.andK d a b) (.and D A B) [D, A, B] [D, A, B]
    ∧ pair (.orK d a b) (.or D A B) [D, A, B] [D, A, B] ∧ pair (.xorK d a b) (.xor D A B) [D, A, B] [D, A, B]
    ∧ pair (.addiK d a i) (.addi D A (i.signExtend 14)) [D, A] [D, A]
    ∧ pair (.slliK d a i) (.slli D A (i.setWidth 6)) [D, A] [D, A]
    ∧ (∀ taken, taken = (s.reg A == 0) →
        Runs (.beqz a o) s (s.doneTo (addOffset s.cur.pc (if taken then o.signExtend 64 * 2 else 2)) ⟨2, [A], 1⟩)
        ∧ Runs (.bnez a o) s (s.doneTo (addOffset s.cur.pc (if taken then 2 else o.signExtend 64 * 2)) ⟨2, [A], 1⟩)
        ∧ Runs (.beq A 0 (o.signExtend 14)) s (s.doneTo (addOffset s.cur.pc (if taken then o.signExtend 64 * 2 else 4)) ⟨4, [A, 0], 1⟩)
        ∧ Runs (.bne A 0 (o.signExtend 14)) s (s.doneTo (addOffset s.cur.pc (if taken then 4 else o.signExtend 64 * 2)) ⟨4, [A, 0], 1⟩))

/-! ### Control flow and strands -/

/-- 03_strands R83, R84, R85. Branches are taken as their table says, and JAL and JALR write the link and jump; the register that JALR adds to
is read before the link is written. -/
def Obligations.BranchesAndJumps : Prop :=
  ∀ (s : State) (d a b : Reg) (o i : BitVec 14) (j : BitVec 19), s.Ready (scalars [d, a, b]) →
    let x := s.reg a
    let y := s.reg b
    let pc := s.cur.pc
    let link := addOffset pc 4
    let cls := fun (i : Instr) (n : Nat) => encodeWord i / 2 ^ 24 = n
    let goes := fun (ins : Instr) (taken : Prop) (_ : Decidable taken) =>
      Runs ins s (s.doneTo (addOffset pc (if taken then o.signExtend 64 * 2 else 4)) ⟨4, [a, b], 1⟩)
    goes (.beq a b o) (x = y) inferInstance ∧ goes (.bne a b o) (x ≠ y) inferInstance
    ∧ goes (.blt a b o) (x.toInt < y.toInt) inferInstance ∧ goes (.bge a b o) (y.toInt ≤ x.toInt) inferInstance
    ∧ goes (.bltu a b o) (x.toNat < y.toNat) inferInstance ∧ goes (.bgeu a b o) (y.toNat ≤ x.toNat) inferInstance
    ∧ Runs (.jal d j) s ((s.putReg d link).doneTo (addOffset pc (j.signExtend 64 * 2)) ⟨4, [d], 2⟩)
    ∧ (∃ t, Runs (.jalr d a i) s ((s.putReg d link).doneTo t ⟨4, [d, a], 3⟩) ∧ t.getLsbD 0 = false
        ∧ ∀ n, 0 < n → t.getLsbD n = (x + i.signExtend 64).getLsbD n)
    ∧ cls (.beq a b o) 0xD0 ∧ cls (.bne a b o) 0xD1 ∧ cls (.blt a b o) 0xD2 ∧ cls (.bge a b o) 0xD3 ∧ cls (.bltu a b o) 0xD4 ∧ cls (.bgeu a b o) 0xD5
    ∧ encodeWord (.jal d j) = 0xD6 * 2 ^ 24 + d.toNat * 2 ^ 19 + j.toNat
    ∧ encodeWord (.jalr d a i) = 0xD7 * 2 ^ 24 + d.toNat * 2 ^ 19 + a.toNat * 2 ^ 14 + i.toNat

/-- 03_strands R69, R86, R87. With the checker off, FORK gives the lowest-numbered FREE slot that can take a context to the child, and d its
number; with none, d receives all ones and nothing starts. The child issues after FORK's WB. On a memory core firmware slots give to firmware slots and
user slots to user slots (12_engines R335; 07_access R463). -/
def Obligations.ForkStartsAChild : Prop :=
  ∀ (s : State) (d a b : Reg), s.Ready (scalars [d, a, b]) → bf s.cur.sigctl 1 0 = 0 → s.curSlot < 16 → s.cur.st = .run →
    let c := s.curCore
    let now := (s.core c).cycle
    let r := forkSlots c s.curSlot
    let can := fun (k : Nat) => r.1 ≤ k ∧ k < r.2 ∧ (s.slot c k).st = .free ∧ (s.slot c k).readyAt ≤ now + 1 ∧ (s.slot c k).nextGen.isSome = true
    (r = if isMemoryCore c = true then (if s.curSlot < 8 then (0, 8) else (8, 16)) else (0, 16))
    ∧ (∀ k, k < 16 → can k → (∀ j, j < k → ¬ can j) → ∃ t, Runs (.fork d a b) s t
      ∧ lastReg t c s.curSlot d = (if d = 0 then 0 else BitVec.ofNat 64 k)
      ∧ (t.slot c k).st = .run ∧ (t.slot c k).pc = s.reg a &&& ~~~1#64 ∧ (t.slot c k).p[1] = s.reg b
      ∧ (∀ n : Fin 16, 2 ≤ n.val → (t.slot c k).p[n] = 0) ∧ (∀ n : Fin 16, (t.slot c k).vp[n] = 0)
      ∧ (t.slot c k).segBase = s.cur.segBase ∧ (t.slot c k).segLim = s.cur.segLim ∧ (t.slot c k).fpctl = s.cur.fpctl
      ∧ (t.slot c k).fpst = 0 ∧ (t.slot c k).cvtcnt = 0 ∧ bf (t.slot c k).sigctl 1 0 = bf s.cur.sigctl 1 0
      ∧ (t.slot c k).rcbptr = s.cur.rcbptr ∧ (t.slot c k).gen ≠ (s.slot c k).gen ∧ (t.slot c k).readyAt = now + 8
      ∧ SameMemory s t ∧ t.net = s.net)
    ∧ ((∀ k, k < 16 → ¬ can k) → Runs (.fork d a b) s ((s.putReg d ones).done ⟨4, [d, a, b], 4⟩))

/-- 03_strands R71, R88, R91, R92, R93, R98. HALT and HALTK change nothing until their WB, whose step then frees a slot that is not lent and
was not started as a codelet, unless its context was contained meanwhile (15_system R420); HALTK's names its retention entry. That a FREE
slot's registers are zero is the model's choice (log 2), as is the step of a WB (log 6). YIELD makes its thread wait 8 + n cycles after
its issue; WAKE sends a wake message and retires; BSIG moves the pc by 4. With the checker off. -/
def Obligations.StrandInstructions : Prop :=
  ∀ (s : State) (a b : Reg) (sig : BitVec 24), s.Ready (scalars [a, b]) → bf s.cur.sigctl 1 0 = 0 → s.curSlot < 16 →
    let c := s.curCore
    let k := s.curSlot
    let n := (s.reg a).toNat % 65536
    let x := s.core c
    let succ := (s.reg b).toNat % 2 ^ 19
    let flies := fun (w : WriteBack) => s.modCore c (fun y => { y with landing := y.landing ++ [⟨x.cycle, k, x.cycle + 2, w⟩] })
    Runs .halt s (flies (.ending ⟨4, [], 4⟩ none 0 0)) ∧ Runs (.haltk a b) s (flies (.ending ⟨4, [a, b], 4⟩ none (BitVec.ofNat 16 n) succ))
    ∧ (s.cur.st = .run → s.cur.spilled = none → s.cur.origin.disp = false → ∀ (i due : Nat) (r : Retire) (m : BitVec 16),
        let t := s.writeBack c ⟨i, k, due, .ending r none m succ⟩
        (t.slot c k).st = .free ∧ (t.slot c k).gen = s.cur.gen ∧ (t.slot c k).p = Vector.replicate 16 0 ∧ SameOtherSlots s t c k
        ∧ SameMemory s t ∧ t.net = s.net ∧ (t.core c).retention = (x.retain m succ).retention)
    ∧ (s.cur.st = .contained → ∀ (i due : Nat) (r : Retire) (m : BitVec 16), s.writeBack c ⟨i, k, due, .ending r none m succ⟩ = s)
    ∧ (n ≠ 0 → ∃ t, Runs (.yield a) s t ∧ (t.slot c k).st = .blocked ∧ (t.slot c k).wait = .yield_ ((s.core c).cycle + 8 + n)
        ∧ (t.slot c k).pc = addOffset s.cur.pc 4)
    ∧ (n = 0 → Runs (.yield a) s (s.done ⟨4, [a], 4⟩))
    ∧ (∀ dst, s.coreTarget ((s.reg a).toNat / 16 % 2 ^ 15) = .ok (dst, none) → dst < 32768 →
        ∃ t m, Runs (.wake a) s t ∧ t.net = s.net ++ [m] ∧ m.body = .wake ∧ m.dst = dst ∧ m.slot = (s.reg a).toNat % 16
          ∧ (t.slot c k).st = .run ∧ (t.slot c k).pc = addOffset s.cur.pc 4)
    ∧ (∀ e, s.coreTarget ((s.reg a).toNat / 16 % 2 ^ 15) = .error e → Faults (.wake a) s ⟨0x13, e, s.reg a, 0⟩)
    ∧ Runs (.bsig sig) s (s.doneTo (addOffset s.cur.pc 4) ⟨4, [], 0⟩)

/-! ### Loads, stores and fences -/

/-- 07_access R185. The checks of a scalar access fault in their order: alignment, limit, rights (S too for a store whose GA does not name the
issuing core), the address, no load path, privilege. Stated for LDD and STD. -/
def Obligations.AccessChecksFaultInOrder : Prop :=
  ∀ (s : State) (d a : Reg) (i : BitVec 14), s.Ready (scalars [d, a]) →
    let A := s.reg a + i.signExtend 64
    let ga := s.cur.segGa A
    let lim := s.cur.segWord A
    let aligned := A.toNat % 8 = 0
    let fits := A.toNat % 2 ^ 61 + 8 ≤ lim.toNat % 2 ^ 58
    let part := s.partOf s.curCore s.curSlot
    let own := ga.toNat / 2 ^ 60 = 0 ∧ s.isOwnPkg (ga.toNat / 2 ^ 48 % 2 ^ 12) = true ∧ s.ownCoord s.curCore part (ga.toNat / 2 ^ 33 % 2 ^ 15) = true
    let named := fun (cls : Nat) => part.isSome = true ∨ capacityOk cls (ga.toNat % 2 ^ 48) = true
    let both := fun (cls : Nat) => (∃ f, Faults (.ldd d a i) s f ∧ f.cls = cls) ∧ (∃ f, Faults (.std d a i) s f ∧ f.cls = cls)
    (¬ aligned → both 0x10)
    ∧ (aligned → ¬ fits → both 0x11)
    ∧ (aligned → fits → lim.getLsbD 63 = false → ∃ f, Faults (.ldd d a i) s f ∧ f.cls = 0x12)
    ∧ (aligned → fits → lim.getLsbD 62 = false → ∃ f, Faults (.std d a i) s f ∧ f.cls = 0x12)
    ∧ (aligned → fits → lim.getLsbD 58 = false → ¬ own → ∃ f, Faults (.std d a i) s f ∧ f.cls = 0x12)
    ∧ (aligned → fits → lim.getLsbD 63 = true → lim.getLsbD 62 = true → lim.getLsbD 58 = true →
        (4 ≤ ga.toNat / 2 ^ 60 → both 0x13)
        ∧ (∀ cls, cls = 1 ∨ cls = 2 → ga.toNat / 2 ^ 60 = cls → s.isOwnPkg (ga.toNat / 2 ^ 48 % 2 ^ 12) = true →
            (named cls → both 0x14) ∧ (¬ named cls → both 0x13))
        ∧ (ga.toNat / 2 ^ 60 = 3 → s.isOwnPkg (ga.toNat / 2 ^ 48 % 2 ^ 12) = true → isCore (ga.toNat / 2 ^ 33 % 2 ^ 15) = true →
            controlListed (ga.toNat % 2 ^ 33) = true → s.cur.level = 0 → both 0x03))

/-- 07_access R186, R193, R195; 06_vector R176. A load from the issuing core's own scratchpad that nothing holds reads its bytes, lowest
address lowest, extends them, and retires; LDACQ also sets the acquire point. 02_encoding R44; 06_vector R174, R176. LDD.K reads the
doubleword at a + 8 imm; VLD reads 32 bytes into a vector register. -/
def Obligations.LocalLoadsReadTheirBytes : Prop :=
  (∀ (s : State) (d a : Reg) (i : BitVec 14) (n off : Nat), s.Ready (scalars [d, a]) →
     let A := s.reg a + i.signExtend 64
     let pa := scratchAddr s.curCore off
     let b := fun (j : Nat) => s.readByte (pa + j)
     s.checkAccess s.curCore s.curSlot A (scalarForm n rightR false) = .ok (.self off) → s.isHeld pa n = false →
     s.isPoisoned pa n = false →
     (n = 1 → Writes (.ldb d a i) s 4 [d, a] d ((b 0).signExtend 64) ∧ Writes (.ldbu d a i) s 4 [d, a] d ((b 0).setWidth 64))
     ∧ (n = 2 → Writes (.ldh d a i) s 4 [d, a] d ((b 1 ++ b 0).signExtend 64) ∧ Writes (.ldhu d a i) s 4 [d, a] d ((b 1 ++ b 0).setWidth 64))
     ∧ (n = 4 → Writes (.ldw d a i) s 4 [d, a] d ((b 3 ++ b 2 ++ b 1 ++ b 0).signExtend 64)
         ∧ Writes (.ldwu d a i) s 4 [d, a] d ((b 3 ++ b 2 ++ b 1 ++ b 0).setWidth 64))
     ∧ (n = 8 → Writes (.ldd d a i) s 4 [d, a] d (b 7 ++ b 6 ++ b 5 ++ b 4 ++ b 3 ++ b 2 ++ b 1 ++ b 0))
     ∧ (∀ z : BitVec 2, i = 0 → n = 2 ^ z.toNat → ∃ v : Word,
         Runs (.ldacq d a z) s (((s.putReg d v).acquire s.curCore s.curSlot).done ⟨4, [d, a], 0⟩)
         ∧ (∀ j, j < 8 → v.extractLsb' (8 * j) 8 = if j < n then b j else 0)))
  ∧ (∀ (s : State) (kd ka : KReg) (d a : Reg) (z : BitVec 4) (i : BitVec 14) (off : Nat),
     let c := s.curCore
     let k := s.curSlot
     let pa := scratchAddr c off
     (s.Ready (scalars [wideReg kd, wideReg ka]) →
       s.checkAccess c k (s.reg (wideReg ka) + BitVec.ofNat 64 (8 * z.toNat)) (scalarForm 8 rightR false) = .ok (.self off) →
       s.isHeld pa 8 = false → s.isPoisoned pa 8 = false →
       Writes (.lddK kd ka z) s 2 [wideReg kd, wideReg ka] (wideReg kd) (s.readWord pa))
     ∧ (s.Ready [.vector d, .scalar a] →
       s.checkAccess c k (s.reg a + i.signExtend 64 * 32) (vectorForm rightR false) = .ok (.self off) → off + 32 ≤ scratchSize c →
       s.isHeld pa 32 = false → s.isPoisoned pa 32 = false →
       ∃ v : Vec, Runs (.vld d a i) s ((s.putVec d v).done ⟨4, [d, a], 0⟩) ∧ ∀ j, j < 32 → v.extractLsb' (8 * j) 8 = s.readByte (pa + j))
     ∧ (s.Ready [.vector d, .scalar a] →
       s.checkAccess c k (s.reg a + i.signExtend 64 * 32) (vectorForm rightR false) = .ok (.self off) → scratchSize c < off + 32 →
       Faults (.vld d a i) s ⟨0x15, 0, s.cur.segGa (s.reg a + i.signExtend 64 * 32), 0⟩))

/-- 07_access R186, R193, R196; 02_encoding R44; 06_vector R177. With the checker off, a store to the issuing core's own scratchpad that
nothing holds retires at once and writes the low bytes of its data at its WB, lowest byte at the lowest address: instructions that issue in the
next cycle read the old bytes, and those that issue two cycles after it the new ones (10_ordering R270). No other byte and no register changes.
With no other write-back in flight. -/
def Obligations.LocalStoresWriteTheirBytes : Prop :=
  ∀ (s : State) (d a : Reg) (kd ka : KReg) (i : BitVec 14) (w : BitVec 4) (z : BitVec 2) (off : Nat), s.CanonicalMemory →
    isCore s.curCore = true → s.CheckerOff s.curCore s.curSlot → s.cur.posted = [] → (s.core s.curCore).landing = [] →
    let c := s.curCore
    let pa := scratchAddr c off
    let at_ := fun (t : State) (n : Nat) => (t.modCore c (fun x => { x with cycle := x.cycle + n })).land c
    let stores := fun (ins : Instr) (len : Nat) (names : List Dest) (addr : Word) (f : Form) (data : Vec) => s.Ready names →
      s.checkAccess c s.curSlot addr f = .ok (.self off) → s.isHeld pa f.size = false → (f = vectorForm rightW true → off + 32 ≤ scratchSize c) →
      ∃ t, Runs ins s t ∧ SameMemory s t ∧ SameMemory s (at_ t 1)
        ∧ (∀ j, j < f.size → (at_ t 2).readByte (pa + j) = data.extractLsb' (8 * j) 8) ∧ SameOutside s (at_ t 2) pa f.size
        ∧ SameRegisters s t ∧ Advanced s t c s.curSlot len ∧ (at_ t 2).CanonicalMemory
    let A := s.reg a + i.signExtend 64
    let scalar := fun (ins : Instr) (n : Nat) => stores ins 4 (scalars [d, a]) A (scalarForm n rightW true) ((s.reg d).setWidth 256)
    scalar (.stb d a i) 1 ∧ scalar (.sth d a i) 2 ∧ scalar (.stw d a i) 4 ∧ scalar (.std d a i) 8
    ∧ stores (.strel d a z) 4 (scalars [d, a]) (s.reg a) (acquireForm (2 ^ z.toNat) rightW true) ((s.reg d).setWidth 256)
    ∧ stores (.stdK kd ka w) 2 (scalars [wideReg kd, wideReg ka]) (s.reg (wideReg ka) + BitVec.ofNat 64 (8 * w.toNat)) (scalarForm 8 rightW true)
        ((s.reg (wideReg kd)).setWidth 256)
    ∧ stores (.vst d a i) 4 [.vector d, .scalar a] (s.reg a + i.signExtend 64 * 32) (vectorForm rightW true) (s.vec d)

/-- 07_access R188, R189, R194, R195, R196; 06_vector R176, R177. A load from another core's scratchpad, LDACQ and VLD among them, sends one
request for its bytes and blocks its thread; a store to one, STREL and VST among them, leaves as one posted message, takes an entry with its
physical home, and retires; with all 32 entries in use it is cancelled; STREL leaves only once the thread's posted table is empty. 07_access
R197, R199. FENCE retires when no posted entry has its home inside the scope, and otherwise blocks; FENCE.I retires when no
range-scoreboard entry of its core is active, and otherwise waits for those that are. -/
def Obligations.RemoteAccessesAndFences : Prop :=
  (∀ (s : State) (d a : Reg) (i : BitVec 14) (z : BitVec 2) (h off : Nat), h < 32768 → s.CheckerOff s.curCore s.curSlot →
     let c := s.curCore
     let k := s.curSlot
     let A := s.reg a + i.signExtend 64
     let V := s.reg a + i.signExtend 64 * 32
     let low : Vec := (s.reg d).setWidth 256
     let asks := fun (ins : Instr) (names : List Dest) (at_ : Word) (f : Form) (use : ReplyUse) => s.Ready names →
       s.checkAccess c k at_ f = .ok (.scratch h off) →
       ∃ t m, Runs ins s t ∧ t.net = s.net ++ [m] ∧ m.src = c ∧ m.dst = h ∧ m.slot = k ∧ m.gen = s.cur.gen ∧ m.post = none
         ∧ m.body = .load (scratchAddr h off) f.size ∧ (t.slot c k).st = .blocked ∧ (t.slot c k).pc = s.cur.pc
         ∧ (t.slot c k).wait = .reply use ⟨4, [d, a], 0⟩ m.body (s.waitName c k h none m.body)
         ∧ (t.slot c k).outstanding s.cur.gen = s.cur.outstanding s.cur.gen + 1 ∧ SameRegisters s t ∧ SameMemory s t
     let posts := fun (ins : Instr) (names : List Dest) (at_ : Word) (f : Form) (data : Vec) => s.Ready names →
       s.checkAccess c k at_ f = .ok (.scratch h off) →
       (s.cur.posted.length < 32 → ∃ t m, Runs ins s t ∧ t.net = s.net ++ [m] ∧ m.src = c ∧ m.dst = h ∧ m.slot = k ∧ m.gen = s.cur.gen
         ∧ m.post = some s.cur.nextPost ∧ m.body = .store (scratchAddr h off) f.size data
         ∧ (t.slot c k).posted = s.cur.posted ++ [⟨s.cur.nextPost, some h⟩] ∧ Advanced s t c k 4 ∧ SameRegisters s t ∧ SameMemory s t)
       ∧ (32 ≤ s.cur.posted.length → Runs ins s (s.cancel .postedFull))
     let load := fun (ins : Instr) (n : Nat) (sgn : Bool) => asks ins (scalars [d, a]) A (scalarForm n rightR false) (.load d n sgn false)
     let store := fun (ins : Instr) (n : Nat) => posts ins (scalars [d, a]) A (scalarForm n rightW true) low
     let rel := acquireForm (2 ^ z.toNat) rightW true
     load (.ldb d a i) 1 true ∧ load (.ldbu d a i) 1 false ∧ load (.ldh d a i) 2 true ∧ load (.ldhu d a i) 2 false ∧ load (.ldw d a i) 4 true
     ∧ load (.ldwu d a i) 4 false ∧ load (.ldd d a i) 8 false
     ∧ asks (.ldacq d a z) (scalars [d, a]) (s.reg a) (acquireForm (2 ^ z.toNat) rightR false) (.load d (2 ^ z.toNat) false true)
     ∧ (off + 32 ≤ scratchSize h → asks (.vld d a i) [.vector d, .scalar a] V (vectorForm rightR false) (.vload d))
     ∧ store (.stb d a i) 1 ∧ store (.sth d a i) 2 ∧ store (.stw d a i) 4 ∧ store (.std d a i) 8
     ∧ (off + 32 ≤ scratchSize h → posts (.vst d a i) [.vector d, .scalar a] V (vectorForm rightW true) (s.vec d))
     ∧ (s.cur.posted = [] → posts (.strel d a z) (scalars [d, a]) (s.reg a) rel low)
     ∧ (s.cur.posted ≠ [] → s.Ready (scalars [d, a]) → s.checkAccess c k (s.reg a) rel = .ok (.scratch h off) →
         Runs (.strel d a z) s (s.block (.release none (s.waitingPacket c k h none (.store (scratchAddr h off) (2 ^ z.toNat) low)) none ⟨4, [d, a], 0⟩))))
  ∧ (∀ (s : State) (sc : BitVec 5),
     let c := s.curCore
     let inside := s.cur.posted.any (fun e => e.inScope sc.toNat c)
     (inside = false → Runs (.fence sc) s (s.done ⟨4, [], 0⟩))
     ∧ (inside = true → Runs (.fence sc) s (s.block (.fence sc.toNat ⟨4, [], 0⟩)))
     ∧ ((s.core c).sb = [] → Runs .fenceI s (s.done ⟨4, [], 0⟩))
     ∧ ((s.core c).sb ≠ [] → Runs .fenceI s (s.block (.fenceI ((s.core c).sb.map (fun e => e.id)) ⟨4, [], 0⟩)))
     ∧ (∀ h : CoreId, isCompute c = true → isCompute h = true →
         (scopeHas 0 c h = true ↔ c = h) ∧ (scopeHas 1 c h = true ↔ clusterOf c = clusterOf h) ∧ (scopeHas 2 c h = true ↔ bulkheadOf c = bulkheadOf h)
         ∧ (scopeHas 3 c h = true ↔ dieOf c = dieOf h) ∧ scopeHas 4 c h = true ∧ scopeHas 5 c h = true))

/-! ### Requests at their homes, and replies -/

/-- 07_access R189, R191; 10_ordering R278. At its home an admitted load request that nothing holds or refuses is answered with its bytes, and a
posted store writes them and is acknowledged; the answer goes to the thread and generation that the request names. A VLD or VST is served in
pieces of 8 bytes, of which the last one answers. 07_access R191; 03_strands R89;
15_system R417. A reply that its thread waits for: `done` writes the register and retires the load, `absent` parks the thread (03_strands R81: a wake
that reached its slot in the same core cycle releases the park), `poisoned` contains it; a reply with another generation changes no register and no state of the slot but its count. 07_access R191, R194. An
acknowledgement frees its entry and counts against its generation; a FENCE none of whose entries is left retires, and one that is not
`done` sends a record and parks nobody, or, where its context has left the slot, is discarded. With the checker off. -/
def Obligations.HomesAndRepliesOfAccesses : Prop :=
  (∀ (s s1 : State) (n a len : Nat) (m : Msg), s.pick n = some (m, s1) → s.isAbsent m = false → m.src < 32768 → addrClass a = 0 →
     s.isHeld a len = false → s.spillRefused m a len = false →
     let reply := fun (b : Body) => { m with src := m.dst, dst := m.src, held := none, body := b }
     (len ≤ 8 → m.body = .load a len → m.post = none → s.isPoisoned a len = false →
       ∃ t, Runs (.loadRequest n) s t ∧ t.net = s.net.eraseIdx n ++ [reply (.dataReply .done (BitVec.ofNat 256 (s.readNat a len)) 0)]
         ∧ SameMemory s t ∧ SameRegisters s t)
     ∧ (len ≤ 8 → m.body = .load a len → m.post = none → s.isPoisoned a len = true →
       ∃ t, Runs (.loadRequest n) s t ∧ t.net = s.net.eraseIdx n ++ [reply (.dataReply .poisoned 0 0)] ∧ SameMemory s t ∧ SameRegisters s t)
     ∧ (8 < len → m.body = .load a len → s.isPoisoned a 8 = false → Runs (.loadRequest n) s
         { s with net := (s.net.eraseIdx n).insertIdx n { m with body := .pieces (a + 8) (len - 8) (s.readBytes a 8) } })
     ∧ (∀ got, len ≤ 8 → m.body = .pieces a len got → m.post = none → s.isPoisoned a len = false →
       ∃ t, Runs (.loadRequest n) s t ∧ SameMemory s t ∧ SameRegisters s t
         ∧ t.net = s.net.eraseIdx n ++ [reply (.dataReply .done (BitVec.ofNat 256 (ofBytes (got ++ s.readBytes a len))) 0)])
     ∧ (∀ data e, s.CanonicalMemory → 8 < len → m.body = .store a len data → m.post = some e →
       ∃ t w, Runs (.store n) s t ∧ t.net = (s.net.eraseIdx n ++ w).insertIdx n { m with body := .storing (a + 8) (len - 8) (data >>> 64) a }
         ∧ (∀ j, j < 8 → t.readByte (a + j) = BitVec.ofNat 8 (data.toNat / 256 ^ j)) ∧ SameOutside s t a 8 ∧ SameRegisters s t)
     ∧ (∀ data e, s.CanonicalMemory → len ≤ 8 → (m.body = .store a len data ∨ ∃ base, m.body = .storing a len data base) → m.post = some e →
       ∃ t w g, Runs (.store n) s t ∧ t.net = s.net.eraseIdx n ++ w ++ [reply (.ack .done e g 0)]
         ∧ (∀ j, j < len → t.readByte (a + j) = BitVec.ofNat 8 (data.toNat / 256 ^ j)) ∧ SameOutside s t a len ∧ SameRegisters s t))
  ∧ (∀ (s s1 : State) (n : Nat) (m : Msg) (st : Status) (v : Vec), s.pick n = some (m, s1) → m.body = .dataReply st v 0 →
     s.gateAdmits m = true → s.delivers m.src m.dst = true → s.CheckerOff m.dst m.slot →
     let c := m.dst
     let k := m.slot
     let x := s.slot c k
     (x.accepts m.gen = true → ∀ d size signed r req tgt, x.wait = .reply (.load d size signed false) r req tgt →
       (st = .done → d.toNat < 16 ∨ (s.core c).outranked k (.scalar d) = false → ∃ t, Runs (.dataReply n) s t ∧ readReg t c k d = (if d = 0 then 0 else extendLoad size signed v.toNat)
         ∧ Advanced s t c k r.len ∧ SameMemory s t ∧ t.net = s.net.eraseIdx n)
       ∧ (st = .absent → ∃ t, Runs (.dataReply n) s t ∧ (t.slot c k).st = (if x.wokenAt = some (s.core c).cycle then .run else .parked)
         ∧ (t.slot c k).pc = x.pc ∧ SameRegisters s t ∧ SameMemory s t)
       ∧ (st = .poisoned → ∃ t, Runs (.dataReply n) s t ∧ (t.slot c k).st = .contained ∧ (∀ r : Reg, r.toNat < 16 → readReg t c k r = 0)
         ∧ SameMemory s t))
     ∧ (x.accepts m.gen = false → ∃ t, Runs (.dataReply n) s t ∧ SameRegisters s t ∧ SameMemory s t
         ∧ t.slot c k = x.subOut m.gen ∧ t.net = s.net.eraseIdx n))
  ∧ (∀ (s s1 : State) (n e : Nat) (m : Msg) (st : Status) (a i : Word), s.pick n = some (m, s1) → m.body = .ack st e a i →
     s.gateAdmits m = true → s.delivers m.src m.dst = true → s.CheckerOff m.dst m.slot → (s.core m.dst).owed = [] →
     let c := m.dst
     let k := m.slot
     let x := s.slot c k
     let left := x.posted.filter (fun p => p.id != e)
     (x.st = .run → st = .done → ∃ t, Runs (.acknowledgement n) s t ∧ (t.slot c k).posted = left ∧ (t.slot c k).st = .run ∧ (t.slot c k).pc = x.pc
         ∧ (t.slot c k).outst = (x.subOut m.gen).outst ∧ SameRegisters s t ∧ SameMemory s t ∧ t.net = s.net.eraseIdx n
         ∧ t.faultRecs = s.faultRecs)
     ∧ (x.st = .run → st = .absent → ∃ t, Runs (.acknowledgement n) s t ∧ (t.slot c k).posted = left ∧ (t.slot c k).st = .run
         ∧ t.net.length + t.faultRecs.length = s.net.length - 1 + s.faultRecs.length + (if x.expects m.gen then 1 else 0)
         ∧ SameRegisters s t ∧ SameMemory s t)
     ∧ (∀ sc r, x.st = .blocked → x.wait = .fence sc r → st = .done → left.all (fun p => !p.inScope sc c) = true →
         ∃ t, Runs (.acknowledgement n) s t ∧ (t.slot c k).posted = left ∧ Advanced s t c k r.len ∧ SameRegisters s t ∧ SameMemory s t))

/-! ### Atomics and synchronisation -/

/-- 09_sync R246, R248, R249. An atomic on the issuing core's own scratchpad that nothing holds writes the table's new value, even when it
equals the old one, and gives d the old value (sign-extended in its word form, zero-extended for AMOFADD); with d = p0 only the memory
changes. With the checker off. 09_sync R245, R248. On another core's scratchpad it leaves as one request with its operands and the thread waits
for the old value, or, with d = p0, as one posted message that takes an entry, while one is free, and retires. At its home an admitted atomic
that nothing holds or refuses is performed and answered with the old value; a posted one is acknowledged. -/
def Obligations.AtomicsReplaceAndReturnTheOldValue : Prop :=
  (∀ (s : State) (d a b : Reg) (z : BitVec 1) (off : Nat), s.Ready (scalars [d, a, b]) → s.CanonicalMemory → isCore s.curCore = true →
     s.CheckerOff s.curCore s.curSlot →
     let n := if z = 1 then 8 else 4
     let w := 8 * n
     let pa := scratchAddr s.curCore off
     s.checkAccess s.curCore s.curSlot (s.reg a) (atomicForm s.curCore n) = .ok (.self off) → s.isHeld pa n = false →
     s.isPoisoned pa n = false →
     let old := s.readNat pa n
     let x := (s.reg b).toNat % 2 ^ w
     let cmp := (if d = 0 then 0 else (s.reg d).toNat) % 2 ^ w
     let lesser := decide ((BitVec.ofNat w old).toInt ≤ (BitVec.ofNat w x).toInt)
     let wide : Word := if z = 1 then BitVec.ofNat 64 old else (BitVec.ofNat 32 old).signExtend 64
     let does := fun (i : Instr) (v : Nat) (r : Word) => ∃ t, Runs i s t ∧ t.readNat pa n = v ∧ SameOutside s t pa n
       ∧ lastReg t s.curCore s.curSlot d = (if d = 0 then 0 else r) ∧ Advanced s t s.curCore s.curSlot 4 ∧ t.CanonicalMemory
       ∧ (∀ q, q ≠ d → readReg t s.curCore s.curSlot q = s.reg q ∧ lastReg t s.curCore s.curSlot q = lastReg s s.curCore s.curSlot q)
     does (.amoadd d a b z) ((old + x) % 2 ^ w) wide ∧ does (.amoand d a b z) (old &&& x) wide ∧ does (.amoor d a b z) (old ||| x) wide
     ∧ does (.amoxor d a b z) (old ^^^ x) wide ∧ does (.amomin d a b z) (if lesser then old else x) wide
     ∧ does (.amomax d a b z) (if lesser then x else old) wide ∧ does (.amominu d a b z) (if old ≤ x then old else x) wide
     ∧ does (.amomaxu d a b z) (if old ≤ x then x else old) wide ∧ does (.amoswap d a b z) x wide
     ∧ does (.amocas d a b z) (if old = cmp then x else old) wide
     ∧ does (.amofadd d a b z) (((if z = 1 then fp64 else fp32).add .rne old x).1 % 2 ^ w) (BitVec.ofNat 64 old))
  ∧ (∀ (s : State) (d a b : Reg) (z : BitVec 1) (h off : Nat), s.Ready (scalars [d, a, b]) → h < 32768 → s.CheckerOff s.curCore s.curSlot →
     let c := s.curCore
     let k := s.curSlot
     let dbl := decide (z = 1)
     s.checkAccess c k (s.reg a) (atomicForm c (if dbl then 8 else 4)) = .ok (.scratch h off) →
     let leaves := fun (i : Instr) (op : Nat) =>
       let body : Body := .atomic op dbl (scratchAddr h off) (s.reg b) (if d = 0 then 0 else s.reg d)
       (d ≠ 0 → ∃ t m, Runs i s t ∧ t.net = s.net ++ [m] ∧ m.src = c ∧ m.dst = h ∧ m.slot = k ∧ m.gen = s.cur.gen ∧ m.post = none ∧ m.body = body
         ∧ (t.slot c k).st = .blocked ∧ (t.slot c k).pc = s.cur.pc
         ∧ (t.slot c k).wait = .reply (.amo d op dbl) ⟨4, [d, a, b], 0⟩ body (s.waitName c k h none body) ∧ SameRegisters s t ∧ SameMemory s t)
       ∧ (d = 0 → s.cur.posted.length < 32 → ∃ t m, Runs i s t ∧ t.net = s.net ++ [m] ∧ m.src = c ∧ m.dst = h ∧ m.slot = k ∧ m.gen = s.cur.gen
         ∧ m.post = some s.cur.nextPost ∧ m.body = body ∧ (t.slot c k).posted = s.cur.posted ++ [⟨s.cur.nextPost, some h⟩]
         ∧ Advanced s t c k 4 ∧ SameRegisters s t ∧ SameMemory s t)
       ∧ (d = 0 → 32 ≤ s.cur.posted.length → Runs i s (s.cancel .postedFull))
     leaves (.amoadd d a b z) 0 ∧ leaves (.amoand d a b z) 1 ∧ leaves (.amoor d a b z) 2 ∧ leaves (.amoxor d a b z) 3 ∧ leaves (.amomin d a b z) 4
     ∧ leaves (.amomax d a b z) 5 ∧ leaves (.amominu d a b z) 6 ∧ leaves (.amomaxu d a b z) 7 ∧ leaves (.amoswap d a b z) 8
     ∧ leaves (.amocas d a b z) 9 ∧ leaves (.amofadd d a b z) 10)
  ∧ (∀ (s s1 : State) (n op a : Nat) (dbl : Bool) (x c : Word) (m : Msg), s.pick n = some (m, s1) → s.isAbsent m = false → m.src < 32768 →
     m.body = .atomic op dbl a x c → addrClass a = 0 → s.isHeld a (amoSize dbl) = false → s.spillRefused m a (amoSize dbl) = false →
     s.isPoisoned a (amoSize dbl) = false → s.CanonicalMemory →
     let w := 8 * amoSize dbl
     let old := s.readNat a (amoSize dbl)
     let new := (amoNew op w old (x.toNat % 2 ^ w) (c.toNat % 2 ^ w))
     ∃ t ws body, Runs (.atomic n) s t
       ∧ t.net = s.net.eraseIdx n ++ ws ++ [{ m with src := m.dst, dst := m.src, held := none, body := body }]
       ∧ (m.post = none → body = .dataReply .done (BitVec.ofNat 256 old) (if op = 10 then new.2 else 0))
       ∧ (∀ e, m.post = some e → ∃ g, body = .ack .done e g 0)
       ∧ t.readNat a (amoSize dbl) = new.1 % 2 ^ w ∧ SameOutside s t a (amoSize dbl) ∧ SameRegisters s t ∧ t.CanonicalMemory)

/-- 09_sync R264, R265, R266. Timeline and ticket instructions on the issuing core's own scratchpad, with nothing held and no posted operation
left: the word they change, the value d receives, and the wait of TLWAIT and TKWAIT until (int64)(v - t) is not negative. With the checker
off. 09_sync R245, R246, R264. On another core's scratchpad each leaves as one request, whose answer d waits for, or, with d = p0 and nothing
acquired, as one posted message; TLADD, TLSET and TKDONE leave only once the thread's posted table is empty. At its home TLADD, TLSET, TKT and
TKDONE change their word and are answered with the old one, or acknowledged; TLRD is answered with it. -/
def Obligations.TimelinesAndTickets : Prop :=
  (∀ (s : State) (d a b : Reg) (off : Nat), s.Ready (scalars [d, a, b]) → s.CanonicalMemory → isCore s.curCore = true →
    s.CheckerOff s.curCore s.curSlot → s.cur.posted = [] →
    let c := s.curCore
    let k := s.curSlot
    let pa := scratchAddr c off
    let at8 := s.checkAccess c k (s.reg a) (atomicForm c 8) = .ok (.self off)
    let at16 := s.checkAccess c k (s.reg a) (atomicForm c 16) = .ok (.self off)
    let free := fun (n x : Nat) => s.isHeld pa n = false ∧ s.isPoisoned x 8 = false
    let changes := fun (i : Instr) (x : Nat) (v : Word) => ∃ t, Runs i s t ∧ t.readWord x = v ∧ SameOutside s t x 8
      ∧ lastReg t c k d = (if d = 0 then 0 else s.readWord x) ∧ Advanced s t c k 4
    let reads := fun (i : Instr) (x : Nat) => ∃ t, Runs i s t ∧ SameMemory s t ∧ lastReg t c k d = (if d = 0 then 0 else s.readWord x)
      ∧ (t.slot c k).acq = s.tick ∧ Advanced s t c k 4
    let waits := fun (i : Instr) (x : Nat) => ∃ t, Runs i s t ∧ (t.slot c k).st = .blocked ∧ (t.slot c k).pc = s.cur.pc
      ∧ (t.core c).waiters = (s.core c).waiters ++ [⟨.word x (s.reg b), c, k, s.cur.gen⟩] ∧ SameMemory s t ∧ SameRegisters s t
    let reached := fun (x : Nat) => 0 ≤ (s.readWord x - s.reg b).toInt
    (at8 → free 8 pa → changes (.tladd d a b) pa (s.readWord pa + s.reg b) ∧ changes (.tlset d a b) pa (s.reg b) ∧ reads (.tlrd d a) pa
      ∧ (reached pa → reads (.tlwait d a b) pa)
      ∧ (¬ reached pa → (s.core c).waiters.length < 64 → waits (.tlwait d a b) pa))
    ∧ (at16 → free 16 pa → changes (.tkt d a) pa (s.readWord pa + 1))
    ∧ (at16 → free 16 (pa + 8) → changes (.tkdone d a) (pa + 8) (s.readWord (pa + 8) + 1)
      ∧ (reached (pa + 8) → reads (.tkwait d a b) (pa + 8))
      ∧ (¬ reached (pa + 8) → (s.core c).waiters.length < 64 → waits (.tkwait d a b) (pa + 8))))
  ∧ (∀ (s : State) (d a b : Reg) (h off : Nat), s.Ready (scalars [d, a, b]) → h < 32768 → s.CheckerOff s.curCore s.curSlot →
     let c := s.curCore
     let k := s.curSlot
     let leaves := fun (i : Instr) (names : List Reg) (op n : Nat) (x : Word) (acq rel : Bool) =>
       s.checkAccess c k (s.reg a) (atomicForm c n) = .ok (.scratch h off) →
       let body : Body := .sync op (scratchAddr h off) x
       let r : Retire := ⟨4, names, 0⟩
       (rel = false ∨ s.cur.posted = [] →
         (d ≠ 0 ∨ acq = true → ∃ t m, Runs i s t ∧ t.net = s.net ++ [m] ∧ m.src = c ∧ m.dst = h ∧ m.slot = k ∧ m.gen = s.cur.gen ∧ m.post = none
           ∧ m.body = body ∧ (t.slot c k).st = .blocked ∧ (t.slot c k).pc = s.cur.pc
           ∧ (t.slot c k).wait = .reply (.word d acq) r body (s.waitName c k h none body) ∧ SameRegisters s t ∧ SameMemory s t)
         ∧ (d = 0 → acq = false → s.cur.posted.length < 32 → ∃ t m, Runs i s t ∧ t.net = s.net ++ [m] ∧ m.src = c ∧ m.dst = h ∧ m.slot = k
           ∧ m.gen = s.cur.gen ∧ m.post = some s.cur.nextPost ∧ m.body = body
           ∧ (t.slot c k).posted = s.cur.posted ++ [⟨s.cur.nextPost, some h⟩] ∧ Advanced s t c k 4 ∧ SameRegisters s t ∧ SameMemory s t))
       ∧ (rel = true → s.cur.posted ≠ [] → Runs i s (s.block
           (.release none (s.waitingPacket c k h none body) (if d = 0 ∧ acq = false then none else some (.word d acq)) r)))
     leaves (.tladd d a b) [d, a, b] 6 8 (s.reg b) false true ∧ leaves (.tlset d a b) [d, a, b] 7 8 (s.reg b) false true
     ∧ leaves (.tlrd d a) [d, a] 8 8 0 true false ∧ leaves (.tlwait d a b) [d, a, b] 9 8 (s.reg b) true false
     ∧ leaves (.tkt d a) [d, a] 10 16 0 false false ∧ leaves (.tkwait d a b) [d, a, b] 11 16 (s.reg b) true false
     ∧ leaves (.tkdone d a) [d, a] 12 16 0 false true)
  ∧ (∀ (s s1 : State) (n op a : Nat) (x : Word) (m : Msg), s.pick n = some (m, s1) → s.isAbsent m = false → m.src < 32768 →
     m.body = .sync op a x → addrClass a = 0 → s.CanonicalMemory →
     let serves := fun (w size : Nat) (new : Word) => s.isHeld a size = false → s.spillRefused m a size = false → s.isPoisoned w 8 = false →
       ∃ t ws body, Runs (.synchronisation n) s t
         ∧ t.net = s.net.eraseIdx n ++ ws ++ [{ m with src := m.dst, dst := m.src, held := none, body := body }]
         ∧ (m.post = none → body = .dataReply .done ((s.readWord w).setWidth 256) 0) ∧ (∀ e, m.post = some e → ∃ g, body = .ack .done e g 0)
         ∧ t.readWord w = new ∧ SameOutside s t w 8 ∧ SameRegisters s t ∧ t.CanonicalMemory
     (op = 6 → serves a 8 (s.readWord a + x)) ∧ (op = 7 → serves a 8 x) ∧ (op = 8 → serves a 8 (s.readWord a))
     ∧ (op = 10 → serves a 16 (s.readWord a + 1)) ∧ (op = 12 → serves (a + 8) 16 (s.readWord (a + 8) + 1)))

/-- 09_sync R264, R265. At its home a wait that is satisfied, or a read, is answered with the value; one that is not becomes a waiter, and
with all 64 entries in use it is answered `retry`; its thread sends it again 256 transit clocks after that reply. 09_sync R265; 07_access R202. A wait
answered `retry` leaves again as a new message once its time has come, and not before, to where the map then has its target. 09_sync R266. A write to a doubleword of a
scratchpad answers exactly the waiters that its new value satisfies, and they leave the table; the others stay. -/
def Obligations.WaitsAreServedRetriedAndReleased : Prop :=
  (∀ (s s1 : State) (n a : Nat) (x : Word) (m : Msg), s.pick n = some (m, s1) → s.isAbsent m = false → m.src < 32768 → m.post = none →
     m.body = .sync 9 a x → addrClass a = 0 → s.isHeld a 8 = false → s.spillRefused m a 8 = false → s.isPoisoned a 8 = false →
     let reply := fun (st : Status) (v : Vec) => { m with src := m.dst, dst := m.src, held := none, body := .dataReply st v 0 }
     let reached := 0 ≤ (s.readWord a - x).toInt
     (reached → ∃ t, Runs (.synchronisation n) s t ∧ t.net = s.net.eraseIdx n ++ [reply .done ((s.readWord a).setWidth 256)] ∧ SameMemory s t)
     ∧ (¬ reached → (s.core m.dst).waiters.length < 64 → ∃ t, Runs (.synchronisation n) s t ∧ t.net = s.net.eraseIdx n
         ∧ (t.core m.dst).waiters = (s.core m.dst).waiters ++ [⟨.word a x, m.src, m.slot, m.gen⟩] ∧ SameMemory s t)
     ∧ (¬ reached → 64 ≤ (s.core m.dst).waiters.length → ∃ t, Runs (.synchronisation n) s t ∧ t.net = s.net.eraseIdx n ++ [reply .retry 0]
         ∧ SameMemory s t))
  ∧ (∀ (s : State) (c k due : Nat) (use : ReplyUse) (r : Retire) (b : Body) (tgt : CoreId), (s.slot c k).st = .blocked →
     (s.slot c k).wait = .retry use r b tgt due →
     (due ≤ s.fc → tgt < 32768 → ∃ t m, Runs (.waitRetry c k) s t ∧ t.net = s.net ++ [m] ∧ m.src = c ∧ m.dst = tgt ∧ m.slot = k ∧ m.body = b
       ∧ m.gen = (s.slot c k).gen ∧ (t.slot c k).wait = .reply use r b (s.waitName c k tgt none b))
     ∧ (∀ p v h, due ≤ s.fc → tgt = coreName v → s.partOf c k = some p → s.xlate p v = .at_ h → h < 32768 →
         ∃ t m, Runs (.waitRetry c k) s t ∧ t.net = s.net ++ [m] ∧ m.src = c ∧ m.dst = h ∧ m.held = none ∧ m.body = b.rehome h)
     ∧ (s.fc < due → Runs (.waitRetry c k) s s))
  ∧ (∀ (s : State) (c off : Nat) (v : Word), isCore c = true → off % 8 = 0 → off < 2 ^ 33 → s.CanonicalMemory →
     (∀ w ∈ (s.core c).waiters, w.core < 32768) →
     let a := scratchAddr c off
     let t := s.writeWord a v
     let good := fun (w : Waiter) => match w.watch with | .word b x => b == a && decide (0 ≤ (v - x).toInt) | .entry _ _ => false
     (t.core c).waiters = (s.core c).waiters.filter (fun w => !good w)
     ∧ ∃ ms, t.net = s.net ++ ms ∧ ms.map (fun m => (m.dst, m.slot, m.gen, m.body))
         = ((s.core c).waiters.filter good).map (fun w => (w.core, w.slot, w.gen, Body.dataReply .done (v.setWidth 256) 0)))

/-- 09_sync R254, R255, R256. LOGAPP to the issuing core's own log area appends one record of 32 bytes and counts it, unless the log is
closed, full or being sealed: then OVF is set and a record is sent; LOGSEQ advances either way. LOGSEAL of an empty log gives OVF and
clears it. With the checker off. 09_sync R256. At its owner an admitted append that nothing holds is written and acknowledged, or refused
with OVF set. 09_sync R254, R257, R259. A LOGSEAL of a log with records sorts them in place in ascending order of their keys, and then applies
record NEXT in each step: a record with an OP above 10 or a misaligned OFFSET changes nothing, any other gives its target the value of R254's
table; after the last, d receives OVF, the records skipped and those applied, and the log is empty. That the sort inserts, four records a step,
is the model's choice (log 85). -/
def Obligations.DripLogsAppendAndSeal : Prop :=
  (∀ (s : State) (o d a b : Reg) (off : Nat), s.Ready (scalars [d, a, b]) → s.CanonicalMemory → isCore s.curCore = true →
     s.CheckerOff s.curCore s.curSlot →
     let c := s.curCore
     let k := s.curSlot
     let w := (s.core c).logsize
     let n := if o.toNat = 8 then 4 else 8
     let at_ := s.logAddr c (logCount w)
     let open_ := logSize w ≠ 0 ∧ 32 * logCount w ≠ logSize w ∧ logSorted w = false ∧ logNext w = 0 ∧ (s.core c).sealing = false
     (s.checkScratch c k (s.reg a) ⟨n, n, [rightA], false, true, false, n⟩ = .ok (.self off) → s.isHeld at_ 32 = false →
       (open_ → (s.core c).logBase + 32 * logCount w + 32 ≤ 0x80000 → ∃ t, Runs (.logapp o a b) s t
         ∧ t.readWords at_ 4 = logRecord off o.toNat s.cur.logseq (s.vtid c k) s.pkgNo (s.reg b)
         ∧ (t.core c).logsize = setf w 44 33 (logCount w + 1) ∧ SameOutside s t at_ 32
         ∧ ((t.slot c k).logseq.toNat = (s.cur.logseq.toNat % 2 ^ 32 + 1) % 2 ^ 32) ∧ Advanced s t c k 4)
       ∧ (¬ open_ → ∃ t, Runs (.logapp o a b) s t ∧ SameMemory s t ∧ (t.core c).logsize = setf w 63 63 1 ∧ Advanced s t c k 4
         ∧ t.net.length + t.faultRecs.length = s.net.length + s.faultRecs.length + 1))
     ∧ ((s.core c).sealing = true → Runs (.logseal d) s (s.cancel .sealBusy))
     ∧ ((s.core c).sealing = false → ¬ (logSize w = 0 ∨ (logCount w = 0 ∧ logNext w = 0)) →
         ∃ due, Runs (.logseal d) s (s.block (.seal due 0 (logCount w) d 0 0 ⟨4, [d], 0⟩)))
     ∧ ((s.core c).sealing = false → logSize w = 0 ∨ (logCount w = 0 ∧ logNext w = 0) → ∃ t, Runs (.logseal d) s t ∧ SameMemory s t ∧ Advanced s t c k 4
         ∧ lastReg t c k d = (if d = 0 then 0 else if logOvf w then 0x8000000000000000#64 else 0) ∧ (t.core c).logsize = setf w 63 63 0))
  ∧ (∀ (s s1 : State) (n e : Nat) (m : Msg) (rec : List Word), s.pick n = some (m, s1) → s.isAbsent m = false → m.src < 32768 →
     isCore m.dst = true → m.body = .logApp rec → rec.length = 4 → m.post = some e → s.CanonicalMemory →
     let w := (s.core m.dst).logsize
     let at_ := s.logAddr m.dst (logCount w)
     let open_ := logSize w ≠ 0 ∧ 32 * logCount w ≠ logSize w ∧ logSorted w = false ∧ logNext w = 0 ∧ (s.core m.dst).sealing = false
     s.isHeld at_ 32 = false →
     (open_ → (s.core m.dst).logBase + 32 * logCount w + 32 ≤ 0x80000 → ∃ t ws g, Runs (.logAppend n) s t ∧ t.readWords at_ 4 = rec
       ∧ (t.core m.dst).logsize = setf w 44 33 (logCount w + 1)
       ∧ t.net = s.net.eraseIdx n ++ ws ++ [{ m with src := m.dst, dst := m.src, held := none, body := .ack .done e g 0 }])
     ∧ (¬ open_ → ∃ t g, Runs (.logAppend n) s t ∧ SameMemory s t ∧ (t.core m.dst).logsize = setf w 63 63 1
       ∧ t.net = s.net.eraseIdx n ++ [{ m with src := m.dst, dst := m.src, held := none, body := .ack .logRefused e g 0 }]))
  ∧ (∀ (s : State) (c k due placed count bad dead : Nat) (d : Reg) (r : Retire), (s.slot c k).st = .blocked → s.CanonicalMemory → isCore c = true →
     (s.slot c k).wait = .seal due placed count d bad dead r → due ≤ (s.core c).cycle → placed ≤ count → s.CheckerOff c k →
     (s.core c).logBase + 32 * count ≤ 0x80000 →
     let w := (s.core c).logsize
     let t := s.sealStep c k
     let recs := fun (q : State) (n : Nat) => (List.range n).map (fun i => q.readWords (q.logAddr c i) 4)
     (logSorted w = false → ∀ n, n = min (placed + 4) count → s.isHeld (s.logAddr c 0) (32 * n) = false →
       (recs t n).Perm (recs s n) ∧ (recs t n).Pairwise (fun x y => keyLe (logKey x) (logKey y) = true)
       ∧ SameOutside s t (s.logAddr c 0) (32 * n) ∧ (∃ next, (t.slot c k).wait = .seal next n count d bad dead r)
       ∧ (t.core c).logsize = (if n < count then w else setf w 62 62 1))
     ∧ (logSorted w = true → logNext w < count →
       let e := s.readWords (s.logAddr c (logNext w)) 4
       let off := (e.getD 0 0).toNat % 2 ^ 19
       let op := (e.getD 0 0).toNat / 2 ^ 19 % 32
       let x := e.getD 2 0
       let size := if op = 8 then 4 else 8
       let pa := scratchAddr c off
       let v := s.readNat pa size
       let V : Word := BitVec.ofNat 64 v
       let goes := fun (skips : Nat) =>
         (logNext w + 1 < count → (∃ next, (t.slot c k).wait = .seal next count count d (bad + skips) dead r)
           ∧ (t.core c).logsize = setf w 59 48 (logNext w + 1))
         ∧ (logNext w + 1 = count → Advanced s t c k r.len ∧ (t.core c).logsize = BitVec.ofNat 64 (logSize w)
           ∧ (d.toNat < 16 ∨ (s.core c).outranked k (.scalar d) = false → readReg t c k d = (if d = 0 then 0 else
               BitVec.ofNat 64 ((if logOvf w then 2 ^ 63 else 0) + (bad + skips + dead) * 2 ^ 12 + (count - (bad + skips + dead))))))
       s.isHeld (s.logAddr c (logNext w)) 32 = false →
       (10 < op ∨ off % size ≠ 0 → SameMemory s t ∧ goes 1)
       ∧ (op ≤ 10 → off % size = 0 → s.isHeld pa size = false → s.isPoisoned pa size = false → SameOutside s t pa size ∧ goes 0 ∧
           t.readNat pa size = (match op with
             | 0 => (v + x.toNat) % 2 ^ 64
             | 1 => if x.toInt < V.toInt then x.toNat else v
             | 2 => if V.toInt < x.toInt then x.toNat else v
             | 3 => min v x.toNat
             | 4 => max v x.toNat
             | 5 => v ||| x.toNat
             | 6 => v &&& x.toNat
             | 7 => v ^^^ x.toNat
             | 8 => (fp32.add .rne v (x.toNat % 2 ^ 32)).1 % 2 ^ 32
             | 9 => (fp64.add .rne v x.toNat).1 % 2 ^ 64
             | _ => x.toNat))))

/-- 09_sync R260, R261, R262. Barrier instructions of a core of a cluster, with no posted operation left and the checker off: BARSET sets
MEMBERS, clears ARRIVED and gives d the old word; BARQ reads the word; BARJ gives 3 to a core that is no member, 2 to one that has
arrived, and otherwise the phase it joined, and the arrival that completes MEMBERS flips PHASE and clears ARRIVED; BARW returns at once
when the phase differs or there is no member, and otherwise waits. -/
def Obligations.BarriersCountTheirMembers : Prop :=
  ∀ (s : State) (d a b : Reg), s.Ready (scalars [d, a, b]) → s.CheckerOff s.curCore s.curSlot → s.cur.posted = [] →
    (∀ t ∈ clusterSlots s.curCore, ∀ o p q r, (s.slot t.1 t.2).wait ≠ .barrier o p q r) →
    let c := s.curCore
    let k := s.curSlot
    let obj := (s.reg a).toNat % 16
    let bar := s.barrier c obj
    let me := posOf c
    let gives := fun (i : Instr) (v : Word) (x : Barrier) => ∃ t, Runs i s t ∧ lastReg t c k d = (if d = 0 then 0 else v)
      ∧ t.barrier c obj = x ∧ Advanced s t c k 4 ∧ SameMemory s t ∧ t.net = s.net
    let joined : BitVec 8 := bar.arrived ||| BitVec.ofNat 8 (2 ^ me)
    gives (.barset d a b) bar.word { bar with members := (s.reg b).setWidth 8, arrived := 0 } ∧ gives (.barq d a) bar.word bar
    ∧ (bar.members.getLsbD me = false → gives (.barj d a) 3 bar)
    ∧ (bar.members.getLsbD me = true → bar.arrived.getLsbD me = true → gives (.barj d a) 2 bar)
    ∧ (bar.members.getLsbD me = true → bar.arrived.getLsbD me = false → joined ≠ bar.members →
        gives (.barj d a) (if bar.phase then 1 else 0) { bar with arrived := joined })
    ∧ (bar.members.getLsbD me = true → bar.arrived.getLsbD me = false → joined = bar.members →
        gives (.barj d a) (if bar.phase then 1 else 0) { bar with arrived := 0, phase := !bar.phase })
    ∧ (bar.members = 0 → gives (.barw d a b) ones bar)
    ∧ (bar.members ≠ 0 → bar.phase ≠ (s.reg b).getLsbD 0 → gives (.barw d a b) (if bar.phase then 1 else 0) bar)
    ∧ (bar.members ≠ 0 → bar.phase = (s.reg b).getLsbD 0 →
        Runs (.barw d a b) s (s.block (.barrier obj ((s.reg b).getLsbD 0) d ⟨4, [d, a, b], 0⟩)))

/-! ### Messages -/

/-- 08_messages R217, R231, R241. SEND reads its payload from the issuing core's own scratchpad and leaves as one message that waits for its status;
a payload of more than 32 bytes is read 32 bytes at a time, and the message leaves with the last of them. ACTM, once no posted entry lies in
the scope of its target, does the same with its three doublewords. One that finds the core's message port reading waits for it, and the port
serves the one that issued first. 08_messages R218, R224, R225, R226. A message that fits its mailbox is
written behind the records in it, with the arrival number, and its sender is answered 0; a mailbox that is closed answers 3, one it can never
fit 4, a full one 1, and nothing is written. A mailbox takes one message in a cycle. -/
def Obligations.MessagesLeaveAndArrive : Prop :=
  (∀ (s : State) (d a b : Reg) (pa dst : Nat), s.Ready (scalars [d, a, b]) → dst < 32768 →
     let c := s.curCore
     let k := s.curSlot
     let w := s.reg a
     let len := w.toNat / 2 ^ 24 % 64
     s.targetWord w = .ok (dst, none) →
     let leaves := fun (i : Instr) (body : Body) => ∃ t m, Runs i s t ∧ t.net = s.net ++ [m] ∧ m.src = c ∧ m.dst = dst ∧ m.slot = k
       ∧ m.gen = s.cur.gen ∧ m.body = body ∧ (t.slot c k).st = .blocked ∧ (t.slot c k).pc = s.cur.pc
       ∧ (t.slot c k).wait = .reply (.status d) ⟨4, [d, a, b], 0⟩ body (s.waitName c k dst none body) ∧ SameMemory s t ∧ SameRegisters s t
     let r : Retire := ⟨4, [d, a, b], 0⟩
     let x := s.core c
     (1 ≤ len → len ≤ 30 → s.checkOwn c k (s.reg b) 8 (8 * len) [rightR] 0x21 = .ok pa → s.isHeld pa (8 * len) = false →
       (x.portBusy = false → len ≤ 4 → leaves (.send d a b) (.mail (w.toNat / 2 ^ 20 % 4) (s.readWords pa len) false (s.badWords pa len)))
       ∧ (x.portBusy = false → 4 < len → ∃ name marks, Runs (.send d a b) s
           (s.blockAt c k (.sending x.cycle d dst name (some (w.toNat / 2 ^ 20 % 4)) (pa + 32) (len - 4) (s.readWords pa 4) marks r)))
       ∧ (x.portBusy = true → ∃ name, Runs (.send d a b) s
           (s.blockAt c k (.sending x.cycle d dst name (some (w.toNat / 2 ^ 20 % 4)) pa len [] [] r))))
     ∧ (len = 0 ∨ 30 < len → Faults (.send d a b) s ⟨0x20, 0, w, 0⟩)
     ∧ (s.checkOwn c k (s.reg b) 8 24 [rightR] 0x21 = .ok pa → s.isHeld pa 24 = false →
       (x.portBusy = false → s.cur.posted.all (fun e => !e.inScope (narrowScope c dst) c) = true →
         leaves (.actm d a b) (.active (s.readWord pa) (s.readWord (pa + 8)) (s.readWord (pa + 16)) s.cur.rcbptr))
       ∧ (x.portBusy = true → ∃ name, Runs (.actm d a b) s (s.blockAt c k (.sending x.cycle d dst name none pa 3 [] [] r)))))
  ∧ (∀ (s : State) (c dst mb addr left since : Nat) (k : Nat) (d : Reg) (name : Option CoreId) (got : List Word) (bad : List Nat) (r : Retire),
     k < 16 → (s.slot c k).st = .blocked → (s.slot c k).wait = .sending since d dst name (some mb) addr left got bad r →
     (∀ j, j < 16 → j ≠ k → ∀ n, (s.slot c j).wait.sendSince = some n → since < n) → (got = [] → s.isHeld addr (8 * left) = false) →
     (4 < left → ∃ marks, s.portStep c = s.blockAt c k (.sending since d dst name (some mb) (addr + 32) (left - 4) (got ++ s.readWords addr 4) marks r))
     ∧ (left ≤ 4 → ∃ marks, ∀ h v b, s.homeNow (s.partOf c k) name dst (.mail mb (got ++ s.readWords addr left) false marks) = some (h, v, b) →
         h < 32768 → ∃ m, (s.portStep c).net = s.net ++ [m] ∧ m.src = c ∧ m.dst = h ∧ m.slot = k ∧ m.gen = (s.slot c k).gen ∧ m.held = v
           ∧ m.body = b ∧ ((s.portStep c).slot c k).st = .blocked
           ∧ ((s.portStep c).slot c k).wait = .reply (.status d) r b (s.waitName c k h v b)))
  ∧ (∀ (s s1 : State) (n mb : Nat) (m : Msg) (payload : List Word), s.pick n = some (m, s1) → s.isAbsent m = false → m.src < 32768 →
     isCompute m.dst = true → mb < 4 → m.body = .mail mb payload false [] → payload.length ≤ 30 → s.CanonicalMemory →
     (∀ k, ∀ o d q r, (s.slot m.dst k).wait ≠ .mbwait o d q r) →
     let x := s.core m.dst
     (s.mailHeld m.dst mb payload.length = false → x.arrived = some x.cycle → Runs (.mailboxMessage n) s s) ∧
     (x.arrived ≠ some x.cycle →
     let size := 8 + 8 * payload.length
     let head := x.mbHead mb
     let used := x.mbUsed mb
     let status := fun (st : Nat) => { m with src := m.dst, dst := m.src, held := none, post := none, body := .msgStatus st }
     let answers := fun (st : Nat) => ∃ t, Runs (.mailboxMessage n) s t ∧ t.net = s.net.eraseIdx n ++ [status st] ∧ SameMemory s t
       ∧ (t.core m.dst).mbUsed mb = used
     (x.mbSize mb = 0 → answers 3) ∧ (x.mbSize mb ≠ 0 → x.mbSize mb < size → answers 4)
     ∧ (size ≤ x.mbSize mb → used = x.mbSize mb → answers 1)
     ∧ (∀ at_, at_ = scratchAddr m.dst (x.mbBase mb + head + used) → x.mbSize mb ≤ 0x10000 → x.mbBase mb + x.mbSize mb ≤ 0x80000 →
         head + used + size ≤ x.mbSize mb → s.isHeld at_ size = false →
         ∃ t ws, Runs (.mailboxMessage n) s t ∧ t.net = s.net.eraseIdx n ++ ws ++ [status 0]
           ∧ t.readWords (at_ + 8) payload.length = payload
           ∧ t.readWord at_ = mailHeader payload.length (s.core m.dst).mbarr[mbIx mb] m.vtid m.pkg
           ∧ (t.core m.dst).mbUsed mb = used + size ∧ (t.core m.dst).mbHead mb = head ∧ SameOutside s t at_ size)))

/-- 08_messages R226, R227, R228, R229, R230. MBPEEK, MBPOP and MBWAIT on a mailbox of the issuing core that no MBPOP holds: reason 1 when it is
closed, 0 when it is empty (MBWAIT then waits), 2 when its record is corrupt (the mailbox is then empty, and a record is sent), and otherwise a
valid handle with the record's length, sender and place. MBPOP with a buffer copies a payload of at most 32 bytes, and the record leaves at its
WB. With the checker off. 08_messages R230. An MBWAIT whose time has come receives the invalid handle of reason 0 and retires; before, nothing
changes. With the checker off. -/
def Obligations.MailboxInstructionsAnswerWithHandles : Prop :=
  (∀ (s : State) (d a b : Reg), s.Ready (scalars [d, a, b]) → s.CheckerOff s.curCore s.curSlot →
     let c := s.curCore
     let k := s.curSlot
     let x := s.core c
     let n := (s.reg a).toNat % 4
     let h := s.mbHeader c n
     let gives := fun (i : Instr) (v : Word) => ∃ t, Runs i s t ∧ lastReg t c k d = (if d = 0 then 0 else v) ∧ Advanced s t c k 4
       ∧ SameMemory s t ∧ t.net = s.net
     let handle := handleOf x n h
     x.mailboxBusy n = false →
     (x.mbSize n = 0 → gives (.mbpeek d a) 1 ∧ gives (.mbpop d a b) 1 ∧ gives (.mbwait d a b) 1)
     ∧ (x.mbSize n ≠ 0 → x.mbUsed n = 0 → gives (.mbpeek d a) 0 ∧ gives (.mbpop d a b) 0
         ∧ ∃ t dl, Runs (.mbwait d a b) s t ∧ (t.slot c k).st = .blocked ∧ (t.slot c k).wait = .mbwait n d dl ⟨4, [d, a, b], 0⟩
           ∧ dl = (if (s.reg b).toNat % 2 ^ 32 = 0 then none else some (x.cycle + 4 + (s.reg b).toNat % 2 ^ 32)))
     ∧ (x.mbSize n ≠ 0 → x.mbUsed n ≠ 0 → s.mbHeld c n = false → headerCorrupt x n h = true →
         ∃ t, Runs (.mbpeek d a) s t ∧ lastReg t c k d = (if d = 0 then 0 else 2) ∧ Advanced s t c k 4 ∧ SameMemory s t
           ∧ (t.core c).mbUsed n = 0 ∧ (t.core c).mbHead n = 0
           ∧ t.net.length + t.faultRecs.length = s.net.length + s.faultRecs.length + 1)
     ∧ (∀ dst, b ≠ 0 → isCore c = true → s.CanonicalMemory → x.mbSize n ≠ 0 → x.mbUsed n ≠ 0 → s.mbHeld c n = false →
         headerCorrupt x n h = false →
         let src := scratchAddr c (x.mbBase n + x.mbHead n + 8)
         let len := (rsizeOf h - 8) / 8
         s.checkOwn c k (s.reg b) 8 (8 * len) [rightW] 0x22 = .ok dst → len ≤ 4 → s.isHeld src (8 * len) = false → s.isHeld dst (8 * len) = false →
         s.isPoisoned src (8 * len) = false →
         ∃ t, Runs (.mbpop d a b) s t ∧ lastReg t c k d = (if d = 0 then 0 else handle) ∧ Advanced s t c k 4
           ∧ t.readWords dst len = s.readWords src len ∧ SameOutside s t dst (8 * len)
           ∧ (t.core c).landing = x.landing ++ [⟨x.cycle, k, x.cycle + 2, .pop n (rsizeOf h)⟩])
     ∧ (x.mbSize n ≠ 0 → x.mbUsed n ≠ 0 → s.mbHeld c n = false → headerCorrupt x n h = false →
         gives (.mbpeek d a) handle ∧ gives (.mbwait d a b) handle ∧ gives (.mbpop d a 0) handle
         ∧ handle.getLsbD 63 = true ∧ bf handle 62 58 = (rsizeOf h - 8) / 8 ∧ bf handle 57 39 = bf h 50 32
         ∧ bf handle 18 0 = (x.mbBase n + x.mbHead n + 8) % 2 ^ 19))
  ∧ (∀ (s : State) (c k mb due : Nat) (d : Reg) (r : Retire), (s.slot c k).st = .blocked → (s.slot c k).wait = .mbwait mb d (some due) r →
     s.CheckerOff c k →
     (due ≤ (s.core c).cycle + 2 → ∃ t, Runs (.mbwaitTimeout c k) s t ∧ Advanced s t c k r.len ∧ SameMemory s t
         ∧ (d.toNat < 16 ∨ (s.core c).outranked k (.scalar d) = false → readReg t c k d = 0))
     ∧ ((s.core c).cycle + 2 < due → Runs (.mbwaitTimeout c k) s s))

/-- 08_messages R218, R231, R232; 03_strands R80, R94. An active message finds room in its target's queue, or is refused, and its sender is
told; a status writes the register of the thread that waits for it; a wake ends a park that a wake releases, and touches no other state of
a thread: where it meets no park, its core cycle is noted for a park of that cycle (R81). With the checker off. -/
def Obligations.ActiveMessagesStatusesAndWakes : Prop :=
  ∀ (s s1 : State) (n : Nat) (m : Msg), s.pick n = some (m, s1) →
    let x := s.core m.dst
    let y := s.slot m.dst m.slot
    (∀ e a0 a1 rcb, s.isAbsent m = false → m.src < 32768 → isCompute m.dst = true → m.body = .active e a0 a1 rcb → e.getLsbD 0 = true →
      ∃ t st, Runs (.activeMessage n) s t
        ∧ t.net = s.net.eraseIdx n ++ [{ m with src := m.dst, dst := m.src, held := none, post := none, body := .msgStatus st }]
        ∧ (x.amq.length < 16 → st = 0 ∧ (t.core m.dst).amq.length = x.amq.length + 1) ∧ (16 ≤ x.amq.length → st = 1 ∧ (t.core m.dst).amq = x.amq))
    ∧ (∀ st d r b tgt, m.body = .msgStatus st → s.gateAdmits m = true → s.delivers m.src m.dst = true → m.slot < 64 → st < 2 ^ 64 →
        y.accepts m.gen = true → y.wait = .reply (.status d) r b tgt → s.CheckerOff m.dst m.slot →
        d.toNat < 16 ∨ x.outranked m.slot (.scalar d) = false →
        ∃ t, Runs (.messageStatus n) s t ∧ readReg t m.dst m.slot d = (if d = 0 then 0 else BitVec.ofNat 64 st)
          ∧ Advanced s t m.dst m.slot r.len ∧ SameMemory s t)
    ∧ (m.body = .wake → s.isAbsent m = false → y.spilled = none →
        ∃ t, Runs (.wakeMessage n) s t ∧ t.net = s.net.eraseIdx n ∧ SameMemory s t ∧ SameRegisters s t
          ∧ (y.st = .parked → (∀ q, y.park = some q → q.kind = 1 → (t.slot m.dst m.slot).st = .run ∧ (t.slot m.dst m.slot).pc = y.pc))
          ∧ (y.st ≠ .parked → t.slot m.dst m.slot = { y with wokenAt := some x.cycle }))

/-- 08_messages R235, R237, R239, R240. A chain's last step is masked and answered; an earlier one adds the next offset to its masked pointer
and goes on; a pointer that is not a multiple of 8 ends the chain with cause 1 and that pointer. The reply writes d and CHST. 08_messages
R235, R240. CHLD and CHLDV on a descriptor of n steps (1 to 6) in the issuing core's own scratchpad whose first pointer names that
scratchpad too: one packet leaves, with the steps, and the thread waits for the reply. -/
def Obligations.ChainsStepAndReply : Prop :=
  (∀ (s s1 : State) (n : Nat) (m : Msg) (ga : Word) (pa k rc rs : Nat) (steps : List ChainStepWord), s.pick n = some (m, s1) →
     let st := steps.getD k ⟨0, 0⟩
     let reply := fun (v : Vec) (chst : Word) =>
       { m with src := m.dst, dst := rc, slot := rs, held := none, post := none, body := .chainReply v chst false }
     (m.body = .chain ga pa k steps false rc rs → s.isAbsent m = false → rc < 32768 → addrClass pa = 0 → s.isHeld pa 8 = false →
       s.spillRefused m pa 8 = false → s.isPoisoned pa 8 = false → k < steps.length →
       (k + 1 = steps.length → ∃ t, Runs (.chainStep n) s t ∧ SameMemory s t
         ∧ t.net = s.net.eraseIdx n ++ [reply ((s.readWord pa &&& st.mask).setWidth 256) (chstWord k 0 0 0)])
       ∧ (k + 1 < steps.length → ∀ next, next = (s.readWord pa &&& st.mask) + (steps.getD (k + 1) ⟨0, 0⟩).off → next.toNat % 8 ≠ 0 →
         ∃ t, Runs (.chainStep n) s t ∧ SameMemory s t ∧ t.net = s.net.eraseIdx n ++ [reply (next.setWidth 256) (chstWord (k + 1) 1 0 0)])
       ∧ (k + 1 < steps.length → ∀ next at_, next = (s.readWord pa &&& st.mask) + (steps.getD (k + 1) ⟨0, 0⟩).off → homeOf at_ < 32768 →
         s.chainCheck m.dst m.part next = .at_ at_ → ∃ t, Runs (.chainStep n) s t ∧ SameMemory s t
           ∧ t.net = s.net.eraseIdx n ++ [{ m with src := m.dst, dst := homeOf at_, via := none, body := .chain next at_ (k + 1) steps false rc rs }]))
     ∧ (∀ v chst d r b tgt, m.body = .chainReply v chst false → s.gateAdmits m = true → s.delivers m.src m.dst = true →
         (s.slot m.dst m.slot).accepts m.gen = true → (s.slot m.dst m.slot).wait = .reply (.chain d false) r b tgt →
         s.CheckerOff m.dst m.slot → d.toNat < 16 ∨ (s.core m.dst).outranked m.slot (.scalar d) = false → ∃ t, Runs (.chainReply n) s t ∧ readReg t m.dst m.slot d = (if d = 0 then 0 else v.setWidth 64)
           ∧ (t.slot m.dst m.slot).chst = chst ∧ Advanced s t m.dst m.slot r.len ∧ SameMemory s t))
  ∧ (∀ (s : State) (d a b : Reg) (pb off : Nat), s.curCore < 32768 →
     let c := s.curCore
     let k := s.curSlot
     let n := (s.readWord pb).toNat % 8
     let steps := chainSteps (s.readWords (pb + 8) (2 * n))
     let addr := s.reg a + (steps.getD 0 ⟨0, 0⟩).off
     1 ≤ n → n ≤ 6 → s.checkOwn c k (s.reg b) 8 8 [rightR] 0x21 = .ok pb → s.checkOwn c k (s.reg b) 8 (8 + 16 * n) [rightR] 0x21 = .ok pb →
     s.isHeld pb 8 = false → s.isHeld pb (8 + 16 * n) = false →
     s.chainStart c k addr = .to (.self off) →
     let leaves := fun (i : Instr) (vec : Bool) => ∃ t m, Runs i s t ∧ t.net = s.net ++ [m] ∧ m.dst = c ∧ m.slot = k ∧ m.gen = s.cur.gen
       ∧ m.body = .chain (s.cur.segGa addr) (scratchAddr c off) 0 steps vec c k ∧ (t.slot c k).st = .blocked
       ∧ (t.slot c k).wait = .reply (.chain d vec) ⟨4, [d, a, b], 0⟩ m.body (s.waitName c k c none m.body) ∧ SameMemory s t ∧ SameRegisters s t
     (s.Ready (scalars [d, a, b]) → leaves (.chld d a b) false)
     ∧ (s.Ready [.vector d, .scalar a, .scalar b] → leaves (.chldv d a b) true))

/-! ### Floating point -/

/-- 05_numbers R128, R130, R134, R136, R137, R139, R149. The scalar sums, products and fused products: the exact result of the operands'
values, rounded once by FPCTL's mode, with its flags added to FPST. A NaN operand gives the canonical NaN and raises NV when one is
signalling; opposite infinities in a sum and zero times infinity give it with NV; an exact zero sum is -0 only for two zeros of that sign
or under RDN unless both are +0. 05_numbers R136, R137, R139, R147, R148. Division, square root and the scalar special functions enter the
iterative unit, which delivers their results: 19 (33) cycles after the issue for FDIV and FSQRT, 23 (39) for the others, in single
(double) precision. The special cases of each; the value that R147 only bounds is left open here. -/
def Obligations.FpArithmeticAndIterative : Prop :=
  (∀ (s : State) (d a b : Reg) (p : BitVec 1), s.Ready (scalars [d, a, b]) →
     let f := if p = 0 then fp32 else fp64
     let val := fun (r : Reg) => f.value ((s.reg r).toNat % 2 ^ f.width)
     let X := val a
     let Y := val b
     let Z := val d
     let rm := s.rounding
     let gives := fun (i : Instr) (v : Nat × Flags) => Runs i s (((s.putReg d (BitVec.ofNat 64 v.1)).raise v.2).done ⟨4, [d, a, b], 0⟩)
     let units := fun (n : Bool) (m : Nat) (e lo : Int) => if n then -((m * 2 ^ (e - lo).toNat : Nat) : Int) else ((m * 2 ^ (e - lo).toNat : Nat) : Int)
     let sumOf := fun (i : Instr) (n : Bool) (m : Nat) (e : Int) (k : Bool) (m' : Nat) (e' : Int) =>
       let lo := min e e'
       let v := units n m e lo + units k m' e' lo
       (v ≠ 0 → gives i (f.round rm false (decide (v < 0)) v.natAbs lo false))
       ∧ (v = 0 → gives i (f.zeroBits (if m = 0 ∧ m' = 0 ∧ n = k then n else decide (rm = .rdn)), 0))
     (X.isNan || Y.isNan → gives (.fadd d a b p) (f.canon, flagIf (X.isSignalling || Y.isSignalling) flagNV)
       ∧ gives (.fsub d a b p) (f.canon, flagIf (X.isSignalling || Y.isSignalling) flagNV)
       ∧ gives (.fmul d a b p) (f.canon, flagIf (X.isSignalling || Y.isSignalling) flagNV))
     ∧ (∀ n k, X = .inf n → Y = .inf k → gives (.fadd d a b p) (if n = k then (f.infBits n, 0) else (f.canon, flagNV))
       ∧ gives (.fsub d a b p) (if n = k then (f.canon, flagNV) else (f.infBits n, 0)) ∧ gives (.fmul d a b p) (f.infBits (n != k), 0))
     ∧ (∀ n k m e, X = .inf n → Y = .fin k m e → gives (.fadd d a b p) (f.infBits n, 0) ∧ gives (.fsub d a b p) (f.infBits n, 0)
       ∧ gives (.fmul d a b p) (if m = 0 then (f.canon, flagNV) else (f.infBits (n != k), 0)))
     ∧ (∀ n k m e, X = .fin n m e → Y = .inf k → gives (.fadd d a b p) (f.infBits k, 0) ∧ gives (.fsub d a b p) (f.infBits (!k), 0)
       ∧ gives (.fmul d a b p) (if m = 0 then (f.canon, flagNV) else (f.infBits (n != k), 0)))
     ∧ (∀ n m e k m' e', X = .fin n m e → Y = .fin k m' e' →
       sumOf (.fadd d a b p) n m e k m' e' ∧ sumOf (.fsub d a b p) n m e (!k) m' e'
       ∧ gives (.fmul d a b p) (f.round rm false (n != k) (m * m') (e + e') false)
       ∧ (∀ j q g, Z = .fin j q g → sumOf (.fma d a b p) j q g (n != k) (m * m') (e + e') ∧ sumOf (.fms d a b p) j q g (!(n != k)) (m * m') (e + e')
         ∧ sumOf (.fnma d a b p) (!j) q g (!(n != k)) (m * m') (e + e'))
       ∧ (Z.isNan → ∀ i ∈ [Instr.fma d a b p, .fms d a b p, .fnma d a b p], gives i (f.canon, flagIf Z.isSignalling flagNV))
       ∧ (∀ j, Z = .inf j → gives (.fma d a b p) (f.infBits j, 0) ∧ gives (.fms d a b p) (f.infBits j, 0) ∧ gives (.fnma d a b p) (f.infBits (!j), 0))))
  ∧ (∀ (s : State) (d a b : Reg) (p : BitVec 1), s.Ready (scalars [d, a, b]) →
     let f := if p = 0 then fp32 else fp64
     let val := fun (r : Reg) => f.value ((s.reg r).toNat % 2 ^ f.width)
     let now := (s.core s.curCore).cycle
     let enters := fun (i : Instr) (names : List Reg) (n : Nat) (v : Nat × Flags) =>
       Runs i s (s.block (.iter .fp (.scalar d) (BitVec.ofNat 256 v.1) v.2 (now + n) ⟨4, names, 0⟩))
     let quot := fun (v : Nat × Flags) => enters (.fdiv d a b p) [d, a, b] (if p = 0 then 19 else 33) v
     let root := fun (v : Nat × Flags) => enters (.fsqrt d a p) [d, a] (if p = 0 then 19 else 33) v
     let fn := fun (i : Instr) (v : Nat × Flags) => enters i [d, a] (if p = 0 then 23 else 39) v
     let X := val a
     let Y := val b
     (∃ q r n c e l, quot q ∧ root r ∧ fn (.fsin d a p) n ∧ fn (.fcos d a p) c ∧ fn (.fexp2 d a p) e ∧ fn (.flog2 d a p) l)
     ∧ (X.isNan || Y.isNan → quot (f.canon, flagIf (X.isSignalling || Y.isSignalling) flagNV))
     ∧ (∀ n k, X = .inf n → Y = .inf k → quot (f.canon, flagNV))
     ∧ (∀ n k m e, X = .inf n → Y = .fin k m e → quot (f.infBits (n != k), 0))
     ∧ (∀ n k m e, X = .fin n m e → Y = .inf k → quot (f.zeroBits (n != k), 0))
     ∧ (∀ n m e k e', X = .fin n m e → Y = .fin k 0 e' → quot (if m = 0 then (f.canon, flagNV) else (f.infBits (n != k), flagDZ)))
     ∧ (∀ n e k m' e', X = .fin n 0 e → Y = .fin k m' e' → m' ≠ 0 → quot (f.zeroBits (n != k), 0))
     ∧ (∀ n e, X = .fin n 0 e → root (f.zeroBits n, 0) ∧ fn (.fsin d a p) (f.zeroBits n, 0)
         ∧ fn (.flog2 d a p) (f.infBits true, flagDZ)
         ∧ fn (.fcos d a p) (if p = 0 then 0x3F800000 else 0x3FF0000000000000, 0) ∧ fn (.fexp2 d a p) (if p = 0 then 0x3F800000 else 0x3FF0000000000000, 0))
     ∧ (∀ m e, X = .fin true m e → m ≠ 0 → root (f.canon, flagNV) ∧ fn (.flog2 d a p) (f.canon, flagNV))
     ∧ (X = .inf false → root (f.infBits false, 0) ∧ fn (.fexp2 d a p) (f.infBits false, 0) ∧ fn (.flog2 d a p) (f.infBits false, 0))
     ∧ (X = .inf true → root (f.canon, flagNV) ∧ fn (.fexp2 d a p) (f.zeroBits false, 0) ∧ fn (.flog2 d a p) (f.canon, flagNV))
     ∧ (∀ n, X = .inf n → fn (.fsin d a p) (f.canon, flagNV) ∧ fn (.fcos d a p) (f.canon, flagNV))
     ∧ (∀ n m e, X = .fin n m e → m ≠ 0 → (if p = 0 then (20 : Int) else 30) ≤ (Nat.log2 m : Int) + e →
         fn (.fsin d a p) (f.canon, flagRG) ∧ fn (.fcos d a p) (f.canon, flagRG)))

/-- 05_numbers R140, R141, R142, R143, R144, R145, R146. Comparisons with their NaN rules, minimum and maximum, class words, sign injection,
and conversions between floats and integers and between the two precisions. -/
def Obligations.FpCompareAndConvert : Prop :=
  ∀ (s : State) (d a b : Reg) (p : BitVec 1) (kf : BitVec 3) (ki : BitVec 2), s.Ready (scalars [d, a, b]) →
    let f := if p = 0 then fp32 else fp64
    let x := (s.reg a).toNat % 2 ^ f.width
    let y := (s.reg b).toNat % 2 ^ f.width
    let X := f.value x
    let Y := f.value y
    let gives := fun (i : Instr) (names : List Reg) (v : Word) (fl : Flags) => Runs i s (((s.putReg d v).raise fl).done ⟨4, names, 0⟩)
    let three := fun (i : Instr) (v : Word) (fl : Flags) => gives i [d, a, b] v fl
    let two := fun (i : Instr) (v : Word) (fl : Flags) => gives i [d, a] v fl
    let nan := X.isNan || Y.isNan
    let sig := flagIf (X.isSignalling || Y.isSignalling) flagNV
    let sign := 2 ^ (f.width - 1)
    let kind := kf.toNat % 4
    let lo : Int := if kind = 0 then -(2 : Int) ^ 63 else if kind = 2 then -(2 : Int) ^ 31 else 0
    let hi : Int := if kind = 0 then (2 : Int) ^ 63 - 1 else if kind = 1 then (2 : Int) ^ 64 - 1 else if kind = 2 then (2 : Int) ^ 31 - 1 else (2 : Int) ^ 32 - 1
    (nan → three (.feq d a b p) 0 sig ∧ three (.flt d a b p) 0 flagNV ∧ three (.fle d a b p) 0 flagNV)
    ∧ (∀ n m e k m' e', X = .fin n m e → Y = .fin k m' e' →
        let low := min e e'
        let u := fun (g : Bool) (q : Nat) (r : Int) => (if g then (-1 : Int) else 1) * (q * 2 ^ (r - low).toNat : Nat)
        three (.feq d a b p) (if u n m e = u k m' e' then 1 else 0) 0 ∧ three (.flt d a b p) (if u n m e < u k m' e' then 1 else 0) 0
        ∧ three (.fle d a b p) (if u n m e ≤ u k m' e' then 1 else 0) 0
        ∧ (u n m e < u k m' e' → three (.fmin d a b p) (BitVec.ofNat 64 x) 0 ∧ three (.fmax d a b p) (BitVec.ofNat 64 y) 0)
        ∧ (u k m' e' < u n m e → three (.fmin d a b p) (BitVec.ofNat 64 y) 0 ∧ three (.fmax d a b p) (BitVec.ofNat 64 x) 0))
    ∧ (let cmps := fun (eq lt le : Bool) (least most : Nat) =>
        three (.feq d a b p) (if eq then 1 else 0) 0 ∧ three (.flt d a b p) (if lt then 1 else 0) 0 ∧ three (.fle d a b p) (if le then 1 else 0) 0
        ∧ three (.fmin d a b p) (BitVec.ofNat 64 least) 0 ∧ three (.fmax d a b p) (BitVec.ofNat 64 most) 0
      (∀ n k, X = .inf n → Y = .inf k → cmps (n == k) (n && !k) (n || !k) (if n then x else y) (if n then y else x))
      ∧ (∀ n k m e, X = .inf n → Y = .fin k m e → cmps false n n (if n then x else y) (if n then y else x))
      ∧ (∀ n k m e, X = .fin n m e → Y = .inf k → cmps false (!k) (!k) (if k then y else x) (if k then x else y))
      ∧ (nan = false → x = y → cmps true false true x x))
    ∧ (x = sign → y = 0 → three (.fmin d a b p) (BitVec.ofNat 64 sign) 0 ∧ three (.fmax d a b p) 0 0)
    ∧ (x = 0 → y = sign → three (.fmin d a b p) (BitVec.ofNat 64 sign) 0 ∧ three (.fmax d a b p) 0 0)
    ∧ (X.isNan → Y.isNan → three (.fmin d a b p) (BitVec.ofNat 64 f.canon) sig ∧ three (.fmax d a b p) (BitVec.ofNat 64 f.canon) sig)
    ∧ (X.isNan → Y.isNan = false → three (.fmin d a b p) (BitVec.ofNat 64 y) sig ∧ three (.fmax d a b p) (BitVec.ofNat 64 y) sig)
    ∧ (X.isNan = false → Y.isNan → three (.fmin d a b p) (BitVec.ofNat 64 x) sig ∧ three (.fmax d a b p) (BitVec.ofNat 64 x) sig)
    ∧ three (.fsgnj d a b p) (BitVec.ofNat 64 (x % sign + y / sign * sign)) 0
    ∧ three (.fsgnjn d a b p) (BitVec.ofNat 64 (x % sign + (1 - y / sign) * sign)) 0
    ∧ (∃ v : Word, two (.fclass d a p) v 0 ∧ v.getLsbD 0 = decide (sign ≤ x)
        ∧ bf v 3 1 = (match X with
          | .nan sg => if sg then 5 else 4
          | .inf _ => 3
          | .fin _ m _ => if m = 0 then 0 else if m < 2 ^ f.frac then 1 else 2)
        ∧ (v.getLsbD 5 = decide (x = f.canon)))
    ∧ (X.isNan → two (.fcvtFi d a kf p) 0 flagNV)
    ∧ (∀ n, X = .inf n → two (.fcvtFi d a kf p) (BitVec.ofInt 64 (if n then lo else hi)) flagNV)
    ∧ (∀ n m e, X = .fin n m e → 0 ≤ e → let v : Int := (if n then -1 else 1) * (m * 2 ^ e.toNat : Nat)
        two (.fcvtFi d a kf p) (BitVec.ofInt 64 (if hi < v then hi else if v < lo then lo else v)) (flagIf (decide (hi < v ∨ v < lo)) flagNV))
    ∧ (∀ n m e, X = .fin n m e → e < 0 → kf.getLsbD 2 = true → let v : Int := (if n then -1 else 1) * (m / 2 ^ (-e).toNat : Nat)
        two (.fcvtFi d a kf p) (BitVec.ofInt 64 (if hi < v then hi else if v < lo then lo else v))
          (if hi < v ∨ v < lo then flagNV else flagIf (decide (m % 2 ^ (-e).toNat ≠ 0)) flagNX))
    ∧ (∀ n m e, X = .fin n m e → e < 0 → kf.getLsbD 2 = false →
        let q := m / 2 ^ (-e).toNat
        let rest := m % 2 ^ (-e).toNat
        let up := match s.rounding with
          | .rne => decide (2 ^ (-e).toNat < 2 * rest ∨ (2 ^ (-e).toNat = 2 * rest ∧ q % 2 = 1))
          | .rdn => n && decide (rest ≠ 0)
          | .rup => !n && decide (rest ≠ 0)
          | _ => false
        let v : Int := (if n then -1 else 1) * (q + (if up then 1 else 0) : Nat)
        two (.fcvtFi d a kf p) (BitVec.ofInt 64 (if hi < v then hi else if v < lo then lo else v))
          (if hi < v ∨ v < lo then flagNV else flagIf (decide (rest ≠ 0)) flagNX))
    ∧ (∀ v : Int, v = (if ki = 0 then (s.reg a).toInt else if ki = 1 then ((s.reg a).toNat : Int) else
          if ki = 2 then ((s.reg a).setWidth 32).toInt else ((s.reg a).toNat % 2 ^ 32 : Nat)) →
        two (.fcvtIf d a ki p) (BitVec.ofNat 64 (f.round s.rounding false (decide (v < 0)) v.natAbs 0 false).1)
          (f.round s.rounding false (decide (v < 0)) v.natAbs 0 false).2)
    ∧ (let g := if p = 0 then fp64 else fp32
      (∀ n m e, X = .fin n m e → two (.fcvtP d a p) (BitVec.ofNat 64 (g.round s.rounding false n m e false).1) (g.round s.rounding false n m e false).2)
      ∧ (∀ n, X = .inf n → two (.fcvtP d a p) (BitVec.ofNat 64 (g.infBits n)) 0)
      ∧ (∀ q, X = .nan q → two (.fcvtP d a p) (BitVec.ofNat 64 g.canon) (flagIf q flagNV)))

/-! ### Packed SIMD -/

/-- 06_vector R158, R161, R164, R165, R167, R179. The integer lane operations of every width and sign, lane by lane; the bitwise ones, VSEL
and VMOV on all 256 bits; a division goes through the iterative unit and is delivered 25 cycles after its issue. 06_vector R162, R163,
R164, R173, R179; 05_numbers R130. The floating-point lane operations do in each lane what the scalar rule does in that lane's format, and
their flags are those that any lane raises; VDIV and the special functions go through the iterative unit, after 19 (33 for FP64) and 23
(39) cycles, and give the canonical NaN for a NaN lane. -/
def Obligations.VectorLanes : Prop :=
  (∀ (s : State) (d a b : Reg) (t u : BitVec 4), s.Ready (vectors [d, a, b]) → t.toNat < 8 →
     let w := 8 * 2 ^ (t.toNat / 2)
     let A := s.vec a
     let B := s.vec b
     let D := s.vec d
     let lane := fun (v : Vec) (j : Nat) => v.extractLsb' (w * j) w
     let int := fun (x : BitVec w) => if t.toNat % 2 = 0 then x.toInt else (x.toNat : Int)
     let lo : Int := if t.toNat % 2 = 0 then -(2 : Int) ^ (w - 1) else 0
     let hi : Int := if t.toNat % 2 = 0 then (2 : Int) ^ (w - 1) - 1 else (2 : Int) ^ w - 1
     let clamp := fun (i : Int) => BitVec.ofInt w (if i < lo then lo else if hi < i then hi else i)
     let mask := fun (b : Bool) => if b then BitVec.allOnes w else 0
     let tgt := fun (names : List Reg) (v : Vec) => ((s.putVec d v).raise 0).done ⟨4, names, 0⟩
     let each := fun (i : Instr) (g : BitVec w → BitVec w → BitVec w → BitVec w) =>
       ∃ v, Runs i s (tgt [d, a, b] v) ∧ ∀ j, j < 256 / w → lane v j = g (lane D j) (lane A j) (lane B j)
     let one := fun (i : Instr) (g : BitVec w → BitVec w) => ∃ v, Runs i s (tgt [d, a] v) ∧ ∀ j, j < 256 / w → lane v j = g (lane A j)
     each (.vadd d a b t) (fun _ x y => x + y) ∧ each (.vsub d a b t) (fun _ x y => x - y) ∧ each (.vmul d a b t) (fun _ x y => x * y)
     ∧ each (.vfma d a b t) (fun z x y => z + x * y)
     ∧ each (.vmin d a b t) (fun _ x y => if int x ≤ int y then x else y) ∧ each (.vmax d a b t) (fun _ x y => if int y ≤ int x then x else y)
     ∧ one (.vabs d a t) (fun x => if int x < 0 then -x else x) ∧ one (.vneg d a t) (fun x => -x)
     ∧ each (.vshl d a b t) (fun _ x y => x <<< (y.toNat % w)) ∧ each (.vshr d a b t) (fun _ x y => x >>> (y.toNat % w))
     ∧ each (.vsra d a b t) (fun _ x y => x.sshiftRight (y.toNat % w))
     ∧ each (.vadds d a b t) (fun _ x y => clamp (int x + int y)) ∧ each (.vsubs d a b t) (fun _ x y => clamp (int x - int y))
     ∧ each (.vmulh d a b t) (fun _ x y => BitVec.ofInt w (int x * int y / (2 : Int) ^ w))
     ∧ each (.vcmpeq d a b t) (fun _ x y => mask (decide (x = y))) ∧ each (.vcmplt d a b t) (fun _ x y => mask (decide (int x < int y)))
     ∧ each (.vcmple d a b t) (fun _ x y => mask (decide (int x ≤ int y)))
     ∧ Runs (.vand d a b u) s (tgt [d, a, b] (A &&& B)) ∧ Runs (.vor d a b u) s (tgt [d, a, b] (A ||| B))
     ∧ Runs (.vxor d a b u) s (tgt [d, a, b] (A ^^^ B)) ∧ Runs (.vsel d a b u) s (tgt [d, a, b] ((A &&& D) ||| (B &&& ~~~D)))
     ∧ Runs (.vmov d a u) s (tgt [d, a] A)
     ∧ (∃ v, Runs (.vdiv d a b t) s (s.block (.iter .vector (.vector d) v 0 ((s.core s.curCore).cycle + 25) ⟨4, [d, a, b], 0⟩))
         ∧ ∀ j, j < 256 / w → lane v j = if lane B j = 0 then BitVec.allOnes w else BitVec.ofInt w ((int (lane A j)).tdiv (int (lane B j)))))
  ∧ (∀ (s : State) (d a b : Reg) (t : BitVec 4), s.Ready (vectors [d, a, b]) → 10 ≤ t.toNat → t.toNat ≤ 13 →
     let f := if t = 10 then fp16 else if t = 11 then bf16 else if t = 12 then fp32 else fp64
     let w := f.width
     let rm := s.rounding
     let now := (s.core s.curCore).cycle
     let lane := fun (v : Vec) (j : Nat) => (v.extractLsb' (w * j) w).toNat
     let holds := fun (v : Vec) (fl : Flags) (g : Nat → Nat → Nat → Nat × Flags) =>
       (∀ j, j < 256 / w → lane v j = (g (lane (s.vec d) j) (lane (s.vec a) j) (lane (s.vec b) j)).1 % 2 ^ w)
       ∧ (∀ i, i < 6 → (fl.getLsbD i = true ↔ ∃ j, j < 256 / w ∧ (g (lane (s.vec d) j) (lane (s.vec a) j) (lane (s.vec b) j)).2.getLsbD i = true))
     let each := fun (i : Instr) (names : List Reg) (g : Nat → Nat → Nat → Nat × Flags) =>
       ∃ v fl, Runs i s (((s.putVec d v).raise fl).done ⟨4, names, 0⟩) ∧ holds v fl g
     let test := fun (r : Bool × Flags) => (if r.1 then 2 ^ w - 1 else 0, r.2)
     let units := fun (i : Instr) (n : Nat) (q : Vec → Flags → Prop) => ∃ v fl,
       Runs i s (s.block (.iter .vector (.vector d) v fl (now + n) ⟨4, [d, a], 0⟩)) ∧ q v fl
       ∧ ∀ j, j < 256 / w → (f.value (lane (s.vec a) j)).isNan → lane v j = f.canon
     let n := if t = 13 then 39 else 23
     each (.vadd d a b t) [d, a, b] (fun _ x y => f.sum rm [f.value x, f.value y] false)
     ∧ each (.vsub d a b t) [d, a, b] (fun _ x y => f.sum rm [f.value x, (f.value y).negate] false)
     ∧ each (.vmul d a b t) [d, a, b] (fun _ x y => f.mul rm x y)
     ∧ each (.vfma d a b t) [d, a, b] (fun z x y => f.sum rm [f.value z, ((f.value x).mul (f.value y)).1] ((f.value x).mul (f.value y)).2)
     ∧ each (.vmin d a b t) [d, a, b] (fun _ x y => f.minmax false x y) ∧ each (.vmax d a b t) [d, a, b] (fun _ x y => f.minmax true x y)
     ∧ each (.vabs d a t) [d, a] (fun _ x _ => (x % 2 ^ (w - 1), 0)) ∧ each (.vneg d a t) [d, a] (fun _ x _ => ((x + 2 ^ (w - 1)) % 2 ^ w, 0))
     ∧ each (.vcmpeq d a b t) [d, a, b] (fun _ x y => test (f.compare 0 x y)) ∧ each (.vcmplt d a b t) [d, a, b] (fun _ x y => test (f.compare 1 x y))
     ∧ each (.vcmple d a b t) [d, a, b] (fun _ x y => test (f.compare 2 x y))
     ∧ each (.vshl d a b t) [d, a, b] (fun _ x y => if y % 256 = 255 then (f.canon, 0) else
         match f.value x with
         | .nan sig => (f.canon, flagIf sig flagNV)
         | .inf n => (f.infBits n, 0)
         | .fin n m e => f.round rm false n m (e + (y % 256 : Nat) - 127) false)
     ∧ (∃ v fl, Runs (.vdiv d a b t) s (s.block (.iter .vector (.vector d) v fl (now + if t = 13 then 33 else 19) ⟨4, [d, a, b], 0⟩))
         ∧ holds v fl (fun _ x y => f.div rm x y))
     ∧ units (.vrcp d a t) n (fun v _ => ∀ j, j < 256 / w → ∀ g, f.value (lane (s.vec a) j) = .inf g → lane v j = f.zeroBits g)
     ∧ units (.vrsq d a t) n (fun v _ => ∀ j, j < 256 / w → f.value (lane (s.vec a) j) = .inf true → lane v j = f.canon)
     ∧ units (.vexp2 d a t) n (fun v _ => ∀ j, j < 256 / w → f.value (lane (s.vec a) j) = .inf true → lane v j = 0)
     ∧ units (.vlog2 d a t) n (fun v _ => ∀ j, j < 256 / w → f.value (lane (s.vec a) j) = .inf false → lane v j = f.infBits false)
     ∧ units (.vsin d a t) n (fun v fl => ∀ j, j < 256 / w → ∀ g, f.value (lane (s.vec a) j) = .inf g → lane v j = f.canon ∧ fl.getLsbD 4 = true)
     ∧ units (.vcos d a t) n (fun v fl => ∀ j, j < 256 / w → ∀ g, f.value (lane (s.vec a) j) = .inf g → lane v j = f.canon ∧ fl.getLsbD 4 = true)
     ∧ units (.vtanh d a t) n (fun v _ => ∀ j, j < 256 / w → lane (s.vec a) j = 0 → lane v j = 0)
     ∧ units (.vsigm d a t) n (fun v _ => ∀ j, j < 256 / w → f.value (lane (s.vec a) j) = .inf true → lane v j = 0))

/-- 06_vector R166, R167, R168, R169. Shuffles, broadcasts, single lanes, reductions and dot products: which lane goes where, an index whose
top bit is set giving zero, a lane number outside the register giving 0 or changing nothing, integer sums exact, and floating-point lanes
combined by a pairwise tree with RNE at every level. 06_vector R170, R171; 05_numbers R144, R150, R151, R155. VCVT converts the lanes that
both types have room for, in order from lane 0, and clears the rest: integers saturate, floats round by the instruction's mode. Only the
stochastic modes advance CVTCNT. -/
def Obligations.VectorMovesReductionsAndConversions : Prop :=
  (∀ (s : State) (d a b : Reg) (t : BitVec 4), t.toNat < 15 →
     let w := laneWidth t.toNat
     let n := 256 / w
     let lane := fun (v : Vec) (j : Nat) => v.extractLsb' (w * j) w
     let int := fun (x : BitVec w) => if t.toNat < 8 ∧ t.toNat % 2 = 0 then x.toInt else (x.toNat : Int)
     let all := (List.range n).map (fun j => int (lane (s.vec a) j))
     let vector := fun (i : Instr) (q : Vec → Flags → Prop) => ∃ v fl, Runs i s (((s.putVec d v).raise fl).done ⟨4, [d, a, b], 0⟩) ∧ q v fl
     let scalar := fun (i : Instr) (q : Word → Flags → Prop) => ∃ v fl, Runs i s (((s.putReg d v).raise fl).done ⟨4, [d, a], 0⟩) ∧ q v fl
     let f := laneFormat t.toNat
     let tree := fun (op : Nat → Nat → Nat × Flags) (v : Word) (fl : Flags) => ∃ l : Nat → Nat → Nat, (∀ k, l 0 k = (lane (s.vec a) k).toNat)
       ∧ (∀ i k, l (i + 1) k = (op (l i (2 * k)) (l i (2 * k + 1))).1) ∧ v = BitVec.ofNat 64 (l (Nat.log2 n) 0)
       ∧ (∀ m, m < 6 → (fl.getLsbD m = true ↔ ∃ i k, i < Nat.log2 n ∧ k < n / 2 ^ (i + 1) ∧ (op (l i (2 * k)) (l i (2 * k + 1))).2.getLsbD m = true))
     let fl := 10 ≤ t.toNat ∧ t.toNat ≤ 13
     (s.Ready (vectors [d, a, b]) → vector (.vshuf d a b t) (fun v g => g = 0 ∧ ∀ j, j < n → lane v j =
         if (lane (s.vec b) j).getLsbD (w - 1) then 0 else lane (s.vec a) ((lane (s.vec b) j).toNat % n)))
     ∧ (s.Ready [.vector d, .scalar a] → ∃ v, Runs (.vbcast d a t) s (((s.putVec d v).raise 0).done ⟨4, [d, a], 0⟩)
         ∧ ∀ j, j < n → lane v j = (s.reg a).setWidth w)
     ∧ (s.Ready [.scalar d, .vector a, .scalar b] → ∃ v : Word, Writes (.vextr d a b t) s 4 [d, a, b] d v
         ∧ (n ≤ (s.reg b).toNat → v = 0) ∧ ((s.reg b).toNat < n → v = BitVec.ofInt 64 (int (lane (s.vec a) (s.reg b).toNat))))
     ∧ (s.Ready [.vector d, .scalar a, .scalar b] → vector (.vins d a b t) (fun v g => g = 0 ∧ ∀ j, j < n →
         lane v j = if j = (s.reg b).toNat then (s.reg a).setWidth w else lane (s.vec d) j))
     ∧ (s.Ready [.scalar d, .vector a] → t.toNat < 8 →
         scalar (.vredadd d a t) (fun v g => g = 0 ∧ v = BitVec.ofInt 64 all.sum)
         ∧ scalar (.vredmax d a t) (fun v g => g = 0 ∧ ∃ x ∈ all, v = BitVec.ofInt 64 x ∧ ∀ y ∈ all, y ≤ x)
         ∧ scalar (.vredmin d a t) (fun v g => g = 0 ∧ ∃ x ∈ all, v = BitVec.ofInt 64 x ∧ ∀ y ∈ all, x ≤ y))
     ∧ (s.Ready [.scalar d, .vector a] → fl →
         scalar (.vredadd d a t) (tree (fun x y => f.sum .rne [f.value x, f.value y] false))
         ∧ scalar (.vredmax d a t) (tree (fun x y => f.minmax true x y)) ∧ scalar (.vredmin d a t) (tree (fun x y => f.minmax false x y)))
     ∧ (s.Ready (vectors [d, a, b]) → t.toNat < 4 → vector (.vdot d a b t) (fun v g => g = 0 ∧ ∀ j, j < 8 → v.extractLsb' (32 * j) 32 =
         (s.vec d).extractLsb' (32 * j) 32 + BitVec.ofInt 32 (((List.range (32 / w)).map (fun i =>
           int (lane (s.vec a) (j * (32 / w) + i)) * int (lane (s.vec b) (j * (32 / w) + i)))).sum)))
     ∧ (s.Ready (vectors [d, a, b]) → 8 ≤ t.toNat → t.toNat ≠ 12 → t.toNat ≠ 13 → vector (.vdot d a b t) (fun v _ => ∀ j, j < 8 →
         let pairs := (List.range (32 / w)).map (fun i =>
           (f.value (lane (s.vec a) (j * (32 / w) + i)).toNat).mul (f.value (lane (s.vec b) (j * (32 / w) + i)).toNat))
         (v.extractLsb' (32 * j) 32).toNat =
           (fp32.sum .rne (fp32.value ((s.vec d).extractLsb' (32 * j) 32).toNat :: pairs.map (fun p => p.1)) (pairs.any (fun p => p.2))).1 % 2 ^ 32)))
  ∧ (∀ (s : State) (d a : Reg) (t st : BitVec 4) (n : BitVec 5), s.Ready (vectors [d, a]) → t.toNat < 15 → st.toNat < 15 → n.toNat < 7 →
     let ws := laneWidth st.toNat
     let wt := laneWidth t.toNat
     let count := min (256 / ws) (256 / wt)
     let x := fun (e : Nat) => (s.vec a).toNat / 2 ^ (ws * e) % 2 ^ ws
     let y := fun (v : Vec) (e : Nat) => v.toNat / 2 ^ (wt * e) % 2 ^ wt
     let int := fun (e : Nat) => if st.toNat % 2 = 0 then (BitVec.ofNat ws (x e)).toInt else (x e : Int)
     let lo : Int := if t.toNat % 2 = 0 then -(2 : Int) ^ (wt - 1) else 0
     let hi : Int := if t.toNat % 2 = 0 then (2 : Int) ^ (wt - 1) - 1 else (2 : Int) ^ wt - 1
     let mode := if n = 1 then Rounding.rz else if n = 2 then .rdn else if n = 3 then .rup else .rne
     ∃ v fl u, Runs (.vcvt d a t st n) s (u.done ⟨4, [d, a], 0⟩)
       ∧ u = (if n = 4 ∨ n = 6 then ((s.putVec d v).raise fl).countConversion else (s.putVec d v).raise fl)
       ∧ (∀ e, count ≤ e → y v e = 0)
       ∧ (∀ e, e < count → st = t → st.toNat < 8 → y v e = x e)
       ∧ (∀ e, e < count → st ≠ t → st.toNat < 8 → t.toNat < 8 →
           y v e = (BitVec.ofInt wt (if hi < int e then hi else if int e < lo then lo else int e)).toNat)
       ∧ (∀ e, e < count → st ≠ t → st.toNat < 8 → 8 ≤ t.toNat → n.toNat < 4 →
           y v e = ((laneFormat t.toNat).round mode false (decide (int e < 0)) (int e).natAbs 0 false).1 % 2 ^ wt)
       ∧ (∀ e, e < count → 8 ≤ st.toNat → t.toNat < 8 → ((laneFormat st.toNat).value (x e)).isNan → y v e = 0)
       ∧ (∀ e, e < count → st ≠ t → 8 ≤ st.toNat → 8 ≤ t.toNat → n.toNat < 4 → ∀ g m ex, (laneFormat st.toNat).value (x e) = .fin g m ex →
           y v e = ((laneFormat t.toNat).round mode false g m ex false).1 % 2 ^ wt))

/-! ### Codelets, the dispatcher, queues and keys -/

/-- 13_tasks R346, R347, R350, R351, R352, R355. CLINIT, CLDEC and CLPUSH on a descriptor of the issuing core, and their requests at the
descriptor's owner, do what R351's table says for the descriptor's COUNT and STATE, give the result word of R350, and a push puts the
descriptor at the end of the ready ring. The ring has room, and the checker is off. 13_tasks R346, R354. CLEND changes nothing
until its WB (the step of a WB is log 6); in a codelet from the ring that frees its slot and finishes its descriptor: a re-armed one is READY in the ring when its count is 0 and ARMED otherwise, another is DONE,
or with a b register ARMED with that count, or READY for a count of 0. In a context that is no codelet it is HALT. 13_tasks R357. A push
that found the ring full waits at the owner; it is done once an entry is free: the descriptor is READY at the end of the ring, and a
request is answered then. With the ring still full, nothing changes. 10_ordering R280. A codelet's end that touches bytes of an active
scoreboard entry waits, and is done once they are free. -/
def Obligations.CodeletCountersAndEnds : Prop :=
  (∀ (s s1 : State) (d a b : Reg) (off i : Nat) (m : Msg), s.CanonicalMemory →
     let row : Nat → Nat → Nat → Nat → (Nat × Nat) × (Bool × Bool × Bool × Bool) := fun op n c st =>
       if op = 0 then
         (if st = 4 then ((n, 4), (true, false, false, false)) else if st = 2 ∨ st = 3 ∨ st = 7 then ((c, st), (false, false, false, true))
          else if n = 0 then ((0, 2), (false, true, false, false)) else ((n, 1), (false, false, false, false)))
       else if op = 1 then
         (if c = 0 then ((c, st), (false, false, true, false)) else if c = 1 ∧ st = 1 then ((0, 2), (false, true, false, false))
          else ((c - 1, st), (false, false, false, false)))
       else
         (if st = 4 then ((0, 4), (true, false, false, false)) else if st = 2 ∨ st = 3 ∨ st = 6 ∨ st = 7 then ((c, st), (false, false, false, true))
          else ((0, 2), (false, true, false, false)))
     let after := fun (t : State) (h : CoreId) (op n : Nat) (v : Word) =>
       let w := s.readWord (scratchAddr h (off + 32))
       let w' := t.readWord (scratchAddr h (off + 32))
       let r := row op n (w.toNat % 2 ^ 32) (w.toNat / 2 ^ 32 % 8)
       bf w' 31 0 = r.1.1 ∧ bf w' 34 32 = r.1.2 ∧ (r.2.1 = true → w'.getLsbD 38 = true) ∧ (r.2.2.2.1 = true → w'.getLsbD 39 = true)
       ∧ bf v 31 0 = w.toNat % 2 ^ 32 ∧ bf v 34 32 = w.toNat / 2 ^ 32 % 8 ∧ v.getLsbD 40 = r.2.2.1 ∧ v.getLsbD 41 = r.2.2.2.1 ∧ v.getLsbD 42 = r.2.2.2.2
       ∧ (t.core h).ringCount = (s.core h).ringCount + r.2.2.1.toNat
       ∧ (r.2.2.1 = true → t.readWord (scratchAddr h (0x7B800 + 8 * (((s.core h).ringHead + (s.core h).ringCount) % 256))) = BitVec.ofNat 64 (2 ^ 63 + off))
     let usable := fun (h : CoreId) => isCompute h = true ∧ off + 48 ≤ 0x7B800 ∧ off % 8 = 0 ∧ s.isHeld (scratchAddr h off) 48 = false
       ∧ s.isPoisoned (scratchAddr h (off + 32)) 8 = false ∧ (s.core h).ringCount < 256 ∧ s.isHeld (s.ringSlot h) 8 = false
     (let c := s.curCore
      let k := s.curSlot
      let local_ := fun (op n : Nat) (ins : Instr) (names : List Reg) => s.Ready (scalars names) →
        ∃ t v, Runs ins s t ∧ lastReg t c k d = (if d = 0 then 0 else v) ∧ Advanced s t c k 4 ∧ after t c op n v
      s.checkScratch c k (s.reg a) ⟨8, 48, [rightA], false, true, false, 48⟩ = .ok (.self off) → usable c → s.CheckerOff c k →
       local_ 0 ((s.reg b).toNat % 2 ^ 32) (.clinit d a b) [d, a, b] ∧ local_ 1 0 (.cldec d a) [d, a] ∧ local_ 2 0 (.clpush d a) [d, a])
     ∧ (∀ op n rcb, s.pick i = some (m, s1) → m.body = .codelet op (scratchAddr m.dst off) n rcb → m.post = none → s.isAbsent m = false →
         m.src < 32768 → s.spillRefused m (scratchAddr m.dst off) 48 = false → usable m.dst → op ≤ 2 → n < 2 ^ 32 →
         ∃ t v u, Runs (.codeletCounterRequest i) s t ∧ after t m.dst op n v
           ∧ t.net = s.net.eraseIdx i ++ u ++ [{ m with src := m.dst, dst := m.src, held := none, body := .dataReply .done (v.setWidth 256) 0 }]))
  ∧ (∀ (s : State) (b : Reg), s.Ready (scalars [b]) → s.CheckerOff s.curCore s.curSlot → s.CanonicalMemory → s.curSlot < 16 →
     s.cur.spilled = none → s.cur.st = .run → isCompute s.curCore = true → (s.core s.curCore).ringCount < 256 →
     let c := s.curCore
     let k := s.curSlot
     let x := s.core c
     let off := s.cur.origin.desc
     let w := s.readWord (scratchAddr c (off + 32))
     let n := (s.reg b).toNat % 2 ^ 32
     let r : Retire := ⟨4, if b = 0 then [] else [b], 0⟩
     let count := if b = 0 then none else some n
     Runs (.clend b) s (s.modCore c (fun y => { y with landing := y.landing ++ [⟨x.cycle, k, x.cycle + 2, .ending r count 0 0⟩] }))
     ∧ ∀ i due : Nat,
       let t := s.writeBack c ⟨i, k, due, .ending r count 0 0⟩
       let freed := (t.slot c k).st = .free ∧ SameOtherSlots s t c k
       let leaves := fun (st : Nat) => freed ∧ bf (t.readWord (scratchAddr c (off + 32))) 34 32 = st
         ∧ (t.core c).ringCount = x.ringCount + (if st = 2 then 1 else 0)
       (s.cur.origin.disp = false ∨ s.cur.origin.ring = false → freed ∧ SameMemory s t)
       ∧ (s.cur.origin.disp = true → s.cur.origin.ring = true → s.isHeld (scratchAddr c off) 48 = true →
           freed ∧ SameMemory s t ∧ (t.core c).ending = x.ending ++ [(off, count)])
       ∧ (s.cur.origin.disp = true → s.cur.origin.ring = true → off + 48 ≤ 0x7B800 → off % 8 = 0 → s.isHeld (scratchAddr c off) 48 = false →
         s.isHeld (s.ringSlot c) 8 = false →
         (w.getLsbD 38 = true → leaves (if bf w 31 0 = 0 then 2 else 1))
         ∧ (w.getLsbD 38 = false → b = 0 → leaves 5) ∧ (w.getLsbD 38 = false → b ≠ 0 → leaves (if n = 0 then 2 else 1))))
  ∧ (∀ (s : State) (c off : Nat) (rest : List (Nat × Option Msg)), s.CanonicalMemory → isCompute c = true → off + 48 ≤ 0x7B800 → off % 8 = 0 →
     let x := s.core c
     let w := s.readWord (scratchAddr c (off + 32))
     let pushed := fun (t : State) => Runs (.heldRingPush c) s t ∧ (t.core c).heldPush = rest ∧ bf (t.readWord (scratchAddr c (off + 32))) 34 32 = 2
       ∧ (t.core c).ringCount = x.ringCount + 1
       ∧ t.readWord (scratchAddr c (0x7B800 + 8 * ((x.ringHead + x.ringCount) % 256))) = BitVec.ofNat 64 (2 ^ 63 + off)
     let open_ := s.isHeld (scratchAddr c off) 48 = false ∧ s.isHeld (s.ringSlot c) 8 = false
     (x.heldPush = [] → x.ending = [] → Runs (.heldRingPush c) s s)
     ∧ (∀ n more, x.heldPush = [] → x.ending = (off, n) :: more → s.endHeld c off n = false →
         Runs (.heldRingPush c) s ((s.modCore c (fun x => { x with ending := more })).endStep c off n))
     ∧ (256 ≤ x.ringCount → x.heldPush ≠ [] → Runs (.heldRingPush c) s s)
     ∧ (x.heldPush = (off, none) :: rest → x.ringCount < 256 → open_ → w.getLsbD 38 = false ∨ bf w 31 0 = 0 → ∃ t, pushed t)
     ∧ (∀ m n rcb, x.heldPush = (off, some m) :: rest → x.ringCount < 256 → open_ → m.body = .codelet 2 (scratchAddr c off) n rcb → m.dst = c → m.src < 32768 →
         m.post = none → bf w 34 32 = 1 ∨ bf w 34 32 = 5 → ∃ t u v, pushed t
         ∧ t.net = s.net ++ u ++ [{ m with src := m.dst, dst := m.src, held := none, body := .dataReply .done v 0 }]))

/-- 13_tasks R355, R358, R359, R360, R362; 03_strands R69. The dispatcher takes the ring's head, marks its descriptor STAGED and copies it
into the staging area, where it asks for its lowest key or, with none, is ready; the slot allocator starts a ready codelet in the
lowest-numbered FREE slot, with its argument in p1 and its descriptor's offset in p5, and marks the descriptor RUNNING. 13_tasks R361,
R362, R363, R364. A free key is granted at once and a held one queues the asker behind its holder; a release passes the key to its oldest
waiter, or frees it; a grant counts at its staging entry, and a request answered `retry` is sent again once its time has come. -/
def Obligations.DispatcherAndKeys : Prop :=
  (∀ (s : State) (c off : Nat), s.CanonicalMemory → isCompute c = true → (s.core c).halted = false → off + 48 ≤ 0x7B800 → off % 8 = 0 →
     let x := s.core c
     let ws := s.readWords (scratchAddr c off) 6
     let at_ := scratchAddr c (0x7B800 + 8 * x.ringHead)
     (x.staging.length < 8 → x.amq = [] → 0 < x.ringCount → s.readWord at_ = BitVec.ofNat 64 (2 ^ 63 + off) → bf (ws.getD 4 0) 34 32 = 2 →
       s.descriptorOk c ws = true → s.isHeld at_ 8 = false → s.isHeld (scratchAddr c off) 48 = false →
       ∃ t z, Runs (.dispatcherStage c) s t ∧ bf (t.readWord (scratchAddr c (off + 32))) 34 32 = 3
         ∧ (t.core c).ringHead = (x.ringHead + 1) % 256 ∧ (t.core c).ringCount = x.ringCount - 1
         ∧ z.desc = off ∧ z.pc = ws.getD 0 0 ∧ z.arg = ws.getD 1 0 ∧ z.granted = 0 ∧ z.keyed = none ∧ z.id = x.nextStage
         ∧ (x.staging.all (fun y => y.id != x.nextStage) = true → (t.core c).staging = x.staging ++ [z])
         ∧ (z.keys = [] → z.done = some s.tick)
         ∧ (∀ key rest, z.keys = key :: rest → z.asked = true ∧ z.done = none
             ∧ ∃ u m, t.net = s.net ++ u ++ [m] ∧ m.dst = keySlice z.keyns key ∧ m.body = .keyRequest z.keyns key z.id))
     ∧ (∀ z k, x.amClaim = none → x.amq = [] → oldestReady x.staging = some z → x.codeletWaits = true → z.keyed = none → z.desc = off →
       s.claimInBudget c z.rcb = true → x.granted ≠ some x.cycle → s.isHeld (scratchAddr c off) 48 = false →
       k < 16 → (s.slot c k).isFree x.cycle = true → (s.slot c k).nextGen.isSome = true →
       (∀ j, j < k → ¬ ((s.slot c j).isFree x.cycle = true ∧ (s.slot c j).nextGen.isSome = true)) →
       ∃ t, Runs (.slotGrant c) s t ∧ (t.core c).granted = some x.cycle ∧ (t.slot c k).st = .run ∧ (t.slot c k).pc = z.pc &&& ~~~(1 : Word) ∧ (t.slot c k).p[1] = z.arg
         ∧ (t.slot c k).p[5] = BitVec.ofNat 64 off ∧ (t.slot c k).level = 0 ∧ (t.slot c k).origin.keys = z.keys
         ∧ bf (t.readWord (scratchAddr c (off + 32))) 34 32 = 4 ∧ (t.core c).staging = x.staging.filter (fun y => y.id != z.id)
         ∧ SameOtherSlots s t c k)
     ∧ (x.granted = some x.cycle → Runs (.slotGrant c) s s))
  ∧ (∀ (s s1 : State) (n p ns stage : Nat) (key : BitVec 32) (m : Msg), s.pick n = some (m, s1) → s.isAbsent m = false → m.part = some p →
     let here := fun (r : KeyRec) => r.ns == ns && r.key == key
     let keys := (s.part p).keys
     let used := s.sliceKeys m.dst
     (m.body = .keyRequest ns key stage → m.src < 32768 →
       (keys.any here = false → used.length < 4096 → ∃ t g, Runs (.keyRequest n) s t ∧ (t.part p).keys = keys ++ [⟨ns, key, []⟩]
         ∧ t.net = s.net.eraseIdx n ++ [g] ∧ g.dst = m.src ∧ g.body = .keyGrant stage ∧ SameMemory s t)
       ∧ (keys.any here = true → (used.foldl (fun q r => q + r.waiters.length) 0) < 16384 → ∃ t, Runs (.keyRequest n) s t
         ∧ (t.part p).keys = keys.map (fun r => if here r then { r with waiters := r.waiters ++ [(m.src, stage)] } else r)
         ∧ t.net = s.net.eraseIdx n ∧ SameMemory s t))
     ∧ (m.body = .keyRelease ns key → ∀ r, keys.find? here = some r →
       (r.waiters = [] → ∃ t, Runs (.keyRelease n) s t ∧ (t.part p).keys = keys.filter (fun r => !here r) ∧ t.net = s.net.eraseIdx n ∧ SameMemory s t)
       ∧ (∀ core st rest, r.waiters = (core, st) :: rest → core < 32768 → ∃ t g, Runs (.keyRelease n) s t ∧ t.net = s.net.eraseIdx n ++ [g]
         ∧ g.dst = core ∧ g.body = .keyGrant st
         ∧ (t.part p).keys = keys.map (fun r => if here r then { r with waiters := rest } else r) ∧ SameMemory s t))
     ∧ (m.body = .keyGrant stage → ∀ z, (s.core m.dst).staging.find? (fun z => z.id == stage) = some z →
       ∃ t z', Runs (.keyGrant n) s t ∧ z'.id = z.id ∧ z'.granted = z.granted + 1 ∧ (z'.done.isSome = true ∨ z'.asked = true)
         ∧ (t.core m.dst).staging = (s.core m.dst).staging.map (fun y => if y.id = z.id then z' else y) ∧ SameMemory s t)
     ∧ (∀ c e z due k rest, (s.core c).staging[e]? = some z → z.retryAt = some due → z.keys.drop z.granted = k :: rest →
       (due ≤ s.fc → ∃ t g, Runs (.keyRetry c e) s t ∧ t.net = s.net ++ [g] ∧ g.src = c ∧ g.dst = keySlice z.keyns k ∧ g.body = .keyRequest z.keyns k z.id)
       ∧ (s.fc < due → Runs (.keyRetry c e) s s)))

/-- 13_tasks R366, R367, R368, R369. QPUSH, QPOP, QPOPW and CHNK leave as one request to the channel of their queue; QPUSH with p0 leaves as a
posted one and retires. A QPOPW whose time has come withdraws its wait. 13_tasks R366, R367, R368, R369. At its channel, a push to an open
queue with room and no waiter appends its entry and answers 0, a full queue answers 1 and a closed one 3; a pop takes the oldest entry, or
answers that the queue is empty or closed; a chunk counter hands out the next chunk, and an initialisation answers what was left. -/
def Obligations.QueuesKeepTheirOrder : Prop :=
  (∀ (s : State) (d a b : Reg), s.Ready (scalars [d, a, b]) → s.CheckerOff s.curCore s.curSlot → s.cur.posted = [] →
     let c := s.curCore
     let k := s.curSlot
     let q := (s.reg a).toNat % 1024
     let home := coreAt (24 + q % 8) 0 (q / 8 % 32)
     let secs := (s.reg b).toNat % 2 ^ 32
     let leaves := fun (ins : Instr) (body : Body) (w : Wait) => ∃ t m, Runs ins s t ∧ t.net = s.net ++ [m] ∧ m.src = c ∧ m.dst = home
       ∧ m.slot = k ∧ m.gen = s.cur.gen ∧ m.post = none ∧ m.body = body ∧ (t.slot c k).st = .blocked ∧ (t.slot c k).wait = w
       ∧ (t.slot c k).pc = s.cur.pc ∧ SameRegisters s t ∧ SameMemory s t
     let reply := fun (names : List Reg) (body : Body) => Wait.reply (.word d false) ⟨4, names, 0⟩ body home
     leaves (.qpop d a) (.queue 5 q 0) (reply [d, a] (.queue 5 q 0))
     ∧ leaves (.qpopw d a b) (.queue 6 q 0)
         (.qpopw d (if secs = 0 then none else some ((s.core c).cycle + 4 + secs)) q home false none ⟨4, [d, a, b], 0⟩)
     ∧ leaves (.chnk d a b) (if b = 0 then .queue 7 q 0 else .queue 8 q (s.reg b)) (reply [d, a, b] (if b = 0 then .queue 7 q 0 else .queue 8 q (s.reg b)))
     ∧ (d ≠ 0 → leaves (.qpush d a b) (.queue 4 q (s.reg b &&& 0x7FFFFFFFFFFFFFFF#64)) (reply [d, a, b] (.queue 4 q (s.reg b &&& 0x7FFFFFFFFFFFFFFF#64))))
     ∧ (d = 0 → ∃ t m, Runs (.qpush d a b) s t ∧ t.net = s.net ++ [m] ∧ m.dst = home ∧ m.post = some s.cur.nextPost
         ∧ m.body = .queue 4 q (s.reg b &&& 0x7FFFFFFFFFFFFFFF#64) ∧ Advanced s t c k 4 ∧ SameMemory s t)
     ∧ (∀ e j due n tgt r, (s.slot e j).st = .blocked → (s.slot e j).wait = .qpopw d (some due) n tgt false none r → tgt < 32768 →
         ((s.core e).cycle < due → Runs (.qpopwTimeout e j) s s)
         ∧ (due ≤ (s.core e).cycle → ∃ t m, Runs (.qpopwTimeout e j) s t ∧ t.net = s.net ++ [m] ∧ m.dst = tgt ∧ m.body = .queue 9 n 0
           ∧ (t.slot e j).wait = .qpopw d (some due) n tgt true none r ∧ SameMemory s t ∧ SameRegisters s t)))
  ∧ (∀ (s s1 : State) (n p q op : Nat) (m : Msg) (x : Word), s.pick n = some (m, s1) → s.isAbsent m = false → m.src < 32768 → m.part = some p →
     m.post = none → m.body = .queue op q x →
     let h := (s.part p).queues.getD q HwQueue.reset
     let ch := (s.part p).chunks.getD q Chunk.reset
     let answers := fun (v : Word) (r : State → Prop) => ∃ t, Runs (.carafeQueueOperation n) s t ∧ SameMemory s t ∧ SameRegisters s t ∧ r t
       ∧ t.net = s.net.eraseIdx n ++ [{ m with src := m.dst, dst := m.src, held := none, body := .dataReply .done (v.setWidth 256) 0 }]
     let same := fun (t : State) => (t.part p).queues.getD q HwQueue.reset = h
     let left := ch.end_ - ch.next
     let size := min (min left 0xFFFFFF) (max (max ch.minch 1) ((left + max ch.divs 1 - 1) / max ch.divs 1))
     (op = 4 → h.capacity = 0 → answers 3 same)
     ∧ (op = 4 → h.capacity ≠ 0 → h.waiters = [] → h.capacity ≤ h.entries.length → answers 1 same)
     ∧ (op = 4 → h.capacity ≠ 0 → h.waiters = [] → h.entries.length < h.capacity →
         answers 0 (fun t => (t.part p).queues.getD q HwQueue.reset = { h with entries := h.entries ++ [x] }))
     ∧ (op = 5 ∨ op = 6 → h.capacity = 0 → answers 0x8000000000000001#64 same)
     ∧ (op = 5 ∨ op = 6 → h.capacity ≠ 0 → ∀ v rest, h.entries = v :: rest →
         answers v (fun t => (t.part p).queues.getD q HwQueue.reset = { h with entries := rest }))
     ∧ (op = 5 → h.capacity ≠ 0 → h.entries = [] → answers 0x8000000000000000#64 same)
     ∧ (op = 6 → h.capacity ≠ 0 → h.entries = [] → s.carafeWaiters m.dst < 1024 → ∃ t, Runs (.carafeQueueOperation n) s t
         ∧ t.net = s.net.eraseIdx n ∧ (t.part p).queues.getD q HwQueue.reset = { h with waiters := h.waiters ++ [⟨m.src, m.slot, m.gen⟩] })
     ∧ (op = 7 → left = 0 → answers 0 same)
     ∧ (op = 7 → left ≠ 0 → answers (BitVec.ofNat 64 (size * 2 ^ 40 + ch.next))
         (fun t => (t.part p).chunks.getD q Chunk.reset = { ch with next := ch.next + size }))
     ∧ (op = 8 → answers (BitVec.ofNat 64 left) (fun t => (t.part p).chunks.getD q Chunk.reset =
         ⟨0, x.toNat % 2 ^ 40, max (x.toNat / 2 ^ 40 % 2 ^ 12) 1, max (x.toNat / 2 ^ 52) 1⟩)))

/-! ### Slot lending, generations, banks and parity -/

/-- 03_strands R89, R92, R95, R96, R97. Lending: with no FREE slot and none reserved, a ready codelet makes the lowest-numbered strand that
has been parked for 256 cc begin a SPILL of 40 cc; its end writes the owner's record to the spill area; FILL brings the owner back to RUN
from it, with its own posted table (log 47). A slot that owes a generation takes one with no response outstanding; a YIELD ends when its
time comes. 03_strands R90; 07_access R186; 15_system R417, R418, R419. A bank without use for 4,096 cc loses its power and its data, and a
bank whose power returns reads zero everywhere; a load or store that waited for it then completes. A parity error in a private register
contains the thread that reads it; one in the shared bank cancels what is in flight and has not committed, and contains every thread of
the core but the children it started. Which instructions are in flight is the model's choice of a step's place (log 6). -/
def Obligations.SlotsBanksAndParity : Prop :=
  (∀ (s : State) (c k : Nat), let x := s.core c
     let y := s.slot c k
     (∀ z, x.lend = true → x.halted = false → x.codeletWaits = true → x.anyFree (userSlots c) x.cycle = false → oldestReady x.staging = some z →
       s.claimInBudget c z.rcb = true → s.claimHeld c (.codelet z) = false → x.reservedSlot = none → k < 16 → x.lendable = some k →
       ∃ t, Runs (.slotLend c) s t ∧ (t.slot c k).st = .spill ∧ (t.slot c k).wait = .yield_ (x.cycle + 40) ∧ (t.slot c k).p = y.p ∧ (t.slot c k).pc = y.pc
         ∧ SameOtherSlots s t c k ∧ SameMemory s t ∧ t.net = s.net)
     ∧ (∀ j q, x.lendable = some j → (x.slot j).park = some q → q.kind = 1 ∧ q.since + 256 ≤ x.cycle ∧ (x.slot j).st = .parked ∧ j < 16
         ∧ (∀ i, i < j → ∀ q, (x.slot i).st = .parked → (x.slot i).spilled = none → (x.slot i).park = some q → q.kind = 1 → x.cycle < q.since + 256))

     ∧ (∀ due o, y.st = .spill → y.wait = .yield_ due → y.spilled = some o → k < 16 → isCore c = true → s.CanonicalMemory →
       s.isHeld (spillAddr c k) 1024 = false →
       (x.cycle < due → Runs (.spill c k) s s)
       ∧ (due ≤ x.cycle → oldestReady x.staging = none → ∃ t, Runs (.spill c k) s t
         ∧ (t.slot c k).st = (if o.woken then .fill else .reserved) ∧ SameOtherSlots s t c k
         ∧ t.readWords (scratchAddr c (0x7C000 + k * 0x400)) 16 = y.p.toList.drop 1 ++ [y.pc]
         ∧ t.readWord (scratchAddr c (0x7C000 + k * 0x400 + 0x340)) = y.rcbptr
         ∧ SameOutside s t (scratchAddr c (0x7C000 + k * 0x400)) 1024))
     ∧ (∀ due o, y.st = .fill → y.wait = .yield_ due → y.spilled = some o → s.isHeld (spillAddr c k) 1024 = false →
       (x.cycle < due → Runs (.fill c k) s s)
       ∧ (due ≤ x.cycle → ∃ t, Runs (.fill c k) s t ∧ (t.slot c k).st = .run ∧ (t.slot c k).gen = o.gen ∧ (t.slot c k).spilled = none
         ∧ (t.slot c k).pc = s.readWord (scratchAddr c (0x7C000 + k * 0x400 + 0x78)) &&& ~~~(1 : Word) ∧ (t.slot c k).posted = o.posted
         ∧ (∀ n : Fin 15, (t.slot c k).p[n.val + 1] = s.readWord (scratchAddr c (0x7C000 + k * 0x400 + 8 * n.val)))
         ∧ SameOtherSlots s t c k ∧ SameMemory s t ∧ t.net = s.net))
     ∧ (y.owes = true → (y.st = .contained ∨ y.st = .lost) → y.nextGen.isSome = true → ∃ t, Runs (.generationAdvance c k) s t
       ∧ (t.slot c k).gen < 16 ∧ (t.slot c k).gen ≠ y.gen % 16 ∧ y.outstanding (t.slot c k).gen = 0 ∧ (t.slot c k).owes = false
       ∧ { t.slot c k with gen := y.gen, owes := y.owes } = y ∧ SameOtherSlots s t c k ∧ SameMemory s t)
     ∧ (∀ due, y.st = .blocked → y.wait = .yield_ due →
       (x.cycle < due → Runs (.yieldIntervalEnd c k) s s)
       ∧ (due ≤ x.cycle → ∃ t, Runs (.yieldIntervalEnd c k) s t ∧ t.slot c k = { y with st := .run, wait := .none } ∧ SameOtherSlots s t c k
         ∧ SameMemory s t ∧ SameRegisters s t)))
  ∧ (∀ (s : State) (c k j : Nat),
     let x := s.core c
     let b := x.banks.getD j Bank.reset
     let contained := fun (y : Slot) => y.st = .contained ∧ y.p = Vector.replicate 16 0 ∧ y.vp = Vector.replicate 16 0
     (isCompute c = true → (s.bulkhead (bulkheadOf c)).bankpd = true → j < 16 → b.powered = true → s.bankInUse c j = false →
       (b.pinned = false → b.lastUse + 4096 ≤ x.cycle → ∃ t, Runs (.bankPowerDown c j) s t ∧ ((t.core c).banks.getD j Bank.reset).powered = false
         ∧ (∀ i, i ≠ j → (t.core c).banks.getD i Bank.reset = x.banks.getD i Bank.reset) ∧ SameRegisters s t
         ∧ (∀ i, i < 0x8000 → t.readByte (scratchAddr c (j * 0x8000) + i) = 0) ∧ SameOutside s t (scratchAddr c (j * 0x8000)) 0x8000)
       ∧ (b.pinned = true ∨ x.cycle < b.lastUse + 4096 → Runs (.bankPowerDown c j) s s))
     ∧ (∀ due, b.powered = false → b.upAt = some due → j < 16 → isCore c = true → (∀ i u a n v r, (s.slot c i).wait ≠ .bank u a n v r) →
       (x.cycle < due → Runs (.bankPowerUp c j) s s)
       ∧ (due ≤ x.cycle → ∃ t, Runs (.bankPowerUp c j) s t ∧ ((t.core c).banks.getD j Bank.reset).powered = true
         ∧ (∀ i, i < 0x8000 → t.readByte (scratchAddr c (j * 0x8000) + i) = 0) ∧ SameOutside s t (scratchAddr c (j * 0x8000)) 0x8000
         ∧ SameRegisters s t))
     ∧ (∀ u a n v r, (s.slot c k).st = .blocked → (s.slot c k).wait = .bank u a n v r → s.CheckerOff c k → s.isHeld a n = false → s.CanonicalMemory →
       let t := s.bankAccess c k
       let retired := (t.slot c k).st = .run ∧ (t.slot c k).pc = addOffset (s.slot c k).pc (BitVec.ofNat 64 r.len) ∧ SameOtherSlots s t c k
       (u = none → n ≤ 32 → retired ∧ (∀ i, i < n → t.readByte (a + i) = v.extractLsb' (8 * i) 8) ∧ SameOutside s t a n)
       ∧ (∀ d : Reg, u = some (.load d 8 false false) → n = 8 → d.toNat < 16 → s.isPoisoned a 8 = false →
           retired ∧ SameMemory s t ∧ readReg t c k d = (if d = 0 then 0 else s.readWord a)))
     ∧ ((s.slot c k).st = .run → (s.slot c k).readyAt ≤ x.cycle + 1 →
       (∃ t, Runs (.registerParityError c k) s t ∧ contained (t.slot c k) ∧ SameOtherSlots s t c k ∧ (t.core c).s = x.s ∧ SameMemory s t
         ∧ t.net.length + t.faultRecs.length = s.net.length + s.faultRecs.length + 1)
       ∧ (∃ t, Runs (.sharedBankParityError c k) s t ∧ (t.core c).s = Vector.replicate 16 0 ∧ (t.core c).vs = Vector.replicate 16 0
         ∧ (t.core c).stale = []
         ∧ (∀ i, i < 16 → (s.slot c i).st = .free ∨ (s.slot c i).st = .reserved ∨ contained (t.slot c i)
             ∨ ∃ e ∈ x.flight, e.committed = false ∧ e.child = some i)
         ∧ (∀ l ∈ (t.core c).landing, ∀ e ∈ x.flight, l.slot = e.slot → l.issued = e.issued → e.committed = true ∨ e.issued + 2 < x.cycle)
         ∧ SameMemory s t)))

/-! ### Engine commands and futures -/

/-- 12_engines R315, R316, R322, R326, R327, R328, R339. A copy, a PUBLISH or a PUSHT that passes its checks takes the lowest FREE completion
entry (the lowest: log 16) and retires: the handle register holds a handle with the entry's advanced TAG and is pending, the entry is
ATTACHED, and the command waits: a copy for its merge window, a PUBLISH for its header, a push at once. 12_engines R327, R328, R330. HTST,
HWAIT, HDET and HCAN: on a pending register HTST answers RUNNING; a status passes through, and HCAN answers 2 for it; a token of this core
answers its entry's status and frees it, RUNNING while its command runs (HTST), or STALE when its TAG has moved on; HDET on an attached
handle detaches its entry and puts the token in a and in d; anything else gives STALE. 12_engines R331, R332. HCAN on an attached handle ends
its command and frees its entry: d receives 0 for one that is not started and 1 for one that is, and 2, with nothing cancelled, for a collective
or a command that is complete. -/
def Obligations.EngineCommandsAndFutures : Prop :=
  (∀ (s : State) (d a b : Reg) (e pa : Nat), s.CheckerOff s.curCore s.curSlot → (s.core s.curCore).freeEntry = some e →
     (s.cluster (clusterOf s.curCore)).faults = [] → (∀ q ∈ s.engine, ∀ due, q.2.phase ≠ .window due) →
     let c := s.curCore
     let k := s.curSlot
     let base := s.reg a
     let tag := ((s.core c).entryAt e).tag + 1
     let accepts := fun (i : Instr) (kind : Nat) (q : EngCmd → Member → Prop) => ∃ t cmd m, Runs i s t ∧ t.engine = s.engine.put s.nextCmd cmd
       ∧ cmd.kind = kind ∧ cmd.members = [m] ∧ m.core = c ∧ m.slot = k ∧ m.gen = s.cur.gen ∧ m.entry = e ∧ m.cancelled = false ∧ q cmd m
       ∧ lastReg t c k d = (if d = 0 then 0 else BitVec.ofNat 64 (3 * 2 ^ 62 + tag.toNat * 2 ^ 40 + kind * 2 ^ 36 + e % 64))
       ∧ lastPending t c k (.scalar d) = (d != 0) ∧ (t.core c).entryAt e = ⟨tag, .attached k s.cur.gen d⟩
       ∧ (t.slot c k).outstanding s.cur.gen = s.cur.outstanding s.cur.gen + 1 ∧ Advanced s t c k 4 ∧ SameMemory s t ∧ t.net = s.net
     let copies := fun (i : Instr) (form first bytes : Nat) =>
       let ws := s.readWords pa (bytes / 8)
       let q := copyDesc form ws
       s.checkOwn c k base 8 first [rightR] 0x21 = .ok pa → s.checkOwn c k base 8 bytes [rightR] 0x21 = .ok pa → s.isHeld pa first = false →
       s.isHeld pa bytes = false → copyFormatOk form ws = true → q.sbuf = false → q.dbuf = false → s.firstRangeFault q.ranges = none →
       s.copyPlaceFault q = none → (∀ z ∈ q.ranges, ∀ cls va, s.gaTarget c (s.partOf c k) (s.cur.segGa z.1) 1 ≠ .mem cls va) →
       accepts i 0 (fun cmd m => cmd.phase = .window ((s.core c).cycle + 8 + bf (s.core c).mrgwin 5 0)
         ∧ m.rows = q.offsets.map (fun o => ⟨s.cur.segGa (q.rowSrc o), s.cur.segGa (q.rowDst o), q.len⟩))
     (s.Ready (scalars [d, a]) →
       copies (.cpy d a) 0 32 32 ∧ copies (.cpyg d a) 1 48 48
       ∧ ((s.readWord (pa + 32)).toNat % 32 ≤ 24 → copies (.cpys d a) 2 40 (40 + 8 * ((s.readWord (pa + 32)).toNat % 32)))
       ∧ (∀ off, let ws := s.readWords pa 4
           let len := bf (ws.getD 1 0) 31 0
           s.checkOwn c k base 8 32 [rightR] 0x21 = .ok pa → s.isHeld pa 32 = false → pushFormatOk ws = true →
           s.engineRange (ws.getD 0 0) len rightR = .ok (.self off) → off + len ≤ scratchSize c → bf (ws.getD 2 0) 18 0 + len ≤ 0x80000 →
           s.pushFault (s.partOf c k) ws = none →
           accepts (.pusht d a) 3 (fun cmd m => cmd.phase = .window (s.core c).cycle
             ∧ m.stretches = (pushCores (ws.getD 3 0)).map (fun v => ⟨.at_ (scratchAddr c off), .virt v (bf (ws.getD 2 0) 18 0), .at_ 0, len⟩))))
     ∧ (s.Ready (scalars [d, a, b]) → ∀ tgt l, (b ≠ 0 → (s.reg b).toNat % 2 ^ 32 ≠ 0) → s.engineRange base 64 rightW = .ok tgt →
         (s.cur.segGa base).toNat / 2 ^ 60 = 1 → (s.cur.segGa base).toNat % 256 = 0 →
         s.scanGranules c k (s.granules (s.partOf c k) c (s.cur.segGa base) 64 4) [] = .pages l → l.length ≤ 64 →
         accepts (.publish d a b) 1 (fun cmd _ => cmd.phase = .header ∧ cmd.hga = s.cur.segGa base
           ∧ cmd.desc = [BitVec.ofNat 64 (if b = 0 then 0 else 1), BitVec.ofNat 64 ((s.reg b).toNat % 2 ^ 32)])))
  ∧ (∀ (s : State) (d a : Reg), s.Ready (scalars [d]) → s.CheckerOff s.curCore s.curSlot → s.cur.st = .run →
     let c := s.curCore
     let k := s.curSlot
     let v := s.reg a
     let e := v.toNat % 64
     let q := (s.core c).entryAt e
     let stale := 0x4000000000000000#64
     let gives := fun (i : Instr) (w : Word) (p : State → Prop) => ∃ t, Runs i s t ∧ lastReg t c k d = (if d = 0 then 0 else w) ∧ Advanced s t c k 4
       ∧ SameMemory s t ∧ t.net = s.net ∧ p t
     let same := fun (t : State) => (t.core c).comp = (s.core c).comp
     let token := bf v 63 62 = 1 ∧ v ≠ stale
     let here := s.isOwnPkg (bf v 61 50) = true ∧ bf v 46 32 = s.virtual (s.partOf c k) c
     (s.anyPending (scalars [a]) = true → d ≠ a → gives (.htst d a) 0x8000000000000000#64 same)
     ∧ (s.anyPending (scalars [a]) = true → d ≠ a → s.attachedEntry a = some e →
         let cancels := fun (w : Word) (p : State → Prop) => ∃ t, Runs (.hcan d a) s t ∧ lastReg t c k d = (if d = 0 then 0 else w) ∧ Advanced s t c k 4
           ∧ (t.core c).entryAt e = ⟨q.tag, .free⟩ ∧ p t
         let queued := (s.core c).press.queue.any (fun p => p.entry == e)
         (queued = true → cancels 0 (fun t => (t.core c).press.queue = (s.core c).press.queue.filter (fun p => p.entry != e)))
         ∧ (queued = false → ∀ id cmd m, s.commandOf c e = some (id, cmd) → cmd.kind ≠ 5 → cmd.phase ≠ .complete → cmd.member c e = some m →
             cancels (if cmd.started m then 1 else 0) (fun t => ∀ g, t.engine.find id = some g → g.member c e = none))
         ∧ (queued = false → (s.commandOf c e = none ∨ ∃ id cmd, s.commandOf c e = some (id, cmd) ∧ (cmd.kind = 5 ∨ cmd.phase = .complete)) →
             gives (.hcan d a) 2 same))
     ∧ (s.anyPending (scalars [a]) = true → d ≠ a → s.attachedEntry a = some e →
         let tok := BitVec.ofNat 64 (2 ^ 62 + s.pkgNo % 2 ^ 12 * 2 ^ 50 + s.virtual (s.partOf c k) c % 2 ^ 15 * 2 ^ 32 + q.tag.toNat * 2 ^ 16 + e)
         gives (.hdet d a) tok (fun t => lastReg t c k a = tok ∧ lastPending t c k (.scalar a) = false ∧ (t.core c).entryAt e = ⟨q.tag, .running⟩))
     ∧ (s.anyPending (scalars [a]) = false →
       (v.toNat < 2 ^ 14 → gives (.htst d a) v same ∧ gives (.hwait d a) v same ∧ gives (.hdet d a) v same ∧ gives (.hcan d a) 2 same)
       ∧ (¬ token → 2 ^ 14 ≤ v.toNat → gives (.htst d a) stale same ∧ gives (.hwait d a) stale same ∧ gives (.hdet d a) stale same
           ∧ gives (.hcan d a) stale same)
       ∧ (token → here → q.tag.toNat ≠ bf v 31 16 → gives (.htst d a) stale same ∧ gives (.hwait d a) stale same ∧ gives (.hcan d a) stale same)
       ∧ (token → here → q.tag.toNat = bf v 31 16 → ∀ w, q.st = .finished w →
           gives (.htst d a) w (fun t => (t.core c).entryAt e = ⟨q.tag, .free⟩) ∧ gives (.hwait d a) w (fun t => (t.core c).entryAt e = ⟨q.tag, .free⟩)
           ∧ gives (.hcan d a) 2 (fun t => (t.core c).entryAt e = ⟨q.tag, .free⟩))
       ∧ (token → here → q.tag.toNat = bf v 31 16 → q.st = .running → gives (.htst d a) 0x8000000000000000#64 same
           ∧ ((s.core c).waiters.length < 64 → ∃ t, Runs (.hwait d a) s t ∧ (t.slot c k).st = .blocked
             ∧ (t.core c).waiters = (s.core c).waiters ++ [⟨.entry e (bf v 31 16), c, k, s.cur.gen⟩]))
       ∧ (token → gives (.hdet d a) v same)))

/-- 12_engines R319, R321, R322, R324, R326. A command goes on step by step: its window ends and it asks for the entry of its first
destination core, or moves at once when it writes no scratchpad; once the channel has served the access to a buffer's header, a reader samples
FRONT and is counted; the oldest request of a core is granted when no active entry overlaps it and no access to its bytes has begun (what counts as begun:
log 57); a PUBLISH
waits for the writers, then flips FRONT and advances VERSION, or formats a header that nobody uses. 12_engines R319, R320, R325, R329, R330, R340;
11_press R298. A piece that no entry but the command's own holds (log 20) copies its bytes to its destination and no others, once its place in HBM4E
has been served, and the last one completes the
command; the status of a complete command reaches its handle register, no longer pending, and frees the entry; a token query is answered at the
entry's core. -/
def Obligations.EngineCommandsMoveAndComplete : Prop :=
  (∀ (s : State) (id : Nat) (cmd : EngCmd) (m : Member) (rest : List Member), s.engine.find id = some cmd → cmd.live = m :: rest → s.CanonicalMemory →
     let tgt := fun (t : State) (ph : Phase) => ∃ g, t.engine.find id = some g ∧ g.phase = ph ∧ g.members = cmd.members
     let served := fun (pa : Nat) => addrClass pa = 1 ∧ ∃ due, due ≤ (s.core (homeOf pa)).cycle
       ∧ ((s.channel (homeOf pa)).bank (hbmBank pa)).serving = some (⟨m.core, pa, .engine id⟩, due)
     (∀ due, cmd.phase = .window due → cmd.kind ≠ 4 →
       ((s.core m.core).cycle < due → Runs (.mergeWindowEnd id) s s)
       ∧ (due ≤ (s.core m.core).cycle → s.mapped cmd = true → cmd.sbuf = false → cmd.dbuf = false →
           (s.commandCores cmd = [] → ∃ t, Runs (.mergeWindowEnd id) s t ∧ tgt t (.moving 0) ∧ SameMemory s t ∧ SameRegisters s t)
           ∧ (∀ h left, s.commandCores cmd = h :: left → s.answers m.part m.core h = true → ∃ t, Runs (.mergeWindowEnd id) s t ∧ tgt t (.grant (h :: left))
               ∧ (t.core h).sbWait = (s.core h).sbWait ++ [⟨(s.core h).nextSpan, (s.commandSpan cmd h).1, (s.commandSpan cmd h).2, .engine id⟩]
               ∧ SameMemory s t ∧ SameRegisters s t)))
     ∧ (∀ pa, cmd.phase = .header → cmd.header = .at_ pa → s.answers m.part m.core (homeOf pa) = true →
       s.engineWaits m.core (homeOf pa) = false → (∀ i, i < 24 → s.rowRetired (pa + i) = false) → s.headerHeld cmd pa = false →
       (addrClass pa = 1 → ((s.channel (homeOf pa)).bank (hbmBank pa)).serving = none →
         (s.channel (homeOf pa)).waiting.contains ⟨m.core, pa, .engine id⟩ = false →
         Runs (.bufferHeaderAccess id) s (s.queueAccess ⟨m.core, pa, .engine id⟩)) ∧
       (served pa →
       (cmd.kind = 1 → cmd.desc.getD 0 0 = 0 → ∃ t, Runs (.bufferHeaderAccess id) s t ∧ tgt t (.publishing s.tick) ∧ SameMemory s t)
       ∧ (cmd.kind = 1 → cmd.desc.getD 0 0 ≠ 0 → bf (s.readWord (pa + 16)) 47 0 = 0 → ∃ t, Runs (.bufferHeaderAccess id) s t ∧ tgt t .complete
           ∧ t.readWords pa 3 = [0, BitVec.ofNat 64 ((cmd.desc.getD 1 0).toNat % 2 ^ 32 * 256), 0] ∧ SameOutside s t pa 24)
       ∧ (cmd.kind ≠ 1 → (s.readWord (pa + 8)).toNat % 2 ^ 40 ≠ 256 * cmd.units → ∃ t, Runs (.bufferHeaderAccess id) s t ∧ tgt t .complete ∧ SameMemory s t)
       ∧ (cmd.kind ≠ 1 → (s.readWord (pa + 8)).toNat % 2 ^ 40 = 256 * cmd.units → cmd.sbuf = true → cmd.dbuf = false → s.commandCores cmd = [] →
           ∃ t g, Runs (.bufferHeaderAccess id) s t ∧ t.engine.find id = some g ∧ g.phase = .moving 0 ∧ g.front = (s.readWord pa).toNat % 2
             ∧ (if g.front = 0 then bf (t.readWord (pa + 16)) 15 0 = (bf (s.readWord (pa + 16)) 15 0 + 1) % 2 ^ 16
                else bf (t.readWord (pa + 16)) 31 16 = (bf (s.readWord (pa + 16)) 31 16 + 1) % 2 ^ 16)
             ∧ SameOutside s t (pa + 16) 8)))
     ∧ (∀ pa n, cmd.phase = .publishing n → cmd.header = .at_ pa → s.rowRetired pa = false →
       (bf (s.readWord (pa + 16)) 47 32 ≠ 0 → Runs (.publishFlip id) s s)
       ∧ (s.publishWaits pa n = true → Runs (.publishFlip id) s s)
       ∧ (bf (s.readWord (pa + 16)) 47 32 = 0 → s.publishWaits pa n = false → served pa → ∃ t, Runs (.publishFlip id) s t ∧ tgt t .complete
           ∧ bf (t.readWord pa) 0 0 = 1 - bf (s.readWord pa) 0 0 ∧ bf (t.readWord pa) 63 32 = (bf (s.readWord pa) 63 32 + 1) % 2 ^ 32
           ∧ SameOutside s t pa 8))
     ∧ (∀ h z zs, (s.core h).sbWait = z :: zs →
       ((s.core h).canGrant z.lo z.hi = false ∨ s.midAccess h z.lo z.hi = true ∨ s.isStopped h = true ∨ s.spanWaits h z = true →
         Runs (.scoreboardGrant h) s s)
       ∧ ((s.core h).canGrant z.lo z.hi = true → s.midAccess h z.lo z.hi = false → s.isStopped h = false → z.owner = .press → ∃ t, Runs (.scoreboardGrant h) s t ∧ (t.core h).sb = (s.core h).sb ++ [z]
           ∧ (t.core h).sbWait = zs ∧ SameMemory s t ∧ SameRegisters s t)
       ∧ ((s.core h).canGrant z.lo z.hi = true → s.midAccess h z.lo z.hi = false → s.isStopped h = false → z.owner = .engine id →
           s.mapped cmd = true → s.engineWaits m.core h = false → cmd.phase = .grant [h] → ∃ t g, Runs (.scoreboardGrant h) s t
           ∧ (t.core h).sb = (s.core h).sb ++ [z] ∧ (t.core h).sbWait = zs ∧ t.engine.find id = some g ∧ g.phase = .moving 0
           ∧ g.members = cmd.members.map (fun m => if (s.memberCores m).contains h then { m with granted := true } else m)
           ∧ SameMemory s t ∧ SameRegisters s t)))
  ∧ (∀ (s s1 : State) (id n : Nat) (cmd : EngCmd) (msg : Msg),
     (∀ j len a b mem rest, s.engine.find id = some cmd → s.CanonicalMemory → cmd.live = mem :: rest → cmd.phase = .moving j →
       cmd.piece j = some (.at_ a, len, [⟨mem, .at_ b, 0, len⟩]) → s.answers mem.part mem.core (homeOf a) = true →
       s.answers mem.part mem.core (homeOf b) = true → s.engineWaits mem.core (homeOf a) = false → s.engineWaits mem.core (homeOf b) = false →
       s.pieceHeld (fun o => o == .engine id) a len = false → s.pieceHeld (fun o => o == .engine id) b len = false → s.isPoisoned a len = false →
       len ≤ 8 → cmd.sbuf = false → cmd.dbuf = false → cmd.buf = none →
       let served := ∃ due, due ≤ (s.core (homeOf a)).cycle
         ∧ ((s.channel (homeOf a)).bank (hbmBank a)).serving = some (⟨mem.core, a, .engine id⟩, due)
       (addrClass a = 1 → ((s.channel (homeOf a)).bank (hbmBank a)).serving = none →
         (s.channel (homeOf a)).waiting.contains ⟨mem.core, a, .engine id⟩ = false →
         Runs (.copyPiece id) s (s.queueAccess ⟨mem.core, a, .engine id⟩)) ∧
       (addrClass a ≠ 1 ∨ served → addrClass b ≠ 1 → ∃ t g, Runs (.copyPiece id) s t ∧ (∀ i, i < len → t.readByte (b + i) = s.readByte (a + i)) ∧ SameOutside s t b len
         ∧ t.engine.find id = some g ∧ g.code = cmd.code
         ∧ g.phase = (if (cmd.piece (j + len)).isNone then .complete else .moving (j + len))))
     ∧ (∀ mem k gen d, s.engine.find id = some cmd → cmd.phase = .complete → cmd.inbound = none → cmd.live = [mem] →
       ((s.core mem.core).entryAt mem.entry).st = .attached k gen d → (s.slot mem.core k).accepts gen = true →
       d.toNat < 16 ∨ (s.core mem.core).outranked k (.scalar d) = false →
       ∃ t, Runs (.engineCompletion id) s t ∧ readReg t mem.core k d = (if d = 0 then 0 else BitVec.ofNat 64 (cmd.code % 256 + cmd.flags.toNat * 256))
         ∧ isPending t mem.core k (.scalar d) = false ∧ ((t.core mem.core).entryAt mem.entry).st = .free
         ∧ t.engine = s.engine.erase id ∧ SameMemory s t)
     ∧ (∀ op tag e, s.pick n = some (msg, s1) → msg.body = .query op tag e → s.isAbsent msg = false → msg.src < 32768 → msg.post = none →
       let q := (s.core msg.dst).entryAt e
       let answers := fun (v : Word) (st : EntryState) => ∃ t, Runs (.tokenQuery n) s t ∧ ((t.core msg.dst).entryAt e) = ⟨q.tag, st⟩ ∧ SameMemory s t
         ∧ t.net = s.net.eraseIdx n ++ [{ msg with src := msg.dst, dst := msg.src, held := none, body := .dataReply .done (v.setWidth 256) 0 }]
       (q.tag.toNat ≠ tag → answers 0x4000000000000000#64 q.st)
       ∧ (q.tag.toNat = tag → op = 4 → q.st = .running → answers 0x8000000000000000#64 .running)
       ∧ (q.tag.toNat = tag → op ≠ 7 → ∀ v, q.st = .finished v → (s.core msg.dst).collDone.contains e = false → answers v .free)
       ∧ (q.tag.toNat = tag → op = 5 → q.st = .running → (s.core msg.dst).waiters.length < 64 → ∃ t, Runs (.tokenQuery n) s t
           ∧ (t.core msg.dst).waiters = (s.core msg.dst).waiters ++ [⟨.entry e tag, msg.src, msg.slot, msg.gen⟩] ∧ t.net = s.net.eraseIdx n)))

/-! ### The press -/

/-- 11_press R294, R295, R297, R298, R299, R300, R301, R302, R305. Press instructions whose checks pass join the core's press queue, with
their physical operand addresses, and give a handle. MMAG moves its operand addresses by its core's place in the group, as R295 computes
it; outside its group it reads nothing and joins the queue all the same. MXST is bound to the current bank and counts a stochastic
conversion; MXEPI's descriptor fills the idle bank at its WB and makes it current. 11_press R306, R307, R308. Each operand of the head is
fetched piece by piece in its source's order, a piece that nothing holds in a step; a fetch takes a tile that another core of the cluster
is reading, where R307 allows it; a core that is halted or whose clock stands fetches nothing; the arbiter starts one ready head when the
press is idle, keeping to its core while PXW allows. 11_press R289, R290, R291, R292, R298, R300, R301, R303, R304, R309, R311. MXZERO
clears its tile and mark; MXLDA loads its tile's 1,024 words; an MMA adds to every valid element its groups' exact sums, of I8 modulo
2^32, of the floating-point formats with one rounding each; MXST writes every valid element through the epilogue, keeps the others, and
clears the tile under CLR; poison marks the tile, or the bytes that MXST writes, with CODE 3; a command outside its group changes nothing,
with CODE 4; the status reaches the handle register. That a command takes effect in the step that starts it is the model's choice (log 58). -/
def Obligations.PressQueueAndExecution : Prop :=
  (∀ (s : State) (f : BitVec 3) (n : BitVec 2) (d a b : Reg) (e : Nat), s.CheckerOff s.curCore s.curSlot →
     let c := s.curCore
     let k := s.curSlot
     let x := s.core c
     let bank := if x.press.current = 0 then x.press.bank0 else x.press.bank1
     let v := s.virtual (s.partOf c k) c
     let geom := s.cur.geom.toNat
     let full := fun (lo : Nat) => if geom / 2 ^ lo % 32 = 0 then 32 else geom / 2 ^ lo % 32
     let rem := fun (lo : Nat) => if 1 ≤ geom / 2 ^ lo % 64 ∧ geom / 2 ^ lo % 64 ≤ 32 then geom / 2 ^ lo % 64 else 32
     let ti : Int := (rowOf v : Int) - (geom % 32 : Nat)
     let tj : Int := (colOf v : Int) - (geom / 2 ^ 5 % 32 : Nat)
     let here : Bool × Nat × Nat × Int × Int := (decide (0 ≤ ti ∧ ti < full 10 ∧ 0 ≤ tj ∧ tj < full 15),
       if ti = (full 10 : Int) - 1 then rem 20 else 32, if tj = (full 15 : Int) - 1 then rem 26 else 32,
       ti * (geom / 2 ^ 32 % 2 ^ 13 : Nat) * 64, tj * (geom / 2 ^ 45 % 2 ^ 13 : Nat) * 64)
     let tileGa := fun (w : Word) (delta : Int) => s.cur.segGa ((w &&& ~~~63#64) + BitVec.ofInt 64 delta)
     let g : Bool × Nat × Nat × Int × Int := if (bank.getD 0 0).getLsbD 12 then here else (true, 32, 32, 0, 0)
     let tag := (x.entryAt e).tag + 1
     let joins := fun (i : Instr) (r : Reg) (fn tile : Nat) (cvt : Word) (q : PressCmd → Prop) => ∃ t p, Runs i s t
       ∧ (t.core c).press.queue = x.press.queue ++ [p] ∧ p.fn = fn ∧ p.tile = tile ∧ p.entry = e ∧ p.slot = k ∧ p.gen = s.cur.gen ∧ q p
       ∧ lastReg t c k r = (if r = 0 then 0 else BitVec.ofNat 64 (3 * 2 ^ 62 + tag.toNat * 2 ^ 40 + 2 * 2 ^ 36 + e % 64))
       ∧ lastPending t c k (.scalar r) = (r != 0) ∧ (t.core c).entryAt e = ⟨tag, .attached k s.cur.gen r⟩ ∧ (t.core c).press.acc = x.press.acc
       ∧ (t.slot c k).cvtcnt = cvt ∧ Advanced s t c k 4 ∧ SameMemory s t ∧ t.net = s.net
     let room := x.press.queue.length < 8 ∧ x.freeEntry = some e
     (room → s.Ready (scalars [a, b]) →
       (∀ pa pb, s.operand f.toNat (s.reg a) 0 32 = .ok pa → s.operand f.toNat (s.reg b) 0 32 = .ok pb →
         joins (.mma f n a b) b 0 n.toNat s.cur.cvtcnt (fun p => p.fmt = f.toNat ∧ p.aAddr = pa ∧ p.bAddr = pb ∧ p.aScale = (s.reg a).getLsbD 0
           ∧ p.bScale = (s.reg b).getLsbD 0 ∧ p.mrows = 32 ∧ p.ncols = 32 ∧ p.inside = true))
       ∧ (∀ pa pb, here.1 = true → s.operand f.toNat (s.reg a) here.2.2.2.1 here.2.1 = .ok pa →
           s.operand f.toNat (s.reg b) here.2.2.2.2 here.2.2.1 = .ok pb →
         joins (.mmag f n a b) b 1 n.toNat s.cur.cvtcnt (fun p => p.fmt = f.toNat ∧ p.aAddr = pa ∧ p.bAddr = pb ∧ p.mrows = here.2.1
           ∧ p.ncols = here.2.2.1 ∧ p.aGa = tileGa (s.reg a) here.2.2.2.1 ∧ p.bGa = tileGa (s.reg b) here.2.2.2.2 ∧ p.inside = true))
       ∧ (∀ (w : Word) (delta : Int) (rows pa : Nat), s.operand f.toNat w delta rows = .ok pa → ∀ off,
           let t := s.gaTarget c (s.partOf c k) (tileGa w delta) (operandBytes f.toNat (w.getLsbD 0) rows)
           (t = .self off → pa = scratchAddr c off) ∧ (∀ h, t = .scratch h off → pa = scratchAddr h off ∧ clusterOf h = clusterOf c))
       ∧ (here.1 = false → operandFormatOk f.toNat (s.reg a) = true → operandFormatOk f.toNat (s.reg b) = true →
         joins (.mmag f n a b) b 1 n.toNat s.cur.cvtcnt (fun p => p.inside = false)))
     ∧ (room → s.Ready (scalars [d]) → joins (.mxzero d b) d 2 b.toNat s.cur.cvtcnt (fun _ => True))
     ∧ (room → s.Ready (scalars [d, a]) → (s.reg a).toNat % 64 = 0 →
       (∀ pa, s.pressRange (s.reg a) 4096 = .ok pa → joins (.mxlda d a b) d 3 b.toNat s.cur.cvtcnt (fun p => p.aAddr = pa))
       ∧ (∀ pa, s.pressRange (s.reg a) (outBytes (bf (bank.getD 0 0) 3 0)) = .ok pa →
           joins (.mxst d a b) d 4 b.toNat (if bf (bank.getD 0 0) 7 4 = 4 ∨ bf (bank.getD 0 0) 7 4 = 6 then s.cur.cvtcnt + 1 else s.cur.cvtcnt)
             (fun p => p.aAddr = pa ∧ p.inside = g.1 ∧ p.mrows = g.2.1 ∧ p.ncols = g.2.2.1 ∧ p.bank = x.press.current)))
     ∧ (∀ pa, s.Ready (scalars [a]) → s.checkOwn c k (s.reg a) 32 160 [rightR] 0x21 = .ok pa → s.isHeld pa 160 = false →
         s.bankBusy c (1 - x.press.current) = false → x.reloading = false → epilogueOk (s.readWords pa 20) = true →
         ∃ t, Runs (.mxepi a) s t ∧ (t.core c).landing = x.landing ++ [⟨x.cycle, k, x.cycle + 4, .epilogue (s.readWords pa 20)⟩]
           ∧ (t.core c).press = x.press ∧ x.cycle + 12 ≤ (t.slot c k).readyAt ∧ Advanced s t c k 4 ∧ SameMemory s t ∧ t.net = s.net)
     ∧ (∀ i due ws, x.press.current ≤ 1 →
         let t := s.writeBack c ⟨i, k, due, .epilogue ws⟩
         (t.core c).press = (if x.press.current = 0 then { x.press with bank1 := ws, current := 1 } else { x.press with bank0 := ws, current := 0 })
         ∧ SameMemory s t ∧ SameRegisters s t ∧ t.net = s.net))
  ∧ (∀ (s : State) (cl c : Nat) (p : PressCmd) (rest : List PressCmd),
     let u := s.cluster cl
     let fetch := fun (t : State) (op : Nat) => (t.cluster (clusterOf c)).fetchOf (posOf c) p op
     ((s.core c).press.queue = p :: rest → s.pressRuns c = false → Runs (.pressFetch c) s s)
     ∧ ((s.core c).press.queue = p :: rest → p.fn ≠ 4 → s.pressRuns c = true →
       Runs (.pressFetch c) s (p.operands.foldl (fun q z => q.fetchOperand c p z) s))
     ∧ (∀ z : Nat × Word × Bool × Nat × Nat,
       let f0 : TileFetch := ⟨posOf c, p.entry, z.1, z.2.1, p.fmt, z.2.2.1, z.2.2.2.1, z.2.2.2.2, s.tick, 0, [], false, true, false⟩
       let serves := (s.cluster (clusterOf c)).fetches.any (fun h => h.serves f0 (s.pressAcquire c p))
       let t := s.fetchOperand c p z
       let goes := fun (f : TileFetch) => fetch t z.1 = some f ∧ (t.core c).press = (s.core c).press ∧ SameMemory s t ∧ SameRegisters s t
       (fetch s z.1 = none → serves = false → goes f0)
       ∧ (fetch s z.1 = none → serves = true → s.isHeld f0.base f0.size = false → goes { s.readTile f0 with joined := true })
       ∧ (∀ f, fetch s z.1 = some f → f.joined = true ∨ (s.cluster (clusterOf c)).turnOf f = false → t = s)
       ∧ (∀ f off len, fetch s z.1 = some f → f.joined = false → (s.cluster (clusterOf c)).turnOf f = true →
           (fetchPieces f.fmt f.scaled f.rows)[f.next]? = some (off, len) → s.isAbsent (s.operandPacket c (f.base + off) len) = false →
           (s.isHeld (f.base + off) len = true → goes f)
           ∧ (s.isHeld (f.base + off) len = false → goes (f.take off (s.readBytes (f.base + off) len) (s.isPoisoned (f.base + off) len)))))
     ∧ (∀ r, u.running = some r → Runs (.pressStart cl) s s)
     ∧ (s.pressReady (clusterCore cl u.arbPos) = true → u.arbCount < bf (s.core (clusterCore cl u.arbPos)).pxw 3 0 →
         s.arbitrate cl = some (u.arbPos, u.arbCount + 1))
     ∧ (∀ j count, u.running = none → s.arbitrate cl = some (j, count) → c = clusterCore cl j → (s.core c).press.queue = p :: rest → p.tile < 4 →
       let old := (s.core c).press.acc
       let marked := (s.core c).press.marks.getLsbD p.tile
       let word := fun (i : Nat) => old[tileIx p.tile].getD i 0
       let tile := fun (t : State) (i : Nat) => ((t.core c).press.acc[tileIx p.tile].getD i 0)
       let starts := fun (t : State) (mk : Bool) (code : Nat) => Runs (.pressStart cl) s t ∧ (t.core c).press.queue = rest ∧ (t.cluster cl).arbPos = j
         ∧ (t.cluster cl).arbCount = count ∧ (t.core c).press.marks.getLsbD p.tile = mk ∧ (∀ q, q ≠ tileIx p.tile → (t.core c).press.acc[q] = old[q])
         ∧ ∃ r, (t.cluster cl).running = some r ∧ r.pos = j ∧ r.cmd = p ∧ r.status.toNat % 256 = code
       let runs := fun (t : State) (mk : Bool) (code : Nat) => starts t mk code ∧ SameMemory s t
       (p.fn = 2 → ∃ t, runs t false 0 ∧ ∀ i, tile t i = 0)
       ∧ (p.fn ≤ 1 → p.inside = false → ∃ t, runs t marked 4 ∧ ∀ i, tile t i = word i)
       ∧ (∀ fa, p.fn = 3 → fetch s 0 = some fa → fa.bad = false →
           ∃ t, runs t false 0 ∧ ∀ i n, i < 1024 → n < 4 → (tile t i).extractLsb' (8 * n) 8 = fa.bytes.getD (4 * i + n) 0)
       ∧ (∀ fa, p.fn = 3 → fetch s 0 = some fa → fa.bad = true → ∃ t, runs t true 3 ∧ ∀ i, tile t i = word i)
       ∧ (∀ fa fb, p.fn ≤ 1 → p.inside = true → fetch s 0 = some fa → fetch s 1 = some fb →
           (fa.bad = true ∨ fb.bad = true ∨ marked = true → ∃ t, runs t true 3 ∧ ∀ i, tile t i = word i)
           ∧ (fa.bad = false → fb.bad = false → marked = false → p.fmt < 7 → ∃ t, runs t false 0 ∧ ∀ m n, m < 32 → n < 32 →
             let x := word (32 * m + n)
             let product := fun (k : Nat) => (operandValue p.fmt p.aScale fa.bytes m k).mul (operandValue p.fmt p.bScale fb.bytes n k)
             let group := fun (g : Nat) => groupSum ((List.range (min 16 (pressK p.fmt - 16 * g))).map (fun i => product (16 * g + i))) false
             tile t (32 * m + n) =
               if p.mrows ≤ m ∨ p.ncols ≤ n then x
               else if p.fmt = 5 then x + BitVec.ofInt 32 (((List.range 64).map (fun k =>
                 (fa.bytes.getD (64 * m + k) 0).toInt * (fb.bytes.getD (64 * n + k) 0).toInt)).sum)
               else BitVec.ofNat 32 ((List.range ((pressK p.fmt + 15) / 16)).foldl (fun z g => (accumulate z (group g)).1) x.toNat)))
       ∧ (p.fn = 4 → s.CanonicalMemory → p.mrows ≤ 32 → addrClass (p.aAddr + 4096) = 0 →
         let bank := if p.bank = 0 then (s.core c).press.bank0 else (s.core c).press.bank1
         let ctl := (bank.getD 0 0).toNat
         let w := laneWidth (ctl % 16)
         let out := fun (m n : Nat) =>
           let x := (word (32 * m + n)).toNat
           if ctl.testBit 11 = true ∧ ctl % 16 = 4 ∧ ctl / 2 ^ 8 % 4 = 0 ∧ ctl.testBit 10 = false then x
           else
             let t0 := if ctl.testBit 11 then (fp32.ofNum .rne false (Num.ofInt (BitVec.ofNat 32 x).toInt)).1 else x
             let t1 := (fp32.mul .rne t0 ((bank.getD 1 0).toNat % 2 ^ 32)).1
             let t2 := if ctl.testBit 10 then (fp32.add .rne t1 ((bank.getD (2 + n / 2) 0).toNat / 2 ^ (32 * (n % 2)) % 2 ^ 32)).1 else t1
             let t3 := if ctl / 2 ^ 8 % 4 = 1 then
                 (match fp32.value t2 with | .nan _ => fp32.canon | .inf neg => if neg then 0 else t2 | .fin neg y _ => if neg || y == 0 then 0 else t2)
               else t2
             let r := conversionRounding (ctl / 2 ^ 4 % 16) (mix (stochasticBase p.seed p.vtid p.cvt ^^^ BitVec.ofNat 64 (32 * m + n)))
             if ctl % 16 = 12 then (fp32.ofNum r.1 r.2 (fp32.value t3)).1 else (convertElement 12 (ctl % 16) r.1 r.2 t3).1
         let cleared := fun (t : State) => if ctl.testBit 13 then ∀ i, tile t i = 0 else ∀ i, tile t i = word i
         (p.inside = false → ∃ t, runs t marked 4 ∧ ∀ i, tile t i = word i)
         ∧ (p.inside = true → marked = false → epilogueOk bank = true → ∃ t, starts t false 0 ∧ cleared t ∧ SameOutside s t p.aAddr (128 * w)
             ∧ ∀ m n i, m < 32 → n < 32 → i < w →
               let at_ := p.aAddr + 4 * w * m + (n * w + i) / 8
               (t.readByte at_).getLsbD ((n * w + i) % 8) =
                 if m < p.mrows ∧ n < p.ncols then (out m n).testBit i else (s.readByte at_).getLsbD ((n * w + i) % 8))
         ∧ (p.inside = true → marked = true → epilogueOk bank = true → ∃ t, starts t (!ctl.testBit 13) 3 ∧ cleared t ∧ SameOutside s t p.aAddr (128 * w)
             ∧ ∀ m i, m < p.mrows → i < 4 * w → i * 8 < p.ncols * w → t.isPoisoned (p.aAddr + 4 * w * m + i) 1 = true)))
     ∧ (∀ r k gen d, u.running = some r → r.span = none → ((s.core (clusterCore cl r.pos)).entryAt r.cmd.entry).st = .attached k gen d →
         (s.slot (clusterCore cl r.pos) k).accepts gen = true → s.clockRuns (clusterCore cl r.pos) = true →
         d.toNat < 16 ∨ (s.core (clusterCore cl r.pos)).outranked k (.scalar d) = false → ∃ t, Runs (.pressComplete cl) s t ∧ (t.cluster cl).running = none
         ∧ readReg t (clusterCore cl r.pos) k d = (if d = 0 then 0 else r.status)
         ∧ isPending t (clusterCore cl r.pos) k (.scalar d) = false ∧ ((t.core (clusterCore cl r.pos)).entryAt r.cmd.entry).st = .free
         ∧ SameMemory s t))
  ∧ (∀ (ps : List (Sys2Proof.Machine.Num × Bool)) (sig : Bool) (acc f : Nat) (bs : List Byte),
     let ts := ps.map (fun q => q.1)
     let S := groupSum ps sig
     let int := fun (lo : Int) (z : Sys2Proof.Machine.Num) => match z with | .fin n m e => (if n then -(m : Int) else (m : Int)) * 2 ^ (e - lo).toNat | _ => 0
     let zeroInf := ps.any (fun q => q.2)
     let both := anyInf false ts && anyInf true ts
     (zeroInf = true ∨ ts.any Num.isNan = true ∨ both = true → S.1 = .nan false)
     ∧ S.2 = (zeroInf || both || sig)
     ∧ (zeroInf = false → (∀ z ∈ ts, ∃ n m e, z = Num.fin n m e) → (∃ n m e, S.1 = .fin n m e)
         ∧ (∀ lo, (∀ z ∈ ts, ∀ n m e, z = Num.fin n m e → lo ≤ e) → int lo S.1 = (ts.map (int lo)).sum)
         ∧ ((∀ z ∈ ts, ∃ n e, z = Num.fin n 0 e) → S.1 = .fin (ts.all (fun z => match z with | .fin n _ _ => n | _ => false)) 0 0))
     ∧ (accumulate acc S).1 = (fp32.sum .rne [fp32.value acc, S.1] false).1
     ∧ (f < 7 → ∀ r k i, i < pressBits f →
         (operandBits f bs r k).testBit i = (bs.getD (r * pressRow f + (k * pressBits f + i) / 8) 0).getLsbD ((k * pressBits f + i) % 8))
     ∧ (f < 7 → ∀ r k, operandValue f false bs r k = (pressFmt f).value (operandBits f bs r k)
         ∧ (let sc := (bs.getD (32 * pressRow f + r * (pressK f / 32) + k / 32) 0).toNat
            operandValue f true bs r k = if sc = 255 then .nan false else ((pressFmt f).value (operandBits f bs r k)).scale ((sc : Int) - 127))))

/-! ### Populations and collectives -/

/-- 14_population R374, R375, R387. FITSET and FITGET read VALUE, and FITSET replaces it, at their WB (its step is log 6); FITGET of another
core asks its port, which answers with it. LINRD gives the run of written records from n or, where they are overwritten, from the oldest,
and copies them one by one before it retires (that its count and result are fixed in its own step, and one record goes a step, is log 73).
14_population R378, R379, R380. POPRANK whose checks pass sends one request to each member of its set and waits; the last sample ranks the
members, in an order that puts no worse one before a better one, writes the pair table and gives the counts; an absent member gives CODE 2
and no table. 14_population R381, R382, R383, R384, R386, R388. BLEND or BLENDX reads a table of more than four pairs 32 bytes a step;
with it whole, and its checks passed, it takes an entry and stands with every pair to be done, its lineage records reserved where it logs; a
pair that its engine takes up asks for the child's entry; each piece of it that nothing holds writes its bytes of the child and no others,
each element of any format perturbed as R384 gives; with the last piece of a pair FITCLR sets the child's VALUE, and its record is written;
with the last pair the command is complete. -/
def Obligations.FitnessRankingAndBlends : Prop :=
  (∀ (s s1 : State) (d a b : Reg) (i : Nat) (m : Msg), s.CheckerOff s.curCore s.curSlot → s.CanonicalMemory →
     let c := s.curCore
     let k := s.curSlot
     let x := s.core c
     let gives := fun (ins : Instr) (v : Word) (q : State → Prop) => ∃ t, Runs ins s t ∧ lastReg t c k d = (if d = 0 then 0 else v) ∧ Advanced s t c k 4
       ∧ q t
     let flies := fun (ins : Instr) (v : Option Word) => ∃ t, Runs ins s t ∧ (t.core c).landing = x.landing ++ [⟨x.cycle, k, x.cycle + 4, .fit d v⟩]
       ∧ (t.core c).fit = x.fit ∧ Advanced s t c k 4 ∧ SameMemory s t ∧ t.net = s.net
     (s.Ready (scalars [d, a]) →
       flies (.fitset d a) (some (BitVec.ofNat 64 ((s.reg a).toNat % 2 ^ 32)))
       ∧ (a = 0 → flies (.fitget d a) none)
       ∧ (∀ i due v, let t := s.writeBack c ⟨i, k, due, .fit d v⟩
           (t.core c).fit = v.getD x.fit ∧ SameMemory s t ∧ t.net = s.net
           ∧ (t.core c).landing = x.landing ++ [⟨x.cycle, k, x.cycle + 1, .register d (BitVec.ofNat 64 (x.fit.toNat % 2 ^ 32))⟩])
       ∧ (∀ i due v, d.toNat < 16 ∨ x.outranked k (.scalar d) = false →
           readReg (s.writeBack c ⟨i, k, due, .register d v⟩) c k d = (if d = 0 then 0 else v))
       ∧ (a ≠ 0 → ∀ dst, s.targetWord (s.reg a) = .ok (dst, none) → dst < 32768 → ∃ t m, Runs (.fitget d a) s t ∧ t.net = s.net ++ [m] ∧ m.src = c
           ∧ m.dst = dst ∧ m.body = .fitRead none ∧ (t.slot c k).st = .blocked ∧ SameRegisters s t ∧ SameMemory s t)
       ∧ (∀ pa out, let ws := s.readWords pa 8
           let keys := s.membersOf (s.partOf c k) s.cur.rcbptr (ws.drop 4)
           s.checkOwn c k (s.reg a) 8 64 [rightR] 0x21 = .ok pa → s.isHeld pa 64 = false → rankFormatOk ws keys.length = true →
           s.checkOwn c k (ws.getD 3 0) 8 (8 * bf (ws.getD 0 0) 27 16) [rightW] 0x22 = .ok out → s.coreAbsent (cuppingCore (dieOf c)) = false →
           ∃ t, Runs (.poprank d a) s t ∧ (t.slot c k).st = .blocked ∧ (t.slot c k).wait = .poprank d out ws keys [] ⟨4, [d, a], 0⟩
             ∧ (∀ j v dst, keys[j]? = some v → s.coreTarget v = .ok (dst, none) → dst < 32768 →
                 ∃ m ∈ t.net, m.dst = dst ∧ m.src = cuppingCore (dieOf c) ∧ m.slot = k ∧ m.gen = s.cur.gen ∧ m.body = .fitRead (some (j, c)))
             ∧ SameRegisters s t ∧ SameMemory s t))
     ∧ (s.pick i = some (m, s1) → s.isAbsent m = false → m.src < 32768 → m.post = none → m.body = .fitRead none →
       ∃ t, Runs (.fitRead i) s t ∧ SameMemory s t ∧ SameRegisters s t ∧ t.net = s.net.eraseIdx i ++
         [{ m with src := m.dst, dst := m.src, held := none, body := .dataReply .done (BitVec.ofNat 256 ((s.core m.dst).fit.toNat % 2 ^ 32)) 0 }])
     ∧ (s.Ready (scalars [d, a, b]) → ∀ pa, s.checkOwn c k (s.reg a) 32 2048 [rightW] 0x22 = .ok pa →
       let n := (s.reg b).toNat % 2 ^ 48
       (s.partOf c k = none → gives (.linrd d a b) (BitVec.ofNat 64 n) (fun t => SameMemory s t ∧ t.net = s.net))
       ∧ (∀ p, s.partOf c k = some p →
         let q := s.part p
         let head := q.linhead.toNat % 2 ^ 48
         let first := if n < head - q.linRecords then head - q.linRecords else n
         (q.linRecords = 0 → gives (.linrd d a b) (BitVec.ofNat 64 n) (fun t => SameMemory s t ∧ t.net = s.net))
         ∧ (∀ count, q.linRecords ≠ 0 → count ≤ 64 → (∀ j, j < count → first + j < head ∧ first + j ∉ q.linOpen) →
             (count < 64 → head ≤ first + count ∨ first + count ∈ q.linOpen) →
             let v := BitVec.ofNat 64 ((if n < head - q.linRecords then 1 else 0) * 2 ^ 56 + count * 2 ^ 48 + first)
             (count = 0 → gives (.linrd d a b) v (fun t => SameMemory s t ∧ t.net = s.net))
             ∧ (count ≠ 0 → Runs (.linrd d a b) s (s.blockAt c k (.lineage d v p first pa count ⟨4, [d, a, b], 0⟩)))))))
  ∧ (∀ (s s1 : State) (i j req out : Nat) (m : Msg) (v : Option Word) (d : Reg) (ws : List Word) (keys : List Nat)
       (got : List (Nat × Option Word)) (r : Retire), s.pick i = some (m, s1) → m.body = .sample j v req → s.gateAdmits m = true →
     s.delivers m.src m.dst = true → s.CanonicalMemory → s.CheckerOff req m.slot → (s.slot req m.slot).accepts m.gen = true →
     (s.slot req m.slot).wait = .poprank d out ws keys got r →
     let q := bf (ws.getD 0 0) 27 16
     let n := keys.length
     let got1 := got ++ [(j, v)]
     let samples := got1.map (fun y => (keys.getD y.1 0, (y.2.getD 0).toNat % 2 ^ 32))
     let nan := fun (y : Nat × Nat) => (fp32.value y.2).isNan
     let better := fun (y z : Nat × Nat) =>
       if nan y then nan z = true ∧ y.1 < z.1
       else nan z = true ∨ (fp32.value z.2).lt (fp32.value y.2) = true ∨ ((fp32.value y.2).lt (fp32.value z.2) = false ∧ y.1 < z.1)
     let draw := fun (row at_ : Nat) =>
       let u := mix (mix (mix (mix (ws.getD 2 0 ^^^ 0x5B1D2E97C04A6F83#64) ^^^ BitVec.ofNat 64 (bf (ws.getD 1 0) 31 0)) ^^^ BitVec.ofNat 64 row) ^^^ BitVec.ofNat 64 at_)
       u.toNat % 2 ^ 32 * (n - q) / 2 ^ 32
     let rank := fun (row : Nat) => if bf (ws.getD 0 0) 1 0 = 0 then row
       else (List.range (bf (ws.getD 0 0) 7 4)).foldl (fun best at_ => min best (draw row at_)) n
     let retired := fun (t : State) => Runs (.dataReply i) s t ∧ Advanced s t req m.slot r.len
     let result := fun (t : State) (p : Word → Prop) => d.toNat < 16 ∨ (s.core req).outranked m.slot (.scalar d) = false → d ≠ 0 → p (readReg t req m.slot d)
     (got1.length < n → ∃ t, Runs (.dataReply i) s t ∧ (t.slot req m.slot).st = (s.slot req m.slot).st
       ∧ (t.slot req m.slot).wait = .poprank d out ws keys got1 r ∧ SameMemory s t ∧ SameRegisters s t)
     ∧ (n ≤ got1.length → s.isHeld out (8 * q) = true → ∃ t, Runs (.dataReply i) s t ∧ t.net = s.net ∧ SameMemory s t ∧ SameRegisters s t)
     ∧ (n ≤ got1.length → s.isHeld out (8 * q) = false → (∃ y ∈ got1, y.2 = none) → ∃ t, retired t ∧ SameMemory s t
         ∧ result t (fun w => bf w 39 32 = 2))
     ∧ (n ≤ got1.length → s.isHeld out (8 * q) = false → (∀ y ∈ got1, y.2 ≠ none) → addrClass (out + 8 * q) = 0 →
         ∃ (t : State) (ranked : List (Nat × Nat)), retired t ∧ ranked.Perm samples ∧ ranked.Pairwise (fun y z => ¬ better z y) ∧ SameOutside s t out (8 * q)
           ∧ (∀ row, row < q → t.readWord (out + 8 * row) =
               let child := ranked.getD (ranked.length - 1 - row) (0, 0)
               let parent := ranked.getD (rank row) (0, 0)
               BitVec.ofNat 64 (child.1 + parent.1 * 2 ^ 16 + parent.2 * 2 ^ 32))
           ∧ result t (fun w => w = BitVec.ofNat 64 (n % 2 ^ 16 + (samples.filter nan).length % 2 ^ 16 * 2 ^ 16))))
  ∧ (∀ (s : State) (c k p n at_ src left : Nat) (d : Reg) (v : Word) (r : Retire), s.CanonicalMemory → s.CheckerOff c k → k < 16 →
     addrClass at_ = 0 → (s.slot c k).st = .blocked → (s.slot c k).wait = .lineage d v p n at_ left r →
     let t := s.lineageStep c k
     (s.isHeld at_ 32 = true → (t.slot c k).wait = (s.slot c k).wait ∧ SameMemory s t)
     ∧ (s.isHeld at_ 32 = false → s.linAddr p n = some src → s.isPoisoned src 32 = false →
       SameOutside s t at_ 32 ∧ (∀ z, z < 32 → t.readByte (at_ + z) = s.readByte (src + z))
       ∧ (1 < left → (t.slot c k).st = .blocked ∧ (t.slot c k).wait = .lineage d v p (n + 1) (at_ + 32) (left - 1) r)
       ∧ (left ≤ 1 → Advanced s t c k r.len
           ∧ (d.toNat < 16 ∨ (s.core c).outranked k (.scalar d) = false → readReg t c k d = (if d = 0 then 0 else v)))))
  ∧ (∀ (s : State) (d : Reg) (group : Bool) (c k e : Nat) (ws : List Word), s.CheckerOff c k → k < 16 → (s.core c).freeEntry = some e →
     let part := s.partOf c k
     let accepts := fun (t : State) (table : List Word) => ∃ g m, t.engine = s.engine.put s.nextCmd g ∧ g.kind = 4
       ∧ g.phase = .pairs (List.range table.length) ∧ g.desc = ws ∧ g.pairsTable = table ∧ g.members = [m] ∧ m.core = c ∧ m.entry = e
       ∧ g.peer = (if group then some (blendDpkg ws) else none)
       ∧ lastPending t c k (.scalar d) = (d != 0) ∧ (t.core c).entryAt e = ⟨((s.core c).entryAt e).tag + 1, .attached k (s.slot c k).gen d⟩
       ∧ (∀ p, part = some p → blendLog ws = true → group = false → g.seqBase = some ((s.part p).linhead.toNat % 2 ^ 48)
           ∧ (t.part p).linhead.toNat = ((s.part p).linhead.toNat % 2 ^ 48 + table.length) % 2 ^ 48)
       ∧ Advanced s t c k 4 ∧ SameMemory s t ∧ t.net = s.net
     (∀ (a : Reg) (pa pt : Nat), c = s.curCore → k = s.curSlot →
       let n := bf (ws.getD 0 0) 11 0
       let ins := if group then Instr.blendx d a else .blend d a
       s.Ready (scalars [d, a]) → s.checkOwn c k (s.reg a) 8 64 [rightR] 0x21 = .ok pa → s.isHeld pa 64 = false → ws = s.readWords pa 8 →
       s.checkOwn c k (ws.getD 1 0) 8 (8 * n) [rightR] 0x21 = .ok pt → blendFormatOk ws group = true → s.isHeld pt (8 * n) = false →
       (blendLog ws = true → ∃ p, part = some p ∧ (s.part p).linRecords ≠ 0) →
       (group = true → s.isOwnPkg (blendDpkg ws) = false ∧ s.isPeer (blendDpkg ws) = true) →
       (4 < n → Runs ins s (s.blockAt c k (.blend d group ws (pt + 32) (n - 4) (s.readWords pt 4) ⟨4, [d, a], 0⟩)))
       ∧ (n ≤ 4 → s.pairsFault part ws (s.readWords pt n) group s.cur.level = none → ∃ t, Runs ins s t ∧ accepts t (s.readWords pt n))
       ∧ (n ≤ 4 → ∀ f, s.pairsFault part ws (s.readWords pt n) group s.cur.level = some f → Faults ins s f))
     ∧ (∀ at_ left got names, (s.slot c k).st = .blocked → (s.slot c k).wait = .blend d group ws at_ left got ⟨4, names, 0⟩ →
       let table := got ++ s.readWords at_ left
       (4 < left → s.blendStep c k = s.blockAt c k (.blend d group ws (at_ + 32) (left - 4) (got ++ s.readWords at_ 4) ⟨4, names, 0⟩))
       ∧ (left ≤ 4 → s.pairsFault part ws table group (s.slot c k).level = none → accepts (s.blendStep c k) table)))
  ∧ (∀ (s : State) (id pair : Nat) (cmd : EngCmd),
     (∀ left m rest sa da off, s.engine.find id = some cmd → s.CanonicalMemory → cmd.phase = .pairs left → cmd.live = m :: rest → pair ∈ left →
       let w := cmd.pairsTable.getD pair 0
       let key := bf w 14 0
       let lo := blendDoff cmd.desc
       let size := blendBytes cmd.desc
       let h := homeOf da
       cmd.peer = none → cmd.inbound = none → lo + size ≤ 0x80000 → s.resolve m.part (.virt (bf w 30 16) (blendSoff cmd.desc + off)) = some sa →
       s.resolve m.part (.virt key (lo + off)) = some da → s.answers m.part m.core h = true → s.answers m.part h (homeOf sa) = true →
       s.engineWaits m.core h = false → s.engineWaits h (homeOf sa) = false →
       (off = 0 → cmd.work.find? (fun y => y.pair == pair) = none → s.pairBehind id pair m (s.pairCluster m none w) = false →
         ∃ t g, Runs (.blendPair id pair) s t ∧ (t.core h).sbWait = (s.core h).sbWait ++ [⟨(s.core h).nextSpan, lo, lo + size, .pair id pair⟩]
           ∧ t.engine.find id = some g ∧ g.phase = .pairs left ∧ g.work = cmd.work ++ [⟨pair, none, [], [], 0⟩] ∧ SameMemory s t ∧ SameRegisters s t)
       ∧ (∀ v, cmd.work.find? (fun y => y.pair == pair) = some v → v.next = some off → off < size → off % 8 = 0 → addrClass da = 0 →
         let n := min 8 (size - off)
         let lane := laneWidth (blendFmt cmd.desc)
         let own := fun (o : SbOwner) => o == SbOwner.pair id pair
         let fitness := fun (t : State) => (t.core h).fit = (if size ≤ off + n ∧ blendFitclr cmd.desc = true then 0x7FC00000#64 else (s.core h).fit)
         (s.pieceHeld own sa n = true ∨ s.pieceHeld own da n = true → ∃ t, Runs (.blendPair id pair) s t ∧ t.engine = s.engine ∧ SameMemory s t)
         ∧ (s.pieceHeld own sa n = false → s.pieceHeld own da n = false → [8, 9, 10, 11, 12, 14].contains (blendFmt cmd.desc) = true →
           cmd.seqBase = none →
           ∃ t g, Runs (.blendPair id pair) s t ∧ SameOutside s t da n ∧ t.engine.find id = some g ∧ fitness t
             ∧ (s.isPoisoned sa n = false → ∀ j z, (j + 1) * lane ≤ 8 * n → z < lane →
                 (t.readByte (da + (j * lane + z) / 8)).getLsbD ((j * lane + z) % 8) =
                   (blendElement cmd.desc key (8 * off / lane + j) (s.readNat sa n / 2 ^ (lane * j) % 2 ^ lane)).1.testBit z)
             ∧ (s.isPoisoned sa n = true → t.isPoisoned da n = true)
             ∧ (off + n < size → g.phase = .pairs left ∧ SameRegisters s t
                 ∧ (g.work.find? (fun y => y.pair == pair)).map (fun y => y.next) = some (some (off + n)))
             ∧ (size ≤ off + n → g.work.all (fun y => y.pair != pair) = true
                 ∧ g.phase = (if left.filter (fun j => j != pair) = [] then .complete else .pairs (left.filter (fun j => j != pair)))))))
     ∧ (∀ (m : Member) (p base la : Nat), cmd.inbound = none → cmd.seqBase = some base → m.part = some p → (s.part p).linRecords ≠ 0 →
       let seq := (base + pair) % 2 ^ 48
       s.linAddr p seq = some la → (∀ z, z < 32 → s.rowRetired (la + z) = false) → s.CanonicalMemory →
       let w := cmd.pairsTable.getD pair 0
       let g := fun (i : Nat) => cmd.desc.getD i 0
       let writes := fun (copied : Bool) (ws : List Word) => ∃ t, t = s.pairLineage cmd m pair copied ∧ t.readWords la 4 = ws ∧ SameOutside s t la 32
         ∧ (t.part p).linOpen.contains seq = false
       writes true [BitVec.ofNat 64 (bf (g 4) 63 32 + bf w 63 32 * 2 ^ 32), g 5,
         BitVec.ofNat 64 (bf w 14 0 + bf w 30 16 * 2 ^ 16 + s.pkgNo % 2 ^ 12 * 2 ^ 32 + s.pkgNo % 2 ^ 12 * 2 ^ 44),
         BitVec.ofNat 64 (seq + bf (g 0) 47 32 * 2 ^ 48)]
       ∧ writes false [0, 0, BitVec.ofNat 64 (3 * 2 ^ 56), BitVec.ofNat 64 seq]))
  ∧ (∀ (ws : List Word) (key e x : Nat),
     let f := laneFormat (blendFmt ws)
     let h0 := mix (mix (ws.getD 5 0 ^^^ 0x9E6CB7D14F28A35B#64) ^^^ BitVec.ofNat 64 (key % 2 ^ 27))
     let h := mix (mix (h0 ^^^ BitVec.ofNat 64 (bf (ws.getD 4 0) 63 32)) ^^^ BitVec.ofNat 64 (e % 2 ^ 20))
     let g : Int := (bf h 15 0 + bf h 31 16 + bf h 47 32 + bf h 63 48 : Nat) - 131070
     let noise := (fp32.mul .rne (bf (ws.getD 4 0) 31 0) (fp32.ofNum .rne false (.fin (decide (g < 0)) g.natAbs (-15))).1).1
     let y := (fp32.value (fp32.ofNum .rne false (f.value x)).1).plus (fp32.value noise)
     (blendElement ws key e x).1 = (f.ofNum (.sr (bf (mix (h ^^^ 0xD1B54A32D192ED03#64)) 31 0)) ((ws.getD 0 0).getLsbD 16) y.1).1
     ∧ (∀ n m z n' m' z' lo, lo ≤ z → lo ≤ z' →
         let int := fun (n : Bool) (m : Nat) (z : Int) => (if n then -(m : Int) else (m : Int)) * 2 ^ (z - lo).toNat
         ∃ r q w, ((Num.fin n m z).plus (.fin n' m' z')).1 = .fin r q w ∧ int r q w = int n m z + int n' m' z'
           ∧ (q = 0 → (r = true ↔ (n = true ∧ m = 0) ∧ n' = true ∧ m' = 0))))

/-- 14_population R391, R392, R394, R395. COLL of a member with no posted operation sends its contribution and holds the identifier, and with
one it retires and its contribution waits; of a core that is no member it completes with CODE 8; while another COLL holds the identifier, or no
entry is FREE, it waits. CABORT and a token raise the attempt and start its sequence again, the members of this package and the packages of PKGMASK
have the token, and a pending COLL completes with CODE 7; CATT gives the attempt and may raise it on its own core alone. A contribution of another
attempt is dropped; any other reads its data one doubleword a step, each once nothing holds it, and when it is whole joins its instance. The last one
ends it: the members' lanes are combined in member order by the tree of R392, in every TYPE and FN, ALLREDUCE and BCAST write every DST, REDUCE the
root's and BARRIER none, a poisoned doubleword marks what is written and gives CODE 3, members that differ have CODE 8 and an absent one CODE 5,
with no DST written. That a step reads one doubleword and that every DST is written in one step, that an instruction looks for its entry before its
checks, and that CATT answers before it raises are the model's choice (log 72), as is when a status reads (log 6). -/
def Obligations.CollectivesCombineAndAbort : Prop :=
  (∀ (s : State) (d a b : Reg), s.curCore < 32768 → s.CheckerOff s.curCore s.curSlot →
    let c := s.curCore
    let k := s.curSlot
    let part := s.partOf c k
    let waits := fun (i : Instr) (why : Why) => ∃ t, Runs i s t ∧ (t.slot c k).st = .blocked ∧ (t.slot c k).wait = .reissue why
      ∧ (t.slot c k).pc = s.cur.pc ∧ SameRegisters s t ∧ SameMemory s t ∧ t.net = s.net
    (s.Ready (scalars [d, a]) → (s.core c).freeEntry = none → waits (.coll d a) .completionFull)
    ∧ (∀ f, s.Ready (scalars [d, a]) → s.checkOwn c k (s.reg a) 8 72 [rightR] 0x21 = .error f →
        Faults (.cabort d a) s f ∧ ((s.core c).freeEntry ≠ none → Faults (.coll d a) s f))
    ∧ (∀ pa ws src dst e, s.Ready (scalars [d, a]) → s.collDescriptor a = .ok (pa, ws) → s.isHeld pa 72 = false →
      s.collRange (ws.getD 2 0) (collNdw ws) rightR 0x21 = .ok src → s.collRange (ws.getD 3 0) (collNdw ws) rightW 0x22 = .ok dst →
      let id := collId ws
      let q := (s.core c).coll id
      let keys := s.membersOf part s.cur.rcbptr (ws.drop 5)
      let posts := fun (t : State) (p : Msg) => p.dst = c ∧ p.src = c ∧ p.part = part ∧ p.body = .contribution id q.att q.seq ws keys src dst e
        ∧ lastPending t c k (.scalar d) = (d != 0) ∧ ((t.core c).entryAt e).st = .attached k s.cur.gen d
        ∧ (t.slot c k).pc = addOffset s.cur.pc 4 ∧ SameMemory s t
      (s.core c).freeEntry = some e →
      (q.pending ≠ none → waits (.coll d a) .collPending)
      ∧ (q.pending = none → s.isMember c part ws keys = true → s.cur.posted = [] → ∃ t p, Runs (.coll d a) s t ∧ posts t p ∧ t.net = s.net ++ [p]
        ∧ (t.slot c k).st = .run ∧ (t.core c).coll id = { q with pending := some e, seq := q.seq + 1 })
      ∧ (q.pending = none → s.isMember c part ws keys = true → s.cur.posted ≠ [] → ∃ t p, Runs (.coll d a) s t ∧ posts t p ∧ t.net = s.net
        ∧ (t.slot c k).st = .blocked ∧ (t.slot c k).wait = .releaseColl p ∧ (t.core c).coll id = { q with pending := some e })
      ∧ (q.pending = none → s.isMember c part ws keys = false → ∃ t, Runs (.coll d a) s t ∧ readReg t c k d = (if d = 0 then 0 else 8)
        ∧ isPending t c k (.scalar d) = false ∧ ((t.core c).entryAt e).st = .free ∧ (t.core c).coll id = q ∧ Advanced s t c k 4 ∧ SameMemory s t
        ∧ t.net = s.net))
    ∧ (∀ pa ws, s.Ready (scalars [d, a]) → s.collDescriptor a = .ok (pa, ws) → s.isHeld pa 72 = false →
      let id := collId ws
      let q := (s.core c).coll id
      let others := (s.membersOf part s.cur.rcbptr (ws.drop 5)).filter (fun v => !isCompute c || v != s.virtual part c)
      let pkgs := if collGroup ws then (List.range 16).filter (fun g => bit (ws.getD 4 0) g && g != s.pkgNo) else []
      let left := others.length + pkgs.length
      ∃ t, Runs (.cabort d a) s t ∧ (t.core c).coll id = ⟨q.att + 1, 0, none⟩
        ∧ (d = 0 ∨ left = 0 → Advanced s t c k 4 ∧ lastReg t c k d = (if d = 0 then 0 else (q.att + 1).setWidth 64))
        ∧ (d ≠ 0 → left ≠ 0 → (t.slot c k).st = .blocked ∧ (t.slot c k).wait = .abortWait d (q.att + 1) left ⟨4, [d, a], 0⟩)
        ∧ (q.pending = none → SameMemory s t
          ∧ (∀ v ∈ others, ∀ dst, s.coreTarget v = .ok (dst, none) → dst < 32768 →
              ∃ p ∈ t.net, p.dst = dst ∧ p.src = c ∧ p.body = .abort id (q.att + 1) (d != 0))
          ∧ ∀ g ∈ pkgs, ∃ p : Msg, p.dst = peerCore g ∧ p.src = c ∧ p.body = .abort id (q.att + 1) (d != 0)
              ∧ (if s.portDrains g then p ∈ t.portHeld else if s.peerOpen g then ⟨s.peerPort g, p⟩ ∈ t.egress else p ∈ t.net)))
    ∧ (s.Ready (scalars [d, a, b]) →
      let id := (s.reg a).toNat % 64
      let q := (s.core c).coll id
      let p : BitVec 16 := BitVec.ofNat 16 ((s.reg b).toNat % 2 ^ 16)
      ∃ t, Runs (.catt d a b) s t ∧ lastReg t c k d = (if d = 0 then 0 else q.att.setWidth 64) ∧ Advanced s t c k 4
        ∧ (t.core c).coll id = (if b ≠ 0 ∧ 0 < (p - q.att).toInt then ⟨p, 0, none⟩ else q) ∧ (q.pending = none → SameMemory s t ∧ t.net = s.net)
        ∧ t.colls = s.colls))
  ∧ (∀ (s s1 : State) (n : Nat) (m : Msg), s.pick n = some (m, s1) →
    (∀ id att r p, m.body = .abort id att r → m.part = some p → s.isAbsent m = false → m.src < 32768 → m.post = none →
      let q := (s.core m.dst).coll id
      ∃ t, Runs (.abortToken n) s t ∧ (t.core m.dst).coll id = (if 0 < (att - q.att).toInt then ⟨att, 0, none⟩ else q)
        ∧ (0 < (att - q.att).toInt → t.colls = s.colls.filter (fun z => !(z.part == p && z.id == id && decide (0 < (att - z.att).toInt))))
        ∧ (∀ e k d, 0 < (att - q.att).toInt → q.pending = some e → ((s.core m.dst).entryAt e).st = .attached k (s.slot m.dst k).gen d →
            (s.slot m.dst k).st = .run → k < 16 → 0 < d.toNat → d.toNat < 16 → lastReg t m.dst k d = 7 ∧ ((t.core m.dst).entryAt e).st = .free)
        ∧ (q.pending = none → SameMemory s t
          ∧ t.net = s.net.eraseIdx n ++ (if r then [{ m with src := m.dst, dst := m.src, held := none, body := .dataReply .done 0 0 }] else [])))
    ∧ (∀ g p, m.body.gathered = some g → m.part = some p →
      let id := g.id
      let q := (s.core m.dst).coll id
      let words := collNdw g.desc
      let h := s.gather g
      let x : Contribution := ⟨memberKey s.pkgNo (s.virtual (some p) m.dst), g.desc, g.members, h.got, h.bad, some (m.dst, g.dst, g.entry)⟩
      (g.whole = false → h.got = g.got ++ [s.readWord (g.src + 8 * g.got.length)])
      ∧ (q.att ≠ g.att → Runs (.collectiveContribution n) s s1)
      ∧ (s.gatherHeld p g = true → q.att = g.att → ∃ t, Runs (.collectiveContribution n) s t ∧ t.net = s.net ∧ t.colls = s.colls ∧ SameMemory s t)
      ∧ (s.gatherHeld p g = false → q.att = g.att → h.whole = false ∨ s.gatherHeld p h = true →
          Runs (.collectiveContribution n) s { s with net := s.net.set n { m with body := h.body } })
      ∧ (∀ got, s.gatherHeld p g = false → q.att = g.att → h.whole = true → s.gatherHeld p h = false → collGroup g.desc = false →
          x.bad.contains 63 = false → h.got.length = words → s.CanonicalMemory →
          s.colls = (if got.isEmpty then [] else [⟨p, id, g.att, g.seq, got, false⟩]) →
          let all := got ++ [x]
          let agree := got.all (collAgrees s.pkgNo x)
          let whole := collComplete s.pkgNo all
          (∀ z ∈ all, ∃ u o e, z.home = some (u, scratchAddr u o, e) ∧ isCompute u = true ∧ o % 8 = 0 ∧ o + 64 ≤ 0x7C000 ∧ z.data.length = words
            ∧ (s.core u).coll id = ⟨g.att, g.seq + 1, some e⟩ ∧ e < 64 ∧ ((∃ k d, k < 16 ∧ ((s.core u).entryAt e).st = .attached k (s.slot u k).gen d
              ∧ (s.slot u k).st = .run ∧ 0 < d.toNat ∧ d.toNat < 16)
              ∨ (((s.core u).entryAt e).st = .running ∧ (s.core u).waiters = []))) →
          all.Pairwise (fun y z => y.key ≠ z.key ∧ y.home.map (fun r => r.1) ≠ z.home.map (fun r => r.1)) →
          let ends := fun (t : State) (status : Word) => ∀ z ∈ all, ∀ u a e, z.home = some (u, a, e) → ((t.core u).coll id).pending = none
            ∧ (∀ k gen d, ((s.core u).entryAt e).st = .attached k gen d → lastReg t u k d = status ∧ ((t.core u).entryAt e).st = .free)
            ∧ (((s.core u).entryAt e).st = .running → ((t.core u).entryAt e).st = .finished status)
          ∃ t, Runs (.collectiveContribution n) s t ∧ t.net = s.net.eraseIdx n
            ∧ (s.memberAbsent p g.members = true → t.colls = [] ∧ SameMemory s t ∧ ends t 5)
            ∧ (s.memberAbsent p g.members = false → t.colls = (if whole then [] else [⟨p, id, g.att, g.seq, all, !agree⟩])
              ∧ (agree = true → whole = false → SameMemory s t ∧ SameRegisters s t)
              ∧ (agree = false → SameMemory s t ∧ ends t 8)
              ∧ (agree = true → whole = true → ∀ sorted : List Contribution, sorted.Perm all → sorted.Pairwise (fun y z => y.key < z.key) →
                let op := collOp g.desc
                let type := collType g.desc
                let pkg := bf (g.desc.getD 1 0) 27 16
                let root := memberKey (if pkg = 0xFFF then s.pkgNo else pkg) (bf (g.desc.getD 1 0) 14 0)
                let tree := collTree (collFn g.desc) type 32 (sorted.map (fun z => collLanes type z.data)) 0
                let bad := fun (j : Nat) => all.any (fun z => z.bad.contains j)
                let written := fun (z : Contribution) => op = 1 ∨ op = 3 ∨ (op = 2 ∧ z.key = root)
                (op = 1 ∨ op = 2 → ends t (completionWord tree.2 (if (List.range words).any bad then 3 else 0)))
                ∧ (op = 0 ∨ op = 3 → ends t (if (List.range words).any bad then 3 else 0))
                ∧ (op = 0 → words = 0 → SameMemory s t)
                ∧ (op ≤ 3 → ∀ z ∈ all, written z → ∀ u a e j, z.home = some (u, a, e) → j < words → t.isPoisoned (a + 8 * j) 8 = bad j
                    ∧ (bad j = false → (op ≠ 3 → t.readWord (a + 8 * j) = (collWords type tree.1 words).getD j 0)
                        ∧ (∀ y ∈ all, op = 3 → y.key = root → t.readWord (a + 8 * j) = y.data.getD j 0)))
                ∧ (op ≤ 3 → ∀ b, (∀ z ∈ all, written z → ∀ u a e, z.home = some (u, a, e) → b < a ∨ a + 8 * words ≤ b) → t.readByte b = s.readByte b))))))
  ∧ (∀ (fn type : Nat) (vs : List (List Nat)) (f : Flags) (fuel : Nat),
      let r := collLevel fn type vs
      (vs.length = 1 → (collTree fn type fuel vs f).1 = vs.getD 0 [] ∧ (collTree fn type fuel vs f).2 = f)
      ∧ (2 ≤ vs.length → collTree fn type (fuel + 1) vs f = collTree fn type fuel r.1 (f ||| r.2))
      ∧ r.1.length = (vs.length + 1) / 2
      ∧ (∀ i, 2 * i + 1 < vs.length →
          r.1.getD i [] = ((vs.getD (2 * i) []).zip (vs.getD (2 * i + 1) [])).map (fun z => (collCombine fn type z.1 z.2).1))
      ∧ (vs.length % 2 = 1 → r.1.getD (vs.length / 2) [] = vs.getD (vs.length - 1) [])
      ∧ (∀ b, r.2.getLsbD b = true ↔ ∃ i, 2 * i + 1 < vs.length
          ∧ ∃ z ∈ (vs.getD (2 * i) []).zip (vs.getD (2 * i + 1) []), (collCombine fn type z.1 z.2).2.getLsbD b = true))
  ∧ (∀ (type x y : Nat), [4, 5, 6, 7, 12, 13].contains type = true → x < 2 ^ laneWidth type → y < 2 ^ laneWidth type →
      let w := laneWidth type
      let f := laneFormat type
      let int := fun (z : Nat) => if type % 2 = 0 ∧ 2 ^ (w - 1) ≤ z then (z : Int) - 2 ^ w else (z : Int)
      w = (if type = 4 ∨ type = 5 ∨ type = 12 then 32 else 64)
      ∧ (12 ≤ type → f = (if type = 12 then fp32 else fp64) ∧ collCombine 0 type x y = f.add .rne x y ∧ collCombine 1 type x y = f.minmax false x y
          ∧ collCombine 2 type x y = f.minmax true x y)
      ∧ (type < 12 → collCombine 0 type x y = ((x + y) % 2 ^ w, 0)
          ∧ (∀ fn, fn = 1 ∨ fn = 2 → ∃ z, collCombine fn type x y = (z, 0) ∧ int z = (if fn = 1 then min (int x) (int y) else max (int x) (int y)))
          ∧ collCombine 3 type x y = (x &&& y, 0) ∧ collCombine 4 type x y = (x ||| y, 0) ∧ collCombine 5 type x y = (x ^^^ y, 0)))
  ∧ (∀ (type : Nat) (ws : List Word), [4, 5, 6, 7, 12, 13].contains type = true →
      let w := laneWidth type
      let per := 64 / w
      (collLanes type ws).length = per * ws.length ∧ collWords type (collLanes type ws) ws.length = ws
      ∧ ∀ j i, j < ws.length → i < per → (collLanes type ws).getD (per * j + i) 0 = (ws.getD j 0).toNat / 2 ^ (w * i) % 2 ^ w)

/-! ### HBM4E channels, scrubbing and sparing -/

/-- 12_engines R336, R337, R340. MCRD, and MCWR in a firmware slot, join the waiting accesses of their channel and wait; in a user slot MCWR takes a
privilege fault. One access starts in a cycle: the oldest whose bank is free, with the latency of the bank's row, which it opens; a read of a thread
that is done writes its register, LATCNT, and retires, and a write lands; another access that is done is performed by the step that it serves. A row
without an access for 512 cc is closed before any access starts, and its bank repays its debt.
12_engines R341; 16_package R441, R442, R443, R454. At its slot an idle bank is refreshed for 192 cc and another one's debt grows, the ninth
forcing a drain; that a slot which falls in a running refresh makes it 192 cc longer is the model's choice (log 45). A drain closes every row and
runs REFab after REFab, each lowering every debt. A scrubber counts a corrected error and leaves an uncorrectable word as poison, in a scratchpad,
in HBM4E and in capacity memory; an uncorrectable unit makes its row due for sparing, and so does the fourth corrected one in a patrol pass, which
begins at unit 0 (log 45); a spare takes a row that is due, and with none left the row is retired: writes to it are discarded. -/
def Obligations.ChannelsServeAndRefresh : Prop :=
  (∀ (s : State) (d a : Reg) (mc i bank : Nat) (x : Access),
     let c := s.curCore
     let k := s.curSlot
     let h := s.channel mc
     let y := h.banks.getD bank HbmBank.reset
     let now := (s.core mc).cycle
     let h' := (s.closeRows mc).channel mc
     let joins := fun (ins : Instr) (w : Wait) (p : Access) => ∃ t, Runs ins s t ∧ (t.channel c).waiting = (s.channel c).waiting ++ [p] ∧ (t.slot c k).st = .blocked
       ∧ (t.slot c k).wait = w ∧ (t.slot c k).pc = s.cur.pc ∧ (t.slot c k).outstanding s.cur.gen = s.cur.outstanding s.cur.gen + 1
       ∧ SameRegisters s t ∧ SameMemory s t ∧ t.net = s.net
     (∀ va pa, s.Ready (scalars [d, a]) → (s.cluster (clusterOf c)).faults = [] → homeOf pa = c →
       (s.checkAccess c k (s.reg a) ⟨8, 8, [rightR], false, true, false, 8⟩ = .ok (.mem 1 va) → s.translate c k 1 va 0 = .ok pa →
         joins (.mcrd d a) (.channel d ((s.core c).cycle + 5) ⟨4, [d, a], 0⟩) ⟨c, pa, .thread k s.cur.gen none⟩)
       ∧ (k < 8 → s.checkAccess c k (s.reg a) ⟨8, 8, [rightW], false, true, false, 8⟩ = .ok (.mem 1 va) → s.translate c k 1 va 1 = .ok pa →
         joins (.mcwr d a) (.channel 0 ((s.core c).cycle + 5) ⟨4, [d, a], 0⟩) ⟨c, pa, .thread k s.cur.gen (some (s.reg d))⟩))
     ∧ (8 ≤ k → s.Ready (scalars [d, a]) → Faults (.mcwr d a) s ⟨0x03, 4, 0, 0⟩)
     ∧ (h.drain.isSome = true → Runs (.channelAccess mc) s s)
     ∧ (h.drain = none → h.began = some now → Runs (.channelAccess mc) s (s.closeRows mc))
     ∧ (SameMemory s (s.closeRows mc) ∧ SameRegisters s (s.closeRows mc) ∧ h'.waiting = h.waiting ∧ h'.began = h.began ∧ h'.drain = h.drain
       ∧ ∀ j, j < 16 → let b := h.banks.getD j HbmBank.reset
           h'.banks.getD j HbmBank.reset = (if h.drain = none ∧ b.row ≠ none ∧ b.serving = none ∧ b.refreshEnd = none ∧ b.lastEnd + 512 ≤ now then
             { b with row := none, repay := b.debt, refreshEnd := if b.debt = 0 then none else some (now + 192) } else b))
     ∧ (h.drain = none → h.began ≠ some now → nextAccess h' h'.waiting [] 0 = some (i, x) →
       let b := h'.banks.getD (hbmBank x.addr) HbmBank.reset
       let lat := if b.row = none then 64 else if b.row = some (hbmRow x.addr) then 40 else 80
       ∃ t, Runs (.channelAccess mc) s t ∧ (t.channel mc).waiting = h.waiting.eraseIdx i ∧ SameRegisters s t ∧ SameMemory s t
         ∧ ((t.channel mc).banks.getD (hbmBank x.addr) HbmBank.reset).row = some (hbmRow x.addr)
         ∧ ((t.channel mc).banks.getD (hbmBank x.addr) HbmBank.reset).serving = some (x, max now (s.accessTime x) + lat))
     ∧ (∀ due r q at_ src pa j gen data, y.serving = some (⟨src, pa, .thread j gen data⟩, due) → homeOf pa = mc → hbmBank pa = bank →
       (s.slot src j).wait = .channel q at_ r → (s.slot src j).accepts gen = true → s.CheckerOff src j →
       (now < due → Runs (.channelAccessComplete mc bank) s s)
       ∧ (due ≤ now → data = none → s.isPoisoned pa 8 = false → q.toNat < 16 ∨ (s.core src).outranked j (.scalar q) = false →
           ∃ t, Runs (.channelAccessComplete mc bank) s t
           ∧ readReg t src j q = (if q = 0 then 0 else s.readWord pa) ∧ Advanced s t src j r.len ∧ SameMemory s t
           ∧ bf (t.slot src j).latcnt 31 0 = ((s.core src).cycle - at_) % 2 ^ 32
           ∧ bf (t.slot src j).latcnt 63 32 = (bf (s.slot src j).latcnt 63 32 + ((s.core src).cycle - at_)) % 2 ^ 32
           ∧ ((t.channel mc).banks.getD bank HbmBank.reset).serving = none)
       ∧ (∀ v, due ≤ now → data = some v → s.CanonicalMemory → s.rowRetired pa = false → ∃ t, Runs (.channelAccessComplete mc bank) s t
           ∧ t.readWord pa = v ∧ SameOutside s t pa 8 ∧ Advanced s t src j r.len ∧ ((t.channel mc).banks.getD bank HbmBank.reset).serving = none))
     ∧ (∀ due, y.serving = some (x, due) → (∀ j gen data, x.for_ ≠ .thread j gen data) → homeOf x.addr = mc → hbmBank x.addr = bank →
       (now < due ∨ s.wantsAccess x = true → Runs (.channelAccessComplete mc bank) s s)
       ∧ (due ≤ now → s.wantsAccess x = false → ∃ t, Runs (.channelAccessComplete mc bank) s t
           ∧ ((t.channel mc).banks.getD bank HbmBank.reset).serving = none ∧ SameMemory s t ∧ SameRegisters s t ∧ t.net = s.net))
     ∧ (y.serving = none → y.refreshEnd = none → h.drain = none → ∀ row, y.row = some row →
       (now < y.lastEnd + 512 → Runs (.rowClose mc bank) s s)
       ∧ (y.lastEnd + 512 ≤ now → ∃ t, Runs (.rowClose mc bank) s t ∧ SameMemory s t ∧ SameRegisters s t
           ∧ ((t.channel mc).banks.getD bank HbmBank.reset).row = none ∧ ((t.channel mc).banks.getD bank HbmBank.reset).repay = y.debt
           ∧ ((t.channel mc).banks.getD bank HbmBank.reset).refreshEnd = (if y.debt = 0 then none else some (now + 192)))))
  ∧ (∀ (s : State) (mc k w c row : Nat) (bad lost : List Nat),
     let h := s.channel mc
     let b := h.banks.getD k HbmBank.reset
     let now := (s.core mc).cycle
     let bank := fun (t : State) (j : Nat) => (t.channel mc).banks.getD j HbmBank.reset
     let idle := b.row = none ∧ h.waiting.any (fun a => hbmBank a.addr == k) = false ∧ b.serving = none
     (k < 16 → now % 6240 = 240 + 390 * k → h.drain = none → h.slotAt ≠ some now →
       (idle → ∃ t, Runs (.refreshSlot mc k) s t ∧ (bank t k).refreshEnd = some (b.refreshEnd.getD now + 192) ∧ (bank t k).debt = b.debt
         ∧ SameMemory s t ∧ SameRegisters s t)
       ∧ (¬ idle → b.debt ≠ 8 → ∃ t, Runs (.refreshSlot mc k) s t ∧ (bank t k).debt = b.debt + 1 ∧ (t.channel mc).drain = none ∧ SameMemory s t ∧ SameRegisters s t)
       ∧ (¬ idle → b.debt = 8 → ∃ t, Runs (.refreshSlot mc k) s t ∧ (t.channel mc).drain = some 9 ∧ SameMemory s t ∧ SameRegisters s t))
     ∧ (h.drain.isSome = true ∨ h.slotAt = some now → Runs (.refreshSlot mc k) s s)
     ∧ (∀ n, h.drain = some n → h.refab = none → (∀ j, j < 16 → (h.banks.getD j HbmBank.reset).serving = none ∧ (h.banks.getD j HbmBank.reset).refreshEnd = none) →
       ∃ t, Runs (.refreshDrain mc) s t ∧ (∀ j, j < 16 → (bank t j).row = none) ∧ (t.channel mc).refab = some (now + 448) ∧ SameMemory s t ∧ SameRegisters s t)
     ∧ (∀ n e, h.drain = some n → h.refab = some e →
       (now < e → Runs (.refreshComplete mc k) s s)
       ∧ (e ≤ now → ∃ t, Runs (.refreshComplete mc k) s t ∧ (∀ j, j < 16 → (bank t j).debt = (h.banks.getD j HbmBank.reset).debt - 1)
         ∧ (t.channel mc).drain = (if n ≤ 1 then none else some (n - 1)) ∧ (t.channel mc).refab = (if n ≤ 1 then none else some (e + 448))
         ∧ SameMemory s t ∧ SameRegisters s t))
     ∧ (isCompute c = true → w < 65536 → (s.core c).bankDown (8 * w) 8 = false →
       Runs (.scratchpadScrub c w 0) s s
       ∧ (∃ t, Runs (.scratchpadScrub c w 1) s t ∧ bf t.pkg.rascnt 15 0 = min 0xFFFF (bf s.pkg.rascnt 15 0 + 1) ∧ SameMemory s t)
       ∧ (∃ t, Runs (.scratchpadScrub c w 2) s t ∧ t.isPoisoned (scratchAddr c (8 * w)) 8 = true ∧ SameOutside s t (scratchAddr c (8 * w)) 8))
     ∧ (isMemoryCore mc = true → ∀ u err, u < 2 ^ 35 → capacityOk 1 (unitAddr mc u % 2 ^ 45) = true → s.rowRetired (unitAddr mc u) = false →
       let b := h.banks.getD (u / 32 % 16) HbmBank.reset
       let seen := if u = 0 then [] else b.fixed
       let after := if err = 1 ∧ seen.contains u = false then seen ++ [u] else seen
       ∃ t, Runs (.patrolScrub mc u err) s t ∧ SameRegisters s t ∧ (bank t (u / 32 % 16)).fixed = after
         ∧ ((bank t (u / 32 % 16)).sparing.contains (u / 512) = (b.sparing.contains (u / 512)
             || decide (2 ≤ err ∨ (err = 1 ∧ 4 ≤ (after.filter (fun v => v / 512 == u / 512)).length))))
         ∧ (err = 0 → SameMemory s t ∧ t.pkg.rascnt = s.pkg.rascnt)
         ∧ (err = 1 → bf t.pkg.rascnt 31 16 = min 0xFFFF (bf s.pkg.rascnt 31 16 + 1) ∧ SameMemory s t)
         ∧ (2 ≤ err → t.isPoisoned (unitAddr mc u) 32 = true ∧ SameOutside s t (unitAddr mc u) 32))
     ∧ (isGateway mc = true → ∀ u, u < 2 ^ 39 → capacityOk 2 (capacityAddr mc u % 2 ^ 46) = true →
       homeOf (capacityAddr mc u) = mc ∧ addrClass (capacityAddr mc u) = 2 ∧ Runs (.patrolScrub mc u 0) s s
       ∧ (∃ t, Runs (.patrolScrub mc u 1) s t ∧ bf t.pkg.rascnt 31 16 = min 0xFFFF (bf s.pkg.rascnt 31 16 + 1) ∧ SameMemory s t)
       ∧ (∃ t, Runs (.patrolScrub mc u 2) s t ∧ t.isPoisoned (capacityAddr mc u) 8 = true ∧ SameOutside s t (capacityAddr mc u) 8))
     ∧ (b.sparing.contains row = false → Runs (.rowSpare mc k row bad lost) s s)
     ∧ (isMemoryCore mc = true → k < 16 → b.sparing.contains row = true → b.retired.contains row = false →
       (bad.length < b.spares → ∃ t, Runs (.rowSpare mc k row bad lost) s t ∧ (bank t k).spares = b.spares - bad.length - 1 ∧ (bank t k).retired = b.retired
         ∧ (bank t k).spared = (row, 7 - (b.spares - bad.length - 1)) :: b.spared ∧ (bank t k).sparing.contains row = false)
       ∧ (b.spares ≤ bad.length → ∃ t, Runs (.rowSpare mc k row bad lost) s t ∧ (bank t k).retired = row :: b.retired ∧ (bank t k).spares = 0
         ∧ (bank t k).sparing.contains row = false
         ∧ ∀ a, addrClass a = 1 → homeOf a = mc → hbmBank a = k → hbmRow a = row → t.rowRetired a = true)))

/-! ### Control registers and the supervisor -/

/-- 15_system R401, R406, R408; 03_strands R70; 05_numbers R129, R130, R131, R133; 13_tasks R344. MFC and MTC: a number above the thread's
level takes a privilege fault and one that no chapter allocates an unallocated-register fault; a register answers its value, one of the core what
it held before an MTC in flight, and takes the bits it has, one of the core or of the package at the WB of its MTC; a write to a read-only one
changes nothing; a command register's write is sent and its thread waits. 03_strands R73, R76,
R91, R99; 08_messages R222, R223; 09_sync R252; 15_system R408, R409. The local registers with rules of their own: a rotation position of
16 to 30 stores 31, and the rotation of this cycle stays; SIGCTL changes MODE and, from mode 0, expects a head; a mailbox or log whose
place or size is written is empty, and closed where it does not fit; PINREL unpins every bank; XLAT answers the physical core, or that it
is held. -/
def Obligations.ControlRegistersReadAndWrite : Prop :=
  (∀ (s : State) (d a b : Reg), s.CheckerOff s.curCore s.curSlot →
     let c := s.curCore
     let k := s.curSlot
     let n := (s.reg a).toNat % 2 ^ 14
     let v := s.reg b
     let x := s.core c
     let y := s.cur
     let needs := if n < 0x100 then 0 else if n < 0x200 then 1 else 2
     let reads := fun (m : Nat) (w : Word) => n = m → needs ≤ y.level → (∀ e ∈ x.ctlOld, e.num = m → e.till ≤ x.cycle) →
       Writes (.mfc d a) s 4 [d, a] d w
     let takes := fun (m : Nat) (q : State → Prop) => n = m → needs ≤ y.level → ∃ t, Runs (.mtc a b) s t ∧ Advanced s t c k 4 ∧ SameMemory s t
       ∧ t.net = s.net ∧ SameRegisters s t ∧ q t
     let waits := fun (m wait : Nat) (e : WriteBack) (t : State) => (t.core c).landing = x.landing ++ [⟨x.cycle, k, x.cycle + wait, e⟩]
       ∧ { t.core c with landing := x.landing, slots := x.slots } = x ∧ t.pkg = s.pkg
     let lands := fun (m : Nat) (q : Core → Prop) => takes m (fun t => waits m 5 (.control m v) t ∧ q ((t.landAll c).core c))
     let package := fun (m : Nat) (q : Pkg → Prop) => takes m (fun t => waits m 5 (.control m v) t
       ∧ ∀ i j due, q (s.writeBack c ⟨i, j, due, .control m v⟩).pkg)
     let low := fun (i : Nat) => BitVec.ofNat 64 (v.toNat % 2 ^ i)
     (s.Ready (scalars [d, a]) → y.level < needs → Faults (.mfc d a) s ⟨0x03, 0, 0, BitVec.ofNat 64 n⟩)
     ∧ (s.Ready (scalars [a, b]) → y.level < needs → Faults (.mtc a b) s ⟨0x03, 0, 0, BitVec.ofNat 64 n⟩)
     ∧ (s.Ready (scalars [d, a]) → needs ≤ y.level → n = 0x00D ∨ n = 0x0FF ∨ n = 0x204 ∨ (n = 0x030 ∧ isMemoryCore c = false) →
         Faults (.mfc d a) s ⟨0x04, 0, 0, BitVec.ofNat 64 n⟩)
     ∧ (s.Ready (scalars [d, a]) →
       reads 0x000 (BitVec.ofNat 64 (s.vtid c k)) ∧ reads 0x001 (BitVec.ofNat 64 (x.cycle + 3)) ∧ reads 0x002 y.fpctl ∧ reads 0x003 y.fpst
       ∧ reads 0x004 y.cvtcnt ∧ reads 0x006 x.fit ∧ reads 0x007 y.geom ∧ reads 0x008 x.pxw ∧ reads 0x009 y.chst ∧ reads 0x00A y.sigctl
       ∧ reads 0x00B x.rotlo ∧ reads 0x00C x.rothi ∧ reads 0x010 y.segBase[0] ∧ reads 0x011 y.segLim[0] ∧ reads 0x01E y.segBase[7]
       ∧ reads 0x01F y.segLim[7] ∧ reads 0x020 x.mbbase[0] ∧ reads 0x024 x.mbsize[0] ∧ reads 0x028 x.logbase ∧ reads 0x029 x.logsize
       ∧ reads 0x02A y.rcbptr ∧ reads 0x02B y.logseq ∧ reads 0x02C x.mrgwin ∧ (isMemoryCore c = true → reads 0x030 y.latcnt)
       ∧ reads 0x100 y.privst ∧ reads 0x101 y.epc ∧ reads 0x102 y.ecause ∧ reads 0x103 y.esegbase ∧ reads 0x104 y.eseglim ∧ reads 0x105 x.tvec
       ∧ reads 0x106 x.ksegbase ∧ reads 0x107 x.kseglim ∧ reads 0x109 y.xlat ∧ reads 0x260 s.pkg.pkgid ∧ reads 0x250 s.pkg.rascnt
       ∧ (∀ e, [0x006, 0x008, 0x00B, 0x00C, 0x020, 0x024, 0x028, 0x029, 0x02C, 0x105, 0x106, 0x107].contains n = true → needs ≤ y.level →
           x.ctlOld.find? (fun e => e.num == n && decide (x.cycle < e.till)) = some e → Writes (.mfc d a) s 4 [d, a] d e.value))
     ∧ (s.Ready (scalars [a, b]) →
       takes 0x000 (fun t => s.vtid c k = t.vtid c k) ∧ takes 0x002 (fun t => (t.slot c k).fpctl = low 2) ∧ takes 0x003 (fun t => (t.slot c k).fpst = low 6)
       ∧ takes 0x004 (fun t => (t.slot c k).cvtcnt = v) ∧ takes 0x006 (fun t => waits 0x006 4 (.fit 0 (some (low 32))) t ∧ ((t.landAll c).core c).fit = low 32)
       ∧ takes 0x007 (fun t => (t.slot c k).geom = low 58)
       ∧ lands 0x008 (fun z => z.pxw = (if v.toNat % 16 = 0 then 1 else low 4))
       ∧ takes 0x010 (fun t => (t.slot c k).segBase[0] = v &&& ~~~31#64 ∧ (t.slot c k).segLim = y.segLim)
       ∧ takes 0x011 (fun t => (t.slot c k).segLim[0] = v ∧ (t.slot c k).segBase = y.segBase)
       ∧ takes 0x01E (fun t => (t.slot c k).segBase[7] = v &&& ~~~31#64 ∧ (t.slot c k).segBase[0] = y.segBase[0])
       ∧ takes 0x02A (fun t => (t.slot c k).rcbptr = y.rcbptr) ∧ takes 0x02B (fun t => (t.slot c k).logseq = low 32)
       ∧ lands 0x02C (fun z => z.mrgwin = low 6) ∧ takes 0x101 (fun t => (t.slot c k).epc = v) ∧ takes 0x102 (fun t => (t.slot c k).ecause = low 16)
       ∧ lands 0x105 (fun z => z.tvec = v &&& ~~~1#64) ∧ lands 0x106 (fun z => z.ksegbase = v &&& ~~~31#64)
       ∧ lands 0x107 (fun z => z.kseglim = v) ∧ (∀ mb : Fin 4, takes (0x020 + mb.val) (fun t => (t.core c).mbUsed mb.val = 0)
         ∧ takes (0x024 + mb.val) (fun t => (t.core c).mbUsed mb.val = 0))
       ∧ package 0x200 (fun p => p.pmapsel = low 12) ∧ package 0x240 (fun p => p.bhsel = low 6) ∧ package 0x245 (fun p => p.winsel = low 4)
       ∧ package 0x248 (fun p => p.grpsel = low 4) ∧ package 0x24A (fun p => p.gbsel = low 10) ∧ package 0x250 (fun p => p.rascnt = v)
       ∧ package 0x259 (fun p => p.jrnlsel = low 14) ∧ package 0x25C (fun p => p.vfsel = low 7)
       ∧ (∀ p, n = 0x111 → 1 ≤ y.level → s.partOf c k = some p → ∃ t, Runs (.mtc a b) s t ∧ (t.slot c k).st = .blocked
           ∧ (t.slot c k).wait = .command ⟨4, [a, b], 0⟩ ∧ t.commands = s.commands ++ [⟨0x111, some p, v, c, k, y.gen, none⟩] ∧ (t.slot c k).pc = y.pc
           ∧ SameMemory s t ∧ SameRegisters s t)))
  ∧ (∀ (s : State) (c k bank : Nat) (hi size : Bool) (mb : BitVec 2) (v : Word),
     let x := s.core c
     let y := s.slot c k
     (∃ t w, Runs (.rotationWrite c hi v) s t ∧ w = (if hi then (t.core c).rothi else (t.core c).rotlo) ∧ w.toNat < 2 ^ 40 ∧ SameMemory s t ∧ SameRegisters s t
       ∧ (∀ i, i < 8 → bf w (5 * i + 4) (5 * i) = (if 16 ≤ bf v (5 * i + 4) (5 * i) then 31 else bf v (5 * i + 4) (5 * i)))
       ∧ (if hi then (t.core c).rotlo = x.rotlo else (t.core c).rothi = x.rothi) ∧ (∀ j, (t.core c).owner j = x.owner j))
     ∧ (∃ t, Runs (.sigctlWrite c k v) s t ∧ SameMemory s t ∧ SameRegisters s t ∧ SameOtherSlots s t c k
       ∧ (bf v 1 0 = 3 ∨ bf v 1 0 = bf y.sigctl 1 0 → (t.slot c k).sigctl = y.sigctl)
       ∧ (bf v 1 0 = 0 → bf y.sigctl 1 0 ≠ 0 → (t.slot c k).sigctl = 0)
       ∧ (bf v 1 0 ≠ 0 → bf v 1 0 ≠ 3 → bf v 1 0 ≠ bf y.sigctl 1 0 → bf (t.slot c k).sigctl 1 0 = bf v 1 0
           ∧ bf (t.slot c k).sigctl 3 2 = (if bf y.sigctl 1 0 = 0 then 1 else bf y.sigctl 3 2)))
     ∧ (∃ t, Runs (.mailboxConfigWrite c size mb v) s t ∧ SameMemory s t ∧ SameRegisters s t ∧ (t.core c).mbUsed mb.toNat = 0
       ∧ (let base := if size then x.mbBase mb.toNat else v.toNat / 256 % 2 ^ 11 * 256
          let sz := if size then v.toNat % 2 ^ 17 else x.mbSize mb.toNat
          x.mbBase mb.toNat = (x.mbbase[mbIx mb.toNat]).toNat → (t.core c).mbBase mb.toNat = base
           ∧ (t.core c).mbSize mb.toNat = (if sz % 256 = 0 ∧ sz ≤ 65536 ∧ base + sz ≤ 0x80000 then sz else 0))
       ∧ (∀ m, mbIx m ≠ mbIx mb.toNat → (t.core c).mbSize m = x.mbSize m ∧ (t.core c).mbUsed m = x.mbUsed m))
     ∧ (∃ t, Runs (.logConfigWrite c size v) s t ∧ SameMemory s t ∧ SameRegisters s t
       ∧ (let base := if size then x.logbase.toNat else v.toNat / 32 % 2 ^ 14 * 32
          let sz := if size then v.toNat % 2 ^ 17 else x.logsize.toNat % 2 ^ 17
          (t.core c).logbase.toNat = base ∧ (t.core c).logsize = BitVec.ofNat 64 (if sz % 32 = 0 ∧ sz ≤ 65536 ∧ base + sz ≤ 0x80000 then sz else 0)))
     ∧ (∃ t, Runs (.pinRelease c) s t ∧ ((t.core c).banks.getD bank Bank.reset).pinned = false ∧ SameMemory s t ∧ SameRegisters s t
       ∧ ((t.core c).banks.getD bank Bank.reset).powered = (x.banks.getD bank Bank.reset).powered)
     ∧ (∃ t, Runs (.xlat c k v) s t ∧ SameMemory s t ∧ SameRegisters s t ∧ SameOtherSlots s t c k
       ∧ (∀ p, s.partOf c k = some p →
         (∀ h, s.xlate p (bf v 18 4) = .at_ h → (t.slot c k).xlat = BitVec.ofNat 64 (2 ^ 63 + h * 16))
         ∧ (s.xlate p (bf v 18 4) = .held → (t.slot c k).xlat = 0x4000000000000000#64)
         ∧ (s.xlate p (bf v 18 4) = .outside → (t.slot c k).xlat = 0))))

/-- 15_system R402, R403, R404, R405. TRAP saves the pc after it, the code and segment 7, takes the kernel's segment 7, enters level 1 and
goes to the trap vector; it faults above level 0 and where no kernel segment is set. ERET puts segment 7 and the level back and goes to
the saved pc; it faults at level 0. SEGLD and SEGST move the sixteen segment registers of a slot; BKPT parks with its own class. -/
def Obligations.SupervisorEntryAndReturn : Prop :=
  ∀ (s : State) (d a b : Reg),
    let c := s.curCore
    let k := s.curSlot
    let y := s.cur
    let x := s.core c
    let others := fun (t : State) => SameOtherSlots s t c k ∧ SameRegisters s t ∧ SameMemory s t ∧ t.net = s.net
    let slot := (s.reg b).toNat % 16
    let z := s.slot c slot
    let gives := fun (ins : Instr) (v : Word) (q : State → Prop) => ∃ t, Runs ins s t ∧ lastReg t c k d = (if d = 0 then 0 else v) ∧ q t
    let words := fun (q : Slot) (ws : List Word) => ∀ i : Fin 8, q.segBase[i] = ws.getD (2 * i.val) 0 &&& ~~~31#64 ∧ q.segLim[i] = ws.getD (2 * i.val + 1) 0
    (y.level ≠ 0 → Faults (.trap a) s ⟨0x03, 1, 0, 0⟩)
    ∧ (s.Ready (scalars [a]) → y.level = 0 → x.kseglim.toNat % 2 ^ 58 = 0 → Faults (.trap a) s ⟨0x03, 2, 0, 0⟩)
    ∧ (s.Ready (scalars [a]) → y.level = 0 → x.kseglim.toNat % 2 ^ 58 ≠ 0 → s.CheckerOff c k → ∃ t, Runs (.trap a) s t ∧ others t
        ∧ (t.slot c k).epc = addOffset y.pc 4 ∧ (t.slot c k).ecause = BitVec.ofNat 64 ((s.reg a).toNat % 2 ^ 16)
        ∧ (t.slot c k).esegbase = y.segBase[7] ∧ (t.slot c k).eseglim = y.segLim[7] ∧ (t.slot c k).segBase[7] = x.ksegbase
        ∧ (t.slot c k).segLim[7] = x.kseglim ∧ (∀ i : Fin 8, i ≠ 7 → (t.slot c k).segBase[i] = y.segBase[i] ∧ (t.slot c k).segLim[i] = y.segLim[i])
        ∧ (t.slot c k).level = 1 ∧ bf (t.slot c k).privst 3 2 = 0 ∧ (t.slot c k).pc = x.tvec ∧ (t.slot c k).st = .run)
    ∧ (y.level = 0 → Faults .eret s ⟨0x03, 0, 0, 0⟩)
    ∧ (y.level ≠ 0 → s.CheckerOff c k → ∃ t, Runs .eret s t ∧ others t ∧ (t.slot c k).pc = y.epc &&& ~~~1#64 ∧ (t.slot c k).segBase[7] = y.esegbase
        ∧ (t.slot c k).segLim[7] = y.eseglim ∧ (y.level = 1 → (t.slot c k).level = (if bf y.privst 3 2 = 0 then 0 else 1)) ∧ (bf y.privst 1 0 = 2 → (t.slot c k).level = 2) ∧ (t.slot c k).st = .run)
    ∧ Faults .bkpt s ⟨0x05, 0, 0, 0⟩
    ∧ (y.level = 0 → Faults (.segld d a b) s ⟨0x03, 0, 0, 0⟩ ∧ Faults (.segst d a b) s ⟨0x03, 0, 0, 0⟩)
    ∧ (∀ pa, y.level ≠ 0 → s.Ready (scalars [d, a, b]) → s.CheckerOff c k → s.isHeld pa 128 = false → k < 16 → y.st = .run → isCore c = true →
        s.CanonicalMemory → x.landing = [] → pa + 128 ≤ 2 ^ 48 →
        let goes := fun (t : State) => Advanced s t c k 4 ∧ x.cycle + 12 ≤ (t.slot c k).readyAt ∧ SameMemory s t
        let at_ := fun (t : State) (n : Nat) => (t.modCore c (fun q => { q with cycle := q.cycle + n })).land c
        let stored := fun (t : State) (q : Nat) (ws : List Word) => goes t ∧ SameMemory s (at_ t 5) ∧ SameOutside s (at_ t 6) q 128
          ∧ ∀ i, i < 16 → (at_ t 6).readWord (q + 8 * i) = ws.getD i 0
        let record := spillAddr c slot + 0x80
        let clean := fun (ws : List Word) => (List.range 16).map (fun i => if i % 2 = 0 then ws.getD i 0 &&& ~~~31#64 else ws.getD i 0)
        let live := z.spilled = none ∧ (slot = k ∨ z.st = .parked ∨ z.st = .contained ∨ z.st = .lost ∨ z.st = .reserved)
        let busy := z.st = .spill ∨ z.st = .fill ∨ (z.spilled = none ∧ slot ≠ k ∧ (z.st = .run ∨ z.st = .blocked))
        (s.checkOwn c k (s.reg a) 8 128 [rightR] 0x21 = .ok pa →
          (live → z.st ≠ .spill → z.st ≠ .fill → gives (.segld d a b) 0 (fun t => goes t
              ∧ (t.core c).landing = [⟨x.cycle, k, x.cycle + 12, .segments slot (s.readWords pa 16)⟩]))
          ∧ (z.spilled ≠ none → z.st ≠ .spill → z.st ≠ .fill → s.isHeld record 128 = false →
              gives (.segld d a b) 0 (fun t => stored t record (clean (s.readWords pa 16))))
          ∧ (slot ≠ k → z.st = .free → z.spilled = none → gives (.segld d a b) 2 goes)
          ∧ (busy → gives (.segld d a b) 1 goes))
        ∧ (s.checkOwn c k (s.reg a) 8 128 [rightW] 0x21 = .ok pa →
          (live → z.st ≠ .spill → z.st ≠ .fill → gives (.segst d a b) 0 (fun t => stored t pa
              ((List.finRange 8).flatMap (fun i => [z.segBase[i], z.segLim[i]]))))
          ∧ (z.spilled ≠ none → z.st ≠ .spill → z.st ≠ .fill → s.isHeld record 128 = false →
              gives (.segst d a b) 0 (fun t => stored t pa (clean (s.readWords record 16))))
          ∧ (slot ≠ k → z.st = .free → z.spilled = none → gives (.segst d a b) 2 goes)
          ∧ (busy → gives (.segst d a b) 1 goes)))
    ∧ (∀ i due j ws, (s.slot c j).st ≠ .free → (s.slot c j).spilled = none →
        ∃ t, t = s.writeBack c ⟨i, k, due, .segments j ws⟩ ∧ words (t.slot c j) ws ∧ SameMemory s t ∧ SameOtherSlots s t c j)

/-- 15_system R412, R413; 03_strands R80, R89, R94. SLOTCTL: RESUME is a wake; SKIP first moves the pc past the instruction at it; KILL ends a
parked, contained or lost context, releasing a codelet's keys; RELEASE returns a contained or lost slot to RUN once it owes no generation. A command
that the slot's state does not allow changes nothing. Control space is open to level 2 and to threads of the core's partition: a read answers the
register, a record's doubleword, the slot's state or the dirty map; a write of a register or of the record of a parked, contained or lost slot takes
effect, one of SLOTCTL is its command, and another one is discarded; a thread of another partition is refused. That a package register reads as 0
and that its write is discarded, as of a slot's register, is the model's choice (log 67). -/
def Obligations.HandlersReachSlotsAndControlSpace : Prop :=
  (∀ (s : State) (c k : Nat),
     let y := s.slot c k
     let same := fun (t : State) => SameOtherSlots s t c k ∧ SameMemory s t
     let wakes := fun (i : Instr) (pc : Word) => ∃ t, Runs i s t ∧ same t ∧ t.net = s.net
       ∧ ((∃ q, y.park = some q ∧ q.kind = 1) → (t.slot c k).st = .run ∧ (t.slot c k).park = none)
       ∧ (¬(∃ q, y.park = some q ∧ q.kind = 1) → (t.slot c k).st = .parked ∧ (t.slot c k).park = y.park)
       ∧ { t.slot c k with st := y.st, park := y.park, spilled := y.spilled } = { y with pc := pc }
       ∧ (t.slot c k).spilled = y.spilled.map (fun o => { o with woken := true })
     (y.st = .parked → wakes (.slotctlResume c k) y.pc
       ∧ (∀ len, s.lengthAt c k = some len → wakes (.skip c k) (addOffset y.pc (BitVec.ofNat 64 len)))
       ∧ (s.lengthAt c k = none → Runs (.skip c k) s s))
     ∧ (y.st ≠ .parked → Runs (.slotctlResume c k) s s ∧ Runs (.skip c k) s s)
     ∧ (y.st = .parked ∨ y.st = .contained ∨ y.st = .lost →
       let after := fun (t : State) => (t.slot c k).gen = y.gen ∧ (t.slot c k).outst = y.outst
         ∧ (t.slot c k).st = (match y.spilled with | none => .free | some o => if o.woken then .fill else .reserved)
       (∃ t, Runs (.kill c k) s t ∧ after t)
       ∧ (y.origin.disp = false → ∃ t, Runs (.kill c k) s t ∧ after t ∧ same t ∧ t.net = s.net)
       ∧ (y.origin.disp = true → y.origin.ring = false → y.posted = [] → ∃ t, Runs (.kill c k) s t ∧ after t ∧ same t
           ∧ t.net = s.net ++ y.origin.keys.map (fun key => s.keyReleasePacket c k y.origin.keyns key)))
     ∧ (y.st ≠ .parked → y.st ≠ .contained → y.st ≠ .lost → Runs (.kill c k) s s)
     ∧ (y.st = .contained ∨ y.st = .lost →
       (y.owes = true → Runs (.release c k) s s)
       ∧ (y.owes = false → ∃ t, Runs (.release c k) s t ∧ same t ∧ t.net = s.net ∧ t.slot c k = { y with st := .run, park := none, wait := .none }))
     ∧ (y.st ≠ .contained → y.st ≠ .lost → Runs (.release c k) s s))
  ∧ (∀ (s s1 : State) (n : Nat) (m : Msg) (write : Bool) (off : Nat) (v : Word) (level : Nat), s.pick n = some (m, s1) →
     m.body = .control write off v level → s.isAbsent m = false → m.src < 32768 →
     let c := m.dst
     let reply := fun (st : Status) (w : Word) => { m with src := c, dst := m.src, held := none, body := Body.dataReply st (w.setWidth 256) 0 }
     let ack := fun (st : Status) (e : Nat) => { m with src := c, dst := m.src, held := none, body := Body.ack st e (s1.msgGa m) 0 }
     let answers := fun (st : Status) (w : Word) => ∃ t, Runs (.controlSpaceAccess n) s t ∧ SameMemory s t ∧ SameRegisters s t
       ∧ t.net = s.net.eraseIdx n ++ [reply st w]
     let open_ := level = 2 ∨ (m.part ≠ none ∧ m.part = s.corePart c)
     (level ≠ 2 → m.part = none ∨ m.part ≠ s.corePart c → s.controlHeld m = false → (m.post = none → answers .foreign 0)
       ∧ ∀ e, m.post = some e → ∃ t, Runs (.controlSpaceAccess n) s t ∧ SameMemory s t ∧ SameRegisters s t ∧ t.net = s.net.eraseIdx n ++ [ack .foreign e])
     ∧ (open_ → write = false → m.post = none →
       (∀ r, off = 8 * r → r < 0x400 → coreRegister r = true → answers .done (s.readCoreCtl c r))
       ∧ (∀ r, off = 8 * r → r < 0x400 → coreRegister r = false → partRegister r = false → answers .done 0)
       ∧ (∀ j i, j < 16 → i < 128 → off = 0x10000 + 0x800 * j + 8 * i → answers .done ((s.slot c j).record.getD i 0))
       ∧ (∀ j, j < 16 → off = 0x10400 + 0x800 * j → answers .done (s.slot c j).statew)
       ∧ (∀ i, i < 4 → off = 0x20000 + 8 * i → answers .done (((s.core c).dirty >>> (64 * i)).setWidth 64)))
     ∧ (open_ → write = true →
       let closes := fun (t : State) => Runs (.controlSpaceAccess n) s t ∧ SameMemory s t ∧ (m.post = none → t.net.getLast? = some (reply .done 0))
         ∧ ∀ e, m.post = some e → t.net.getLast?.map (fun x => (x.src, x.dst)) = some (c, m.src)
       (off = 8 * 0x105 → ∃ t, closes t ∧ (t.core c).tvec = v &&& ~~~1#64)
       ∧ (off = 8 * 0x106 → ∃ t, closes t ∧ (t.core c).ksegbase = v &&& ~~~31#64)
       ∧ (off = 8 * 0x107 → ∃ t, closes t ∧ (t.core c).kseglim = v)
       ∧ (∀ j i, j < 16 → i < 128 → off = 0x10000 + 0x800 * j + 8 * i →
         let y := s.slot c j
         (y.recordOpen = true → ∃ t, closes t ∧ (t.slot c j).st = y.st ∧ (∀ r : Fin 16, r.val ≠ 0 → (t.slot c j).p[r] = if r.val = i + 1 then v else y.p[r])
             ∧ (i = 15 → (t.slot c j).pc = v &&& ~~~1#64)
             ∧ (bf (t.slot c j).privst 1 0 = 2 ↔ bf y.privst 1 0 = 2)
             ∧ (i = 107 → bf y.privst 1 0 ≠ 2 → bf (t.slot c j).privst 1 0 = (if bf v 1 0 = 0 then 0 else 1) ∧ bf (t.slot c j).privst 3 2 = bf v 3 2)
             ∧ (i = 108 → (t.slot c j).epc = v))
         ∧ (y.recordOpen = false → ∃ t, closes t ∧ t.slot c j = y))
       ∧ (∀ j, j < 16 → off = 0x10400 + 0x800 * j → s.controlHeld m = false →
         let y := s.slot c j
         (y.st = .parked → v = 1 → ∃ t, closes t ∧ t.slot c j = y.receiveWake (s.core c).cycle)
         ∧ (y.st = .contained ∨ y.st = .lost → v = 4 → ∃ t, closes t ∧ t.slot c j = { y with st := .run, park := none, wait := .none })
         ∧ (s.slotCommand c j v = none → ∃ t, closes t ∧ t.slot c j = y))))

/-- 07_access R202, R206, R207; 08_messages R219; 15_system R416. A message for a held core joins its partition's overflow queue, SEND being answered
HELD; when its bulkhead is mapped the oldest goes to the physical core behind what its source has on the way there, again after 256 fc where it was
refused; a fault record joins its partition's queue at FQHEAD, or advances FQDROP when the queue is closed or full. A walk starts at its root, or at a
table that the pointer cache knows below that root (32 entries and the root's part in them: log 10), after every walk that was asked for earlier, and
reads a table a step, each through its channel; its leaf enters the TLB, nothing being replaced while its set has room, its pointers enter the cache,
and its thread issues again. That the record of no partition has no queue (log 13) and that a refused message keeps every later one of the queue
back (log 54) are the model's choice. -/
def Obligations.HandlersQueuesAndWalks : Prop :=
  (∀ (s : State) (n p vbh : Nat) (m : Msg),
     let x := s.part p
     (∀ v, s.net[n]? = some m → m.held = some v → m.part = some p → (s.net.take n).any (fun y => y.src == m.src && y.dst == m.dst) = false →
       (s.offRoute m = true → ∃ t, Runs (.heldMessageAppend n) s t ∧ (t.part p).overflow = x.overflow ∧ SameMemory s t ∧ SameRegisters s t) ∧
       (s.offRoute m = false → 65536 ≤ x.overflow.length → Runs (.heldMessageAppend n) s s)
       ∧ (s.offRoute m = false → x.overflow.length < 65536 → ∃ t, Runs (.heldMessageAppend n) s t ∧ (t.part p).overflow = x.overflow ++ [m] ∧ SameMemory s t ∧ SameRegisters s t
         ∧ (∀ a len, m.body = .load a len → t.net = s.net.eraseIdx n)
         ∧ (∀ mb ws bad, m.body = .mail mb ws false bad → m.src < 32768 → t.net = s.net.eraseIdx n ++
             [{ m with src := m.dst, dst := m.src, held := none, post := none, body := .msgStatus 5 }])))
     ∧ (∀ i v h a len, x.oldestFor vbh = some i → x.overflow[i]? = some m → m.held = some v → x.mappedCore v = some h → h < 32768 → m.body = .load a len →
       let goes := fun (t : State) => (t.part p).overflow = x.overflow.eraseIdx i ∧ SameMemory s t ∧ SameRegisters s t
         ∧ t.net = s.net ++ [{ m with dst := h, held := none, via := some (overflowCore p), body := .load (scratchAddr h (scratchOff a)) len }]
       let behind := x.retryAhead i vbh = true ∨ (s.core h).heldPush.any (fun e => match e.2 with | some y => y.src == m.src | none => false) = true ∨ s.net.any (fun y => y.src == m.src && y.dst == h) = true
       (x.retryAt.find vbh = none → (behind → Runs (.overflowQueueDelivery p vbh) s s) ∧ (¬behind → ∃ t, Runs (.overflowQueueDelivery p vbh) s t ∧ goes t))
       ∧ (∀ due, x.retryAt.find vbh = some due → Runs (.overflowQueueDelivery p vbh) s s ∧ (s.fc < due ∨ behind → Runs (.overflowRetry p vbh) s s)
           ∧ (due ≤ s.fc → ¬behind → ∃ t, Runs (.overflowRetry p vbh) s t ∧ goes t)))
     ∧ (∀ f, s.faultRecs[n]? = some f → (s.faultRecs.take n).any (fun g => g.sameAgent f) = false →
       let head := x.fqhead.toNat % 2 ^ 48
       let used := (head + 2 ^ 48 - x.fqtail.toNat % 2 ^ 48) % 2 ^ 48
       (f.part = none → ∃ t, Runs (.faultQueueAppend n) s t ∧ t.faultRecs = s.faultRecs.eraseIdx n ∧ SameMemory s t)
       ∧ (f.part = some p → x.fqEntries = 0 ∨ used = x.fqEntries → ∃ t, Runs (.faultQueueAppend n) s t ∧ t.faultRecs = s.faultRecs.eraseIdx n
           ∧ (t.part p).fqdrop = BitVec.ofNat 64 ((x.fqdrop.toNat % 2 ^ 32 + 1) % 2 ^ 32) ∧ (t.part p).fqhead = x.fqhead ∧ SameMemory s t)
       ∧ (∀ pa, f.part = some p → x.fqEntries ≠ 0 → used ≠ x.fqEntries → s.CanonicalMemory →
           s.translateNow (some p) 1 (BitVec.ofNat 48 (bf x.fqbase 47 6 * 64 + 64 * (head % x.fqEntries))) 1 = .ok pa → s.coreAbsent (homeOf pa) = false →
           (∀ i, i < 7 → s.rowRetired (pa + 8 * i) = false) → f.payload.length = 6 → ∃ t, Runs (.faultQueueAppend n) s t
           ∧ t.faultRecs = s.faultRecs.eraseIdx n ∧ t.readWords pa 7 = f.header :: f.payload ∧ SameOutside s t pa 56
           ∧ (t.part p).fqhead = BitVec.ofNat 64 ((head + 1) % 2 ^ 48))))
  ∧ (∀ (s : State) (c cls p : Nat) (va : BitVec 48) (w : Walk) (r : WalkReq) (rest : List WalkReq),
     let cl := clusterOf c
     let u := s.cluster cl
     let root := if w.cls = 1 then (s.part p).ptroot1 else (s.part p).ptroot2
     let first := root.toNat / 2 ^ 12 % 2 ^ 36 * 2 ^ 12
     let o := w.table + walkIndex w.level w.va * 8
     let a := 2 ^ 48 + o
     let x : Access := ⟨r.core, a, .walk cl w.cls w.va⟩
     let bank := (s.channel (homeOf a)).bank (hbmBank a)
     let becomes := fun (w2 : Walk) => ∃ t, Runs (.pageTableWalk c cls va) s t ∧ (t.cluster cl).walks = u.walks.map (fun z => if z = w then w2 else z)
       ∧ (t.cluster cl).tlb = u.tlb ∧ SameMemory s t ∧ SameRegisters s t
     (u.walks.take 16).find? (fun z => z.cls == cls && z.va == va) = some w → w.reqs = r :: rest → s.partOf r.core r.slot = some p →
     (w.level = 0 → root.getLsbD 0 = true →
       let earlier := (u.walks.takeWhile (fun z => z != w)).any (fun z => z.level == 0)
       (earlier = true → Runs (.pageTableWalk c cls va) s s)
       ∧ (earlier = false → (∀ z ∈ u.ptrs, z.root ≠ first) → becomes { w with level := 1, table := first })
       ∧ (∀ e, earlier = false → e ∈ u.ptrs → e.level = 4 → e.root = first → e.covers w.cls w.va = true →
           (∀ z ∈ u.ptrs, z.level = 4 → z.root = first → z.covers w.cls w.va = true → z = e) → becomes { w with level := 4, table := e.base }))
     ∧ (w.level ≠ 0 → capacityOk 1 o = true → s.coreAbsent (homeOf a) = false → addrClass a = 1 →
       (bank.serving = none → (s.channel (homeOf a)).waiting.contains x = false → Runs (.pageTableWalk c cls va) s (s.queueAccess x))
       ∧ (∀ due, bank.serving = some (x, due) → (s.core (homeOf a)).cycle < due → Runs (.pageTableWalk c cls va) s s)
       ∧ (∀ due, bank.serving = some (x, due) → due ≤ (s.core (homeOf a)).cycle →
         (∀ table, walkRead s w.cls w.va w.level w.table = .table table →
           let z : Pointer := ⟨w.cls, first, w.level + 1, 0, table⟩
           becomes { w with level := w.level + 1, table := table, seen := w.seen ++ [{ z with top := w.va.toNat / z.span }] })
         ∧ (∀ e, walkRead s w.cls w.va w.level w.table = .leaf e → rest = [] → w.keep = true → s.reqWaits r = true →
             (∀ cause lv, s.permit e r.va r.access ≠ .fault cause lv) → u.walkReqs.length < 256 →
             (u.tlb.filter (fun z => z.set == e.set)).length < 8 →
             ∃ t, Runs (.pageTableWalk c cls va) s t ∧ (t.cluster cl).walks = u.walks.erase w ∧ { e with used := s.tick } ∈ (t.cluster cl).tlb
               ∧ (∀ z ∈ u.tlb, (z.cls, z.big, z.vbase) ≠ (e.cls, e.big, e.vbase) → z ∈ (t.cluster cl).tlb)
               ∧ (u.ptrs.length + w.seen.length ≤ 32 → (t.cluster cl).ptrs = u.ptrs ++ w.seen)
               ∧ (t.slot r.core r.slot).st = .run ∧ (t.slot r.core r.slot).pc = (s.slot r.core r.slot).pc ∧ SameMemory s t ∧ SameRegisters s t))))

/-! ### Partition registers and commands -/

/-- 15_system R406, R410, R411, R416; 07_access R209; 13_tasks R342, R343. A write to a partition register gives it the bits it has: the fault
queue is emptied by a write to its place or size and its tail is kept within it, the lineage ring starts again. TLBINV removes the named
translations and pointers of the partition's CTUs once nothing uses them. QCFG sets a capacity that holds the entries. An RCB is admitted
under its parent, or refused with the code of what it gets wrong; a withdrawn one stays listed. A GA names an RCB by 0xFFF and by this package's own
number alike (01_machine R26). The model's choices: CODE 4 for a level-0 RCB that is no root and CODE 8 under a withdrawn parent (log 31), QCFG's
result for a code other than 0 and what LINSIZE forgets (log 36), and the journal's FUNC 1 where no thread wrote (logs 32 and 89). -/
def Obligations.PartitionRegistersAndAdmission : Prop :=
  ∀ (s : State) (p : Nat) (v : Word), s.commands = [] →
    let x := s.part p
    let becomes := fun (i : Instr) (y : Part) => Runs i s (s.modPart p (fun _ => y))
    let head := x.fqhead.toNat % 2 ^ 48
    let tail := v.toNat % 2 ^ 48
    let ends := fun (i : Instr) (reg code : Nat) (y : Part) => ∃ t, Runs i s t ∧ t.part p = y ∧ t.mem = (s.journalEntry reg v code 1).mem ∧ SameRegisters s t
    let named := fun (e : TlbEntry) => e.cls = v.toNat / 2 ^ 58 % 4 ∧ (v.getLsbD 63 = true ∨ (if e.big then e.vbase / 32 = v.toNat / 2 ^ 21 % 2 ^ 27
      else e.vbase = v.toNat / 2 ^ 16 % 2 ^ 32))
    let namedPointer := fun (e : Pointer) => e.cls = v.toNat / 2 ^ 58 % 4 ∧ (v.getLsbD 63 = true ∨ e.top = v.toNat % 2 ^ 48 / e.span)
    becomes (.partitionRegisterWrite p 0x110 v) { x with srseed := v }
    ∧ becomes (.partitionRegisterWrite p 0x111 v) { x with ptroot1 := v &&& 0x0000FFFFFFFFF001#64 }
    ∧ becomes (.partitionRegisterWrite p 0x112 v) { x with ptroot2 := v &&& 0x0000FFFFFFFFF001#64 }
    ∧ becomes (.partitionRegisterWrite p 0x117 v) { x with fqdrop := x.fqdrop &&& ~~~v }
    ∧ becomes (.partitionRegisterWrite p 0x118 v) { x with linbase := v &&& 0x0000FFFFFFFFFFE0#64 }
    ∧ becomes (.partitionRegisterWrite p 0x11D v) { x with ctxarea := v &&& 0x0000FFFFFFFF0000#64 }
    ∧ becomes (.faultQueueConfigWrite p false v) { x with fqbase := v &&& 0x0000FFFFFFFFFFC0#64, fqhead := 0, fqtail := 0 }
    ∧ becomes (.faultQueueConfigWrite p true v) { x with fqsize := v &&& 31#64, fqhead := 0, fqtail := 0 }
    ∧ becomes (.fqtailWrite p v) { x with fqtail := BitVec.ofNat 64 (if head < tail then head else if tail + x.fqEntries < head then head - x.fqEntries else tail) }
    ∧ becomes (.linsizeWrite p v) { x with linsize := v &&& 31#64, linhead := 0, linOpen := [] }
    ∧ (v.toNat / 2 ^ 58 % 4 = 0 ∨ v.toNat / 2 ^ 58 % 4 = 3 → becomes (.tlbinv p v) { x with tlbinvR := 2 })
    ∧ (v.toNat / 2 ^ 58 % 4 = 1 ∨ v.toNat / 2 ^ 58 % 4 = 2 →
        (s.tlbBusy p v = true → Runs (.tlbinv p v) s s)
        ∧ (s.tlbBusy p v = false → ∃ t, Runs (.tlbinv p v) s t ∧ t.part p = { x with tlbinvR := 0 } ∧ SameMemory s t ∧ SameRegisters s t
            ∧ (∀ cl e, e ∈ (t.cluster cl).tlb ↔ e ∈ (s.cluster cl).tlb ∧ ¬(s.clusterIn p cl = true ∧ named e))
            ∧ ∀ cl e, e ∈ (t.cluster cl).ptrs ↔ e ∈ (s.cluster cl).ptrs ∧ ¬(s.clusterIn p cl = true ∧ namedPointer e)))
    ∧ (let q := v.toNat % 1024
       let cap := v.toNat / 1024 % 2 ^ 21
       let h := x.queues.getD q HwQueue.reset
       let result := fun (code : Nat) => BitVec.ofNat 64 (code + h.capacity * 2 ^ 32)
       (2 ^ 20 < cap → ends (.qcfg p v) 0x11B 2 { x with qcfgR := result 2 })
       ∧ (cap ≤ 2 ^ 20 → cap < h.entries.length → ends (.qcfg p v) 0x11B 3 { x with qcfgR := result 3 })
       ∧ (cap ≤ 2 ^ 20 → h.entries.length ≤ cap →
            ends (.qcfg p v) 0x11B 0 { x with qcfgR := result 0, queues := x.queues.put q { h with capacity := cap } }))
    ∧ (v.getLsbD 0 = false → v.toNat % 256 ≠ 0 → ends (.rcbAdmit p v) 0x11C 2 { x with rcbadmR := 2 })
    ∧ (∀ pa, v.toNat % 256 = 0 → gaClass v = 1 → s.isOwnPkg (gaPkg v) = true → s.physical (some p) v 0 = some pa → s.coreAbsent (homeOf pa) = false →
        s.isPoisoned pa 256 = false →
        let g := fun (i : Nat) => (s.readWords pa 32).getD i 0
        let level := (g 0).toNat % 8
        let refuse := fun (code : Nat) => ends (.rcbAdmit p v) 0x11C code { x with rcbadmR := BitVec.ofNat 64 code }
        let root := sameRcb v x.root = true
        (level = 0 → ¬root → refuse 4)
        ∧ (level = 0 → root → (g 0).toNat / 2 ^ 16 % 4 = 3 → refuse 7)
        ∧ (level = 0 → root → (g 0).toNat / 2 ^ 16 % 4 ≠ 3 → ∃ t r, Runs (.rcbAdmit p v) s t ∧ (t.part p).rcbAt v = some r ∧ (t.part p).rcbadmR = 0
            ∧ r.level = 0 ∧ r.prio = (g 0).toNat / 16 % 16 ∧ r.bhmask = g 2 ∧ r.cores = (g 3).toNat % 2 ^ 32 ∧ r.share = (g 3).toNat / 2 ^ 32 % 256
            ∧ r.withdrawn = false ∧ ∀ ga, sameRcb ga v = false → (t.part p).rcbAt ga = x.rcbAt ga)
        ∧ (level ≠ 0 → s.isOwnPkg (gaPkg (g 1)) = false ∨ x.rcbAt (g 1) = none → refuse 8)
        ∧ (∀ up, level ≠ 0 → s.isOwnPkg (gaPkg (g 1)) = true → x.rcbAt (g 1) = some up →
            let own := fun (i : Nat) => (g 0).getLsbD (8 + i)
            let mask := if own 0 then g 2 else up.bhmask
            let cores := if own 1 then (g 3).toNat % 2 ^ 32 else up.cores
            let share := if own 2 then (g 3).toNat / 2 ^ 32 % 256 else up.share
            let mode := if own 7 then (g 0).toNat / 2 ^ 16 % 4 else up.sigmode
            (up.withdrawn = true → refuse 8)
            ∧ (up.withdrawn = false → level ≠ up.level + 1 → refuse 4)
            ∧ (up.withdrawn = false → level = up.level + 1 → mask &&& ~~~up.bhmask ≠ 0 → refuse 5)
            ∧ (up.withdrawn = false → level = up.level + 1 → mask &&& ~~~up.bhmask = 0 → up.cores < cores ∨ up.share < share → refuse 6)
            ∧ (up.withdrawn = false → level = up.level + 1 → mask &&& ~~~up.bhmask = 0 → cores ≤ up.cores → share ≤ up.share → mode = 3 → refuse 7)
            ∧ (up.withdrawn = false → level = up.level + 1 → mask &&& ~~~up.bhmask = 0 → cores ≤ up.cores → share ≤ up.share → mode ≠ 3 →
                ∃ t r, Runs (.rcbAdmit p v) s t ∧ (t.part p).rcbAt v = some r ∧ (t.part p).rcbadmR = 0 ∧ r.level = level ∧ r.parent = g 1 ∧ r.bhmask = mask
                  ∧ r.cores = cores ∧ r.share = share ∧ r.sigmode = mode ∧ r.prio = (if own 3 then (g 0).toNat / 16 % 16 else up.prio)
                  ∧ r.withdrawn = false ∧ ∀ ga, sameRcb ga v = false → (t.part p).rcbAt ga = x.rcbAt ga)))
    ∧ (let ga := v &&& ~~~255#64
       v.getLsbD 0 = true →
       (v.toNat / 2 % 128 ≠ 0 ∨ s.isOwnPkg (gaPkg ga) = false ∨ x.admitted ga = false → ends (.rcbWithdraw p v) 0x11C 2 { x with rcbadmR := 2 })
       ∧ (∀ r, v.toNat / 2 % 128 = 0 → s.isOwnPkg (gaPkg ga) = true → x.rcbAt ga = some r → r.withdrawn = false → ∃ t, Runs (.rcbWithdraw p v) s t
           ∧ (t.part p).rcbAt ga = some { r with withdrawn := true } ∧ (t.part p).rcbadmR = 0
           ∧ ∀ g, sameRcb g ga = false → (t.part p).rcbAt g = x.rcbAt g))
    ∧ (∀ m, sameRcb ((v &&& 0xF000FFFFFFFFFFFF#64) ||| BitVec.ofNat 64 (m % 4096 * 2 ^ 48)) v = true)

/-- 15_system R410, R411, R421, R422, R427, R428; 16_package R432, R433, R434. PREEMPT halts the mapped virtual bulkheads of an admitted RCB,
and once they are drained leaves their cores empty; RESUME brings back the held ones. PMAPDAT writes a map entry and moves the ownership
of a bulkhead with it. CREATE maps a free rectangle, admits the root and starts the first strand; DESTROY and RELEASE halt first where
anything is mapped; EXTEND only grows; MCBIND binds a memory core whose user slots are FREE. The model's choices: CODE 2 for a withdrawn RCB (log 31),
CODE 2 of DESTROY and RELEASE and what is freed at once (log 33), the ownership that PMAPDAT moves (log 34), that RESUME looks for unmapped entries
in the partition's rectangle alone (log 30), and what an emptied slot holds (log 56). -/
def Obligations.RegionsAndPartitions : Prop :=
  ∀ (s : State) (p v b : Nat) (w : Word), s.commands = [] →
    let x := s.part p
    let y := s.part (w.toNat / 16 % 64)
    let entryIs := fun (t : State) (q u st bh : Nat) => entryState ((t.part q).entry u) = st ∧ (t.part q).pbh u = bh
    let code := fun (i : Instr) (n : Nat) => ∃ t, Runs i s t ∧ t.parts = s.parts ∧ t.bulkheads = s.bulkheads ∧ t.channels = s.channels ∧ SameRegisters s t
      ∧ (i = .create w ∨ i = .destroy w ∨ i = .extend w ∨ i = .releaseVirtualBulkhead w → t.pkg.partctlR = BitVec.ofNat 64 n)
      ∧ (i = .mcbindBind w ∨ i = .mcbindUnbind w → t.pkg.mcbindR = BitVec.ofNat 64 n)
    let halts := fun (i : Instr) (reg q : Nat) (subject : Option Nat) (vs : List Nat) => ∃ t, Runs i s t
      ∧ t.commands = [⟨reg, subject, w, 32767, 0, 16, some vs⟩] ∧ (∀ u ∈ vs, entryIs t q u 2 ((s.part q).pbh u))
      ∧ (∀ u ∈ vs, ∀ c ∈ bulkheadCores ((s.part q).pbh u), (t.core c).halted = true)
    (∀ r, s.rcbNamed p w = some r → r.withdrawn = true → (∃ t, Runs (.preempt p w) s t ∧ t.part p = { x with preemptR := 2 })
        ∧ (∃ t, Runs (.resume p w) s t ∧ t.part p = { x with resumeR := 2 }))
    ∧ (s.rcbNamed p w = none → (∃ t, Runs (.preempt p w) s t ∧ t.part p = { x with preemptR := 2 })
        ∧ (∃ t, Runs (.resume p w) s t ∧ t.part p = { x with resumeR := 2 }))
    ∧ (∀ r, s.rcbNamed p w = some r → r.withdrawn = false → w.toNat % 256 = 0 → s.ownMapped p r.bhmask ≠ [] →
        halts (.preempt p w) 0x11E p (some p) (s.ownMapped p r.bhmask))
    ∧ (∀ mask u, u ∈ s.ownMapped p mask ↔ u < 64 ∧ mask.getLsbD u = true ∧ entryState (x.entry u) = 1 ∧ (s.bulkhead (x.pbh u)).owner = some p)
    ∧ (v < 64 → b < 64 → let q := { s with commands := [⟨0x11E, some p, w, 32767, 0, 16, some [v]⟩] }
        x.entry v = BitVec.ofNat 8 (128 + b) →
        (q.drained p [v] = false → Runs (.preempt p w) q q)
        ∧ (q.drained p [v] = true → ∃ t, Runs (.preempt p w) q t ∧ t.commands = [] ∧ (t.part p).preemptR = BitVec.ofNat 64 (256 * 2 ^ 16)
            ∧ entryIs t p v 2 b ∧ ∀ c ∈ bulkheadCores b, (t.core c).halted = false ∧ ∀ k, (t.slot c k).st = .free ∧ (t.slot c k).p = Vector.replicate 16 0))
    ∧ (∀ r, s.rcbNamed p w = some r → r.withdrawn = false → w.toNat % 256 = 0 → (∀ u, u < 64 → entryState (x.entry u) = 0 → x.inRectangle u = true → bit r.bhmask u = false) →
        x.inState r.bhmask 2 = [v] →
        (s.reservedFor p (x.pbh v) = false → ∃ t, Runs (.resume p w) s t ∧ t.part p = { x with resumeR := 3 })
        ∧ (s.reservedFor p (x.pbh v) = true → s.canLand (x.landing [v]) = true → ∃ t lost, Runs (.resume p w) s t ∧ lost ≤ 256 ∧ entryIs t p v 1 (x.pbh v)
            ∧ (t.part p).resumeR = BitVec.ofNat 64 ((256 - lost) * 2 ^ 16 + lost * 2 ^ 32) ∧ ∀ c ∈ bulkheadCores v, (t.core (moveCore c (x.pbh v))).halted = false))
    ∧ (v < 64 → entryState (x.entry v) ≠ 2 → let now := w.toNat / 64 % 4
        let bh := w.toNat % 64
        ∃ t, Runs (.pmapdatWrite p v w) s t ∧ (t.part p).entry v = w.setWidth 8 ∧ (∀ u, u ≠ v → (t.part p).entry u = x.entry u) ∧ SameMemory s t ∧ SameRegisters s t
          ∧ (now = 1 ∨ now = 2 → (s.bulkhead bh).owner = none → (t.bulkhead bh).owner = some p)
          ∧ (now = 0 → (s.bulkhead (x.pbh v)).owner = some p → (∀ u, u < 64 → u ≠ v → entryState (x.entry u) = 0 ∨ x.pbh u ≠ x.pbh v) →
              (t.bulkhead (x.pbh v)).owner = none))
    ∧ (w.toNat % 16 = 1 → let rect := createRectangle w
        let pa := 2 ^ 48 + w.toNat / 2 ^ 24 * 256
        let ws := s.readWords pa 32
        let z := createPart w ws
        (y.used = true → code (.create w) 3)
        ∧ (∀ e ∈ rect, (s.bulkhead e.2).owner.isSome = true → code (.create w) 3)
        ∧ (y.used = false → w.toNat / 2 ^ 10 % 8 + (w.toNat / 2 ^ 16 % 8 + 1) ≤ 8 → w.toNat / 2 ^ 13 % 8 + (w.toNat / 2 ^ 19 % 8 + 1) ≤ 8 →
            (∀ e ∈ rect, (s.bulkhead e.2).owner = none) → (∃ e ∈ rect, (s.bulkhead e.2).absent = true) → code (.create w) 4)
        ∧ (∀ c, y.used = false → w.toNat / 2 ^ 10 % 8 + (w.toNat / 2 ^ 16 % 8 + 1) ≤ 8 → w.toNat / 2 ^ 13 % 8 + (w.toNat / 2 ^ 19 % 8 + 1) ≤ 8 →
            (∀ e ∈ rect, (s.bulkhead e.2).owner = none ∧ (s.bulkhead e.2).absent = false) → capacityOk 1 (w.toNat / 2 ^ 24 * 256) = true →
            s.coreAbsent (homeOf pa) = false → s.isPoisoned pa 256 = false → coreXlate z ((ws.getD 17 0).toNat / 16 % 2 ^ 15) = .at_ c →
            ((s.modPart (w.toNat / 16 % 64) (fun _ => z)).admitRcb (w.toNat / 16 % 64) z.root).2 = 0 →
            ∃ t, Runs (.create w) s t ∧ t.pkg.partctlR.toNat % 256 = 0 ∧ (t.part (w.toNat / 16 % 64)).used = true
              ∧ (∀ e ∈ rect, entryIs t (w.toNat / 16 % 64) e.1 1 e.2 ∧ (t.bulkhead e.2).owner = some (w.toNat / 16 % 64))
              ∧ (t.part (w.toNat / 16 % 64)).srseed = ws.getD 20 0 ∧ (t.part (w.toNat / 16 % 64)).fqhead = 0 ∧ (t.slot c 0).st = .run ∧ (t.slot c 0).pc = ws.getD 16 0 &&& ~~~1#64
              ∧ (t.slot c 0).privst = 1 ∧ (t.slot c 0).rcbptr = ws.getD 21 0 &&& ~~~255#64 ∧ (t.slot c 0).p = Vector.replicate 16 0
              ∧ ∀ i : Fin 8, (t.slot c 0).segBase[i] = ws.getD (2 * i.val) 0 &&& ~~~31#64 ∧ (t.slot c 0).segLim[i] = ws.getD (2 * i.val + 1) 0))
    ∧ (w.toNat % 16 = 2 →
        (y.used = false → code (.destroy w) 2)
        ∧ (let own := s.ownMapped (w.toNat / 16 % 64) (-1)
        (y.used = true → own ≠ [] → halts (.destroy w) 0x202 (w.toNat / 16 % 64) none own)
        ∧ (y.used = true → own = [] → ∃ t, Runs (.destroy w) s t ∧ t.part (w.toNat / 16 % 64) = Part.reset ∧ t.pkg.partctlR = 0
            ∧ ((∀ e ∈ s.channels, e.2.bound ≠ some (w.toNat / 16 % 64)) → SameRegisters s t)
            ∧ (∀ e ∈ s.channels, e.2.bound = some (w.toNat / 16 % 64) → ∀ k, 8 ≤ k → k < 16 → (t.slot e.1 k).st = .free)
            ∧ ∀ h, (s.bulkhead h).owner = some (w.toNat / 16 % 64) → (t.bulkhead h).owner = none)))
    ∧ (w.toNat % 16 = 3 → let h := w.toNat / 2 ^ 16 % 8 + 1
        let wd := w.toNat / 2 ^ 19 % 8 + 1
        (y.used = false → code (.extend w) 2)
        ∧ (y.used = true → h < y.height ∨ wd < y.width → code (.extend w) 3)
        ∧ (y.used = true → y.height ≤ h → y.width ≤ wd → ∃ t, Runs (.extend w) s t ∧ t.part (w.toNat / 16 % 64) = { y with height := h, width := wd }
            ∧ t.pkg.partctlR = 0 ∧ SameRegisters s t))
    ∧ (w.toNat % 16 = 4 → let u := w.toNat / 2 ^ 24 % 64
        (y.used = false ∨ entryState (y.entry u) = 0 → code (.releaseVirtualBulkhead w) 2)
        ∧ (y.used = true → entryState (y.entry u) = 1 → halts (.releaseVirtualBulkhead w) 0x202 (w.toNat / 16 % 64) none [u])
        ∧ (y.used = true → entryState (y.entry u) = 2 → (s.bulkhead (y.pbh u)).owner = some (w.toNat / 16 % 64) → ∃ t, Runs (.releaseVirtualBulkhead w) s t
            ∧ (t.bulkhead (y.pbh u)).owner = none ∧ t.pkg.partctlR = 0 ∧ entryIs t (w.toNat / 16 % 64) u 2 (y.pbh u) ∧ SameRegisters s t))
    ∧ (let mc := carafeCore (w.toNat / 32 % 8) (w.toNat % 32)
       let q := w.toNat / 256 % 64
       let free := ∀ k, k < 16 → 8 ≤ k → (s.slot mc k).st = .free
       (w.getLsbD 14 = true → (s.coreAbsent mc = true ∨ (s.part q).used = false → code (.mcbindBind w) 2)
         ∧ (s.coreAbsent mc = false → (s.part q).used = true → ¬free → code (.mcbindBind w) 1)
         ∧ (s.coreAbsent mc = false → (s.part q).used = true → free → ∃ t, Runs (.mcbindBind w) s t ∧ (t.channel mc).bound = some q ∧ t.pkg.mcbindR = 0 ∧ SameRegisters s t))
       ∧ (w.getLsbD 14 = false → (s.coreAbsent mc = true → code (.mcbindUnbind w) 2) ∧ (s.coreAbsent mc = false → ¬free → code (.mcbindUnbind w) 1)
         ∧ (s.coreAbsent mc = false → free → ∃ t, Runs (.mcbindUnbind w) s t ∧ (t.channel mc).bound = none ∧ t.pkg.mcbindR = 0 ∧ SameRegisters s t)))

/-! ### Bulkheads, the governor, links, the group and bring-up -/

/-- 16_package R430, R431, R436, R438, R439, R440. BULKHEAD_RESET empties the cores of a bulkhead and ends with zero scratchpads; PARK is
refused where a slot is occupied or an entry maps the bulkhead, and takes its level when the transition completes; UNPARK returns it to
service, scrubbed after K2, as a park in K1 that follows K2 is. BHCTL lowers a performance state at once and asks for a higher one; the governor steps one bulkhead down while
the draw exceeds the ceiling, and restarts or raises one after a low interval. The model's choices: CODE 1 during a transition, the result at its
completion and DIRTY cleared (log 39), the journal's FUNC 1 where no thread wrote (log 89), and the governor's choice of a bulkhead (logs 41 and 74). -/
def Obligations.BulkheadsAndPower : Prop :=
  ∀ (s : State) (b : Nat) (v : Word), s.commands = [] → b < 64 →
    let h := s.bulkhead b
    let ends := fun (i : Instr) (op code : Nat) => ∃ t, Runs i s t ∧ t.bulkheads = s.bulkheads ∧ t.pkg.bhcmdR = BitVec.ofNat 64 code ∧ t.commands = []
      ∧ SameRegisters s t ∧ t.mem = (s.journalEntry 0x242 (BitVec.ofNat 64 (op + b * 16)) code 1).mem
    let begins := fun (t : State) (op : Nat) => t.commands = [⟨0x242, none, BitVec.ofNat 64 (op + b * 16), 32767, 0, 16, some []⟩]
    let zero := fun (t : State) => ∀ c ∈ bulkheadCores b, (t.core c).dirty = 0 ∧ ∀ i, i < 0x80000 → t.readByte (scratchAddr c i) = 0
    let quiet := (∀ c ∈ bulkheadCores b, (s.core c).sb = [] ∧ ∀ k, (s.slot c k).st = .free)
      ∧ s.parts.all (fun e => (List.range 64).all (fun u => entryState (e.2.entry u) != 1 || e.2.pbh u != b)) = true
    (h.absent = true → ends (.bulkheadReset b) 1 4 ∧ ends (.parkK1 b) 2 4 ∧ ends (.parkK2 b) 3 4 ∧ ends (.unpark b) 4 4)
    ∧ (h.absent = false → h.park = 3 → ends (.bulkheadReset b) 1 5 ∧ ends (.parkK1 b) 2 5 ∧ ends (.parkK2 b) 3 5 ∧ ends (.unpark b) 4 5)
    ∧ (h.absent = false → h.park = 4 → ends (.bulkheadReset b) 1 1 ∧ ends (.parkK1 b) 2 1 ∧ ends (.parkK2 b) 3 1 ∧ ends (.unpark b) 4 1)
    ∧ (h.absent = false → h.park = 0 → ends (.unpark b) 4 5
        ∧ (¬quiet → ends (.parkK1 b) 2 3 ∧ ends (.parkK2 b) 3 3)
        ∧ (quiet → (∃ t, Runs (.parkK1 b) s t ∧ begins t 2 ∧ (t.bulkhead b).park = 4 ∧ (t.bulkhead b).target = 1 ∧ SameMemory s t ∧ SameRegisters s t)
          ∧ (∃ t, Runs (.parkK2 b) s t ∧ begins t 3 ∧ (t.bulkhead b).park = 4 ∧ (t.bulkhead b).target = 2 ∧ SameMemory s t ∧ SameRegisters s t)))
    ∧ (h.absent = false → h.park = 1 → ends (.parkK1 b) 2 5 ∧ (¬quiet → ends (.parkK2 b) 3 3)
        ∧ (quiet → ∃ t, Runs (.parkK2 b) s t ∧ begins t 3 ∧ (t.bulkhead b).park = 4 ∧ (t.bulkhead b).target = 2 ∧ SameMemory s t))
    ∧ (h.absent = false → h.park = 2 → ends (.parkK2 b) 3 5 ∧ (¬quiet → ends (.parkK1 b) 2 3)
        ∧ (quiet → ∃ t, Runs (.parkK1 b) s t ∧ begins t 2 ∧ (t.bulkhead b).park = 4 ∧ (t.bulkhead b).target = 5 ∧ SameMemory s t))
    ∧ (h.absent = false → h.park = 0 ∨ h.park = 1 ∨ h.park = 2 → (∃ t, Runs (.bulkheadReset b) s t ∧ begins t 1 ∧ (t.bulkhead b).park = 3 ∧ (t.bulkhead b).owner = h.owner ∧ (s.engine = [] → SameMemory s t)
            ∧ ∀ c ∈ bulkheadCores b, ∀ k, (t.slot c k).st = .free ∧ (t.slot c k).p = Vector.replicate 16 0))
    ∧ (h.absent = false → h.park = 1 ∨ h.park = 2 → ∃ t, Runs (.unpark b) s t ∧ begins t 4 ∧ (t.bulkhead b).park = 4
        ∧ (t.bulkhead b).target = (if h.park = 2 then 3 else 0))
    ∧ (h.park = 3 → s.CanonicalMemory → ∃ t, Runs (.bulkheadResetComplete b) s t ∧ (t.bulkhead b).park = 0 ∧ (t.bulkhead b).dirty = false ∧ zero t)
    ∧ (h.park ≠ 3 → Runs (.bulkheadResetComplete b) s s)
    ∧ (h.park ≠ 4 → Runs (.parkTransitionComplete b) s s)
    ∧ (h.park = 4 → (h.target = 1 → ∃ t, Runs (.parkTransitionComplete b) s t ∧ (t.bulkhead b).park = 1)
        ∧ (h.target = 2 → ∃ t, Runs (.parkTransitionComplete b) s t ∧ (t.bulkhead b).park = 2 ∧ (t.bulkhead b).dirty = true)
        ∧ (h.target = 3 → s.CanonicalMemory → ∃ t, Runs (.parkTransitionComplete b) s t ∧ (t.bulkhead b).park = 0 ∧ (t.bulkhead b).dirty = false ∧ zero t)
        ∧ (h.target = 5 → s.CanonicalMemory → ∃ t, Runs (.parkTransitionComplete b) s t ∧ (t.bulkhead b).park = 1 ∧ (t.bulkhead b).dirty = false ∧ zero t)
        ∧ (h.target = 0 → ∃ t, Runs (.parkTransitionComplete b) s t ∧ (t.bulkhead b).park = 0 ∧ (t.bulkhead b).dirty = h.dirty))
    ∧ (∃ t, Runs (.bhctlWrite b v) s t ∧ (t.bulkhead b).preq = min 4 (v.toNat % 8) ∧ (t.bulkhead b).bankpd = v.getLsbD 11
        ∧ (t.bulkhead b).pcur = max h.pcur (min 4 (v.toNat % 8)) ∧ SameMemory s t ∧ SameRegisters s t)
    ∧ (∃ t, Runs (.pwrceilWrite v) s t ∧ t.pkg.pwrceil = BitVec.ofNat 64 (max 250 (min 1100 (v.toNat % 2 ^ 11)))
        ∧ t.mem = (s.journalEntry 0x243 v 0 1).mem ∧ SameRegisters s t)
    ∧ (∀ draw low, let ceiling := s.pkg.pwrceil.toNat % 2 ^ 11
        (draw.toNat ≤ ceiling → low = false → ∃ t, Runs (.governorSample draw low) s t ∧ t.pkg.overDraw = false ∧ t.pkg.draw = draw ∧ t.bulkheads = s.bulkheads)
        ∧ (ceiling < draw.toNat → ∃ t, Runs (.governorSample draw low) s t ∧ t.pkg.overDraw = true ∧ SameRegisters s t
            ∧ (∀ a, (s.bulkhead a).running = true → (s.bulkhead a).pcur < 4 → ∃ d, (s.bulkhead d).running = true ∧ (s.bulkhead d).pcur < 4
                ∧ (a < 64 → s.governKey d ≤ s.governKey a) ∧ (a < 64 → (t.bulkhead d).pcur = (s.bulkhead d).pcur + 1)
                ∧ ∀ e, e ≠ d → a < 64 → t.bulkhead e = s.bulkhead e)
            ∧ (∀ a, a < 64 → (∀ e, e < 64 → (s.bulkhead e).running = true → 4 ≤ (s.bulkhead e).pcur) → (s.bulkhead a).running = true →
                ∃ d, (s.bulkhead d).running = true ∧ s.governKey d ≤ s.governKey a ∧ t.bulkhead d = { s.bulkhead d with stopped := true }))
        ∧ (∀ a, draw.toNat ≤ ceiling → low = true → 100 * draw.toNat < 95 * ceiling → a < 64 → (s.bulkhead a).stopped = true → (s.bulkhead a).park = 0 →
            ∃ t d, Runs (.governorSample draw low) s t ∧ (s.bulkhead d).stopped = true ∧ s.governKey a ≤ s.governKey d
              ∧ t.bulkhead d = { s.bulkhead d with stopped := false }))
    ∧ (h.raising = true → h.preq < h.pcur → Runs (.pstateTransitionComplete b) s (s.modBulkhead b (fun h => { h with pcur := h.pcur - 1, raising := false })))
    ∧ (h.raising = false → Runs (.pstateTransitionComplete b) s s)

/-- 08_messages R214; 16_package R429, R444, R445, R450, R451, R452. Link errors count as replays; a window of 16 is counted and journalled
and one of 256 retrains; the third failed retraining fails the link. GRPDAT takes its codes; once a failed port has drained its peer moves to the
alternate, or without one stays unreachable, and what the port lost is answered absent. Ingress rewrites the PART of a bound partition's packet and
answers any other absent. A doorbell forwards a function's record as an active message, or gives it status 2. The model's choices: the first
payload word of a group packet (log 27), the retry after a failed retraining (log 42), the two steps of a port's failure, and GRPDAT clearing both
of its marks (log 43), and the journal's FUNC 1 where no thread wrote (logs 32 and 89). -/
def Obligations.LinksGroupAndHost : Prop :=
  ∀ (s : State) (n : Nat) (v : Word),
    let l := s.pkg.links.getD n Link.reset
    let counts := fun (i : Instr) => Runs i s (s.modLink n (fun l => { l with replays := l.replays + 1 }))
    let link := fun (t : State) => t.pkg.links.getD n Link.reset
    let fails := fun (t : State) => (link t).fails = l.fails + 1 ∧ (link t).failed = (l.failed || decide (2 ≤ l.fails))
    (∀ kind, (17 ≤ kind.toNat → counts (.reservedKindPacket n kind)) ∧ (kind.toNat < 17 → Runs (.reservedKindPacket n kind) s s))
    ∧ counts (.flitCrcError n)
    ∧ (∃ t, Runs (.replayWindow n) s t ∧ (link t).replays = 0 ∧ (link t).retraining = (l.retraining || (decide (256 ≤ l.replays) && !l.failed))
        ∧ (link t).failed = l.failed ∧ SameRegisters s t
        ∧ bf t.pkg.rascnt 47 32 = (if 16 ≤ l.replays then min 0xFFFF (bf s.pkg.rascnt 47 32 + 1) else bf s.pkg.rascnt 47 32)
        ∧ t.mem = (if 16 ≤ l.replays then (s.journalEntry 0xF07 (BitVec.ofNat 64 n) 0 0).mem else s.mem))
    ∧ (l.retraining = false → Runs (.retrainComplete n true) s s ∧ Runs (.retrainComplete n false) s s)
    ∧ (l.retraining = true → (∃ t, Runs (.retrainComplete n true) s t ∧ (link t).fails = 0 ∧ (link t).retraining = false ∧ (link t).failed = l.failed
          ∧ t.mem = (s.journalEntry 0xF03 (BitVec.ofNat 64 n) 0 0).mem)
        ∧ (2 ≤ l.fails → ∃ t, Runs (.retrainComplete n false) s t ∧ fails t ∧ (link t).retraining = false
          ∧ t.mem = (s.journalEntry 0xF04 (BitVec.ofNat 64 n) 0 0).mem)
        ∧ (l.fails < 2 → ∃ t, Runs (.retrainComplete n false) s t ∧ fails t ∧ (link t).retraining = true ∧ SameMemory s t))
    ∧ (s.commands = [] → ∃ t, Runs (.grpdatWrite n v) s t ∧ t.pkg.groups = s.pkg.groups.put n (v &&& 0x80000000000001FF#64) ∧ t.pkg.groupAlt.contains n = false
        ∧ t.pkg.groupDown.contains n = false ∧ (∀ m ∈ t.portHeld, pkgOf m.dst ≠ n)
        ∧ t.mem = (s.journalEntry 0x249 v 0 1).mem ∧ SameRegisters s t)
    ∧ (let w := s.pkg.groups.getD n 0
       let down := s.pkg.groupDown.contains n
       ∀ lost : List Nat,
       let gone := fun (e : Sent × Nat) => lost.contains e.2 && e.1.port == s.peerPort n && pkgOf e.1.msg.dst == n
       let absent := ((s.egress.zipIdx.filter gone).map (fun e => e.1.msg)).filter (fun m => !m.body.isReply)
       let kept := (s.egress.zipIdx.filter (fun e => !gone e)).map (fun e => e.1)
       (w.getLsbD 63 = false → ∀ e, Runs (.groupPortFailure (n, e)) s s)
       ∧ (w.getLsbD 63 = true → down = false → Runs (.groupPortFailure (n, some lost)) s s
           ∧ Runs (.groupPortFailure (n, none)) s { s with pkg := { s.pkg with groupDown := s.pkg.groupDown ++ [n] } })
       ∧ (w.getLsbD 63 = true → down = true → Runs (.groupPortFailure (n, none)) s s
         ∧ (w.getLsbD 8 = false ∨ s.pkg.groupAlt.contains n = true →
             Runs (.groupPortFailure (n, some lost)) s { s with egress := kept, net := s.net ++ absent })
         ∧ (w.getLsbD 8 = true → s.pkg.groupAlt.contains n = false → ∃ t, Runs (.groupPortFailure (n, some lost)) s t
             ∧ t.pkg.groupAlt = s.pkg.groupAlt ++ [n] ∧ t.pkg.groupDown.contains n = false ∧ (∀ m ∈ absent, m ∈ t.net) ∧ (∀ e ∈ kept, e ∈ t.egress)
             ∧ (∀ m ∈ t.portHeld, pkgOf m.dst ≠ n) ∧ SameMemory s t ∧ SameRegisters s t
             ∧ (s.coreAbsent (portCore (bf w 7 4)) = false → ∀ m ∈ s.portHeld, 32768 ≤ m.dst → pkgOf m.dst = n → ⟨bf w 7 4, m⟩ ∈ t.egress))))
    ∧ (s.pkg.groupDown.contains n = true → ∀ part kind target ws, Runs (.groupIngress n part kind target ws) s s)
    ∧ (∀ part l c (target h : Word), n < 16 → c < 32768 → s.pkg.groupDown.contains n = false → s.peerOpen n = true → target.toNat / 2 ^ 60 = 0 →
        target.toNat / 2 ^ 43 % 32 < 16 → s.boundPart n part = some l →
        s.xlate l (target.toNat / 2 ^ 33 % 2 ^ 15) = .at_ c → bf h 7 0 ≠ 0 → bf target 32 0 + bf h 7 0 ≤ 0x80000 →
        ∃ t m, Runs (.groupIngress n part 0 target [h]) s t ∧ t.net = s.net ++ [m] ∧ m.part = some l ∧ m.dst = c ∧ m.src = peerCore n ∧ m.gen = bf h 15 12
          ∧ m.slot = bf h 11 8 ∧ m.body = .load (scratchAddr c (bf target 32 0)) (bf h 7 0) ∧ SameMemory s t ∧ SameRegisters s t)
    ∧ (∀ part (target h : Word), n < 16 → s.pkg.groupDown.contains n = false → s.boundPart n part = none ∨ s.peerOpen n = false →
        ∃ t m, Runs (.groupIngress n part 0 target [h]) s t ∧ t.egress = s.egress ++ [⟨s.peerPort n, m⟩] ∧ m.dst = peerCore n ∧ m.gen = bf h 15 12
          ∧ (h.getLsbD 22 = false → m.body = .dataReply .absent 0 0) ∧ t.net = s.net ∧ SameMemory s t ∧ SameRegisters s t)
    ∧ (∀ part (target h d : Word), s.pkg.groupDown.contains n = false → bf h 31 28 = 0 →
        ∃ t m, Runs (.groupIngress n part 2 target [h, d]) s t ∧ t.net = s.net ++ [m] ∧ m.dst = bf target 18 4
        ∧ m.slot = bf target 3 0 ∧ m.body = (if s.boundPart n part = none then .dataReply .absent 0 0
            else .dataReply .done (d.setWidth 256) (BitVec.ofNat 6 (bf h 37 32))))
    ∧ (∀ (r0 r1 r2 r3 : Word), let f := s.pkg.vfs.getD n VFun.reset
        let p := bf f.bind 53 48
        let g := fun (t : State) => t.pkg.vfs.getD n VFun.reset
        let i := f.cons.toNat % 64
        let window := List.replicate (4 * i) 0#64 ++ [r0, r1, r2, r3]
        (s.pkg.bridge = false → ∀ prod, ∃ t, Runs (.doorbell n prod window) s t ∧ (g t).cons = f.cons ∧ (g t).status = f.status ∧ t.net = s.net
            ∧ t.egress = s.egress ∧ SameMemory s t)
        ∧ (∃ t, Runs (.doorbell n f.cons window) s t ∧ (g t).cons = f.cons ∧ t.net = s.net ∧ SameMemory s t)
        ∧ (s.pkg.bridge = true → f.bind.getLsbD 63 = false → ∃ t, Runs (.doorbell n (f.cons + 1) window) s t ∧ (g t).cons = f.cons + 1 ∧ (g t).prod = f.cons + 1
            ∧ (g t).status.getD i 0 = 0x82#8 ∧ t.net = s.net ∧ SameMemory s t)
        ∧ (s.pkg.bridge = true → f.bind.getLsbD 63 = true → bf r0 18 4 / 1024 < 16 → s.isOwnPkg (bf r0 59 48) = false → s.isPeer (bf r0 59 48) = true →
            s.pkg.groupDown.contains (bf r0 59 48) = false → s.peerOpen (bf r0 59 48) = true →
            ∃ t m, Runs (.doorbell n (f.cons + 1) window) s t ∧ (g t).cons = f.cons + 1 ∧ (g t).status.getD i 1 = 0 ∧ t.net = s.net
              ∧ t.egress = s.egress ++ [⟨s.peerPort (bf r0 59 48), m⟩] ∧ m.dst = peerTarget (bf r0 59 48) (bf r0 18 4) ∧ m.part = some p
              ∧ m.body = .active r1 r2 r3 (0x1FFF000000000000#64 ||| (f.bind &&& 0x0000FFFFFFFFFF00#64)) ∧ SameMemory s t)
        ∧ (∀ c, s.pkg.bridge = true → bf r0 18 4 / 1024 < 16 → f.bind.getLsbD 63 = true → s.isOwnPkg (bf r0 59 48) = true → s.xlate p (bf r0 18 4) = .at_ c → c < 32768 →
            ∃ t m, Runs (.doorbell n (f.cons + 1) window) s t ∧ (g t).cons = f.cons + 1 ∧ (g t).status.getD i 1 = 0 ∧ t.net = s.net ++ [m] ∧ m.dst = c
              ∧ m.part = some p ∧ m.body = .active r1 r2 r3 (0x1FFF000000000000#64 ||| (f.bind &&& 0x0000FFFFFFFFFF00#64)) ∧ SameMemory s t))

/-- 16_package R446, R447; 01_machine R12. A cold start leaves every memory empty but for poisoned retired rows, fences the dies that failed
and moves a stack to its alternate port; a warm start keeps HBM4E and capacity memory and the scratchpads of clean bulkheads, zeroes those
of dirty ones, and the journal goes on. With gateway die 16 failed the package stays in reset. That HBM4E and capacity memory hold nothing after a
cold start is the model's choice (logs 1 and 44); which package bridges a group to its host is an input of the cold start (log 43). -/
def Obligations.StartsFenceAndKeepMemory : Prop :=
  ∀ (s : State) (compute : BitVec 16) (gateway : BitVec 4) (stack : BitVec 8) (bridge : Bool),
    let cold := Instr.coldStart compute (gateway, bridge) stack
    let warm := Instr.warmStart compute gateway stack
    let fenced := fun (t : State) => t.pkg.inReset = false ∧ t.pkg.fencedDies.toNat = compute.toNat + gateway.toNat * 2 ^ 16 + stack.toNat * 2 ^ 24
      ∧ (∀ k, k < 8 → t.pkg.altStacks.getLsbD k = (compute.getLsbD (primaryDie k) && !compute.getLsbD (alternateDie k)))
      ∧ (∀ b, b < 64 → (t.bulkhead b).absent = compute.getLsbD (b / 16 * 4 + b % 8 / 2))
      ∧ t.net = [] ∧ t.commands = [] ∧ t.parts = [] ∧ ∀ c k, isCompute c = true → (t.slot c k).st = .free
    (gateway.getLsbD 0 = true → (∃ t, Runs cold s t ∧ t.pkg.inReset = true ∧ t.net = []) ∧ (∃ t, Runs warm s t ∧ t.pkg.inReset = true ∧ t.net = []))
    ∧ (gateway.getLsbD 0 = false → ∃ t, Runs cold s t ∧ fenced t ∧ t.pkg.bridge = bridge
        ∧ (compute = 0 → gateway = 0 → stack = 0 → t.mem = [] ∧ t.pkg.jrnlHead = 0 ∧ (s.channels = [] → t.poison = [])))
    ∧ (gateway.getLsbD 0 = false → s.CanonicalMemory → ∃ t, Runs warm s t ∧ fenced t ∧ t.pkg.bridge = s.pkg.bridge
        ∧ (compute = 0 → gateway = 0 → stack = 0 → t.pkg.jrnlHead = s.pkg.jrnlHead ∧ (∀ a, 2 ^ 48 ≤ a → t.readByte a = s.readByte a)
          ∧ (∀ b i, ∀ c ∈ bulkheadCores b, b < 64 → i < 0x80000 → t.readByte (scratchAddr c i) = (if (s.bulkhead b).dirty then 0 else s.readByte (scratchAddr c i)))))

/-! ### Steps, decoding, memory and frames -/

/-- 01_machine R34; 02_encoding R36, R37, R38, R52; 03_strands R70, R82. When it is a core's cycle and the slot whose turn it is can fetch, the step is
exec of the instruction that the bytes at the pc decode to, in that core and slot, and then CYCLE advances by 1; bytes that are no
instruction of that core run as the illegal instruction. The pc moves in exec. What the step adds: tick, the schedule, what goes by the core's
own clock (settleClock, watchBanks), that the slot issues again 8 cycles later at the earliest, and that the instruction is noted as in flight (log 6). -/
def Obligations.AStepRunsTheDecodedInstruction : Prop :=
  ∀ (s : State) (c k a0 a1 : Nat) (i : Instr) (rest : List Turn), s.pkg.inReset = false → s.schedule = .cycle c :: rest →
    let q := (({ s with tick := s.tick + 1, schedule := rest } : State).settleClock c).watchBanks c
    let w := ({ q with curCore := c, curSlot := k }).modSlot c k (fun t => { t with readyAt := (q.core c).cycle + 8, wokenAt := none })
    let runs := fun (j : Instr) => step s = (match exec j w with
      | .next t => .next ((t.noteFlight j w).endCycle c)
      | .fault f => .fault f
      | .refused r => .refused r)
    ({ s with tick := s.tick + 1, schedule := rest } : State).clockRuns c = true → (q.core c).halted = false → (q.core c).issueSlot = some k →
    w.parcelAt c k w.cur.pc = .at_ a0 → w.fetchHeld a0 = false → w.isPoisoned a0 2 = false →
    let p0 := w.readNat a0 2
    let p1 := w.readNat a1 2
    (p0 / 2 ^ 14 ≠ 3 → decode (w.readBytes a0 2) = .ok (i, []) → Sys2Proof.Machine.Instr.existsOn i c = true → runs i)
    ∧ (∀ e, p0 / 2 ^ 14 ≠ 3 → decode (w.readBytes a0 2) = .error e → runs (.illegalInstruction (BitVec.ofNat 16 p0) 0 false))
    ∧ (p0 / 2 ^ 14 = 3 → w.parcelAt c k (addOffset w.cur.pc 2) = .at_ a1 → w.fetchHeld a1 = false → w.isPoisoned a1 2 = false →
        (decode (w.readBytes a0 2 ++ w.readBytes a1 2) = .ok (i, []) → Sys2Proof.Machine.Instr.existsOn i c = true → runs i)
        ∧ (decode (w.readBytes a0 2 ++ w.readBytes a1 2) = .ok (i, []) → Sys2Proof.Machine.Instr.existsOn i c = false →
            runs (.illegalInstruction (BitVec.ofNat 16 p0) (BitVec.ofNat 16 p1) true))
        ∧ (∀ e, decode (w.readBytes a0 2 ++ w.readBytes a1 2) = .error e → runs (.illegalInstruction (BitVec.ofNat 16 p0) (BitVec.ofNat 16 p1) true)))

/-- 02_encoding R39, R43, R44, R45; 03_strands R102; 07_access R181; 12_engines R340. The words the manual writes out, and words written from
its field tables, decode to the instructions they stand for; 0x0000 and a reserved opcode do not. -/
def Obligations.SpecWordsDecode : Prop :=
  let word := fun (w : Nat) (i : Instr) => decodeTableWord 32 w = some i
  let parcel := fun (p : Nat) (i : Instr) => decodeTableWord 16 p = some i
  word 0xD9110092 (.bsig 0x110092#24) ∧ parcel 0x622F (.addiK 2 2 0xF) ∧ parcel 0xB2FD (.bnez 2 0xFD) ∧ word 0xC9100400 (.li 2 1024)
  ∧ word 0xEC084008 (.mcrd 1 1) ∧ word 0xD8000001 .halt ∧ word 0xF2000006 .bkpt ∧ word 0xF5084188 (.vredadd 1 1 12)
  ∧ word (0xC0 * 2 ^ 24 + 3 * 2 ^ 19 + 4 * 2 ^ 14 + 5 * 2 ^ 9 + 0) (.add 3 4 5) ∧ word (0xC1 * 2 ^ 24 + 3 * 2 ^ 19 + 4 * 2 ^ 14 + 0x3FFF) (.addi 3 4 0x3FFF)
  ∧ decodeTableWord 16 0x0000 = none ∧ decodeTableWord 32 0xCC000000 = none

/-- 02_encoding R37, R41, R42, R43, R44, R45. DECODE AND ENCODE AGREE: for every well-formed instruction with an encoding, decoding its bytes,
whatever follows them, gives it back with every operand, and leaves what follows; its length is one parcel or two as its first two bits
say. -/
def Obligations.DecodeInvertsEncode : Prop :=
  ∀ (i : Instr) (rest : List (BitVec 8)), i.wf = true → i.isDevice = false →
    decode (encode i ++ rest) = .ok (i, rest) ∧ (encode i).length = 2 * i.parcels ∧ (i.parcels = 1 ∨ i.parcels = 2)

/-- 02_encoding R39, R46, R47, R48, R50. Nothing else decodes: bytes that decode to an instruction are that instruction's own encoding, so no
bit of a word is ignored, no two words mean one instruction, and what decodes is well formed. -/
def Obligations.OnlyEncodingsDecode : Prop :=
  ∀ (bs rest : List (BitVec 8)) (i : Instr), decode bs = .ok (i, rest) → i.wf = true ∧ i.isDevice = false ∧ bs = encode i ++ rest

/-- 01_machine R25, R28; 07_access R186. The memory that every state holds, whatever steps led to it, is a list of bytes by rising address
with no zero byte listed (log 1): every step that goes on keeps that form. -/
def Obligations.EveryStepKeepsCanonicalMemory : Prop := ∀ s t : State, s.CanonicalMemory → step s = .next t → t.CanonicalMemory

/-- 16_package R446, R447. Nothing stops the machine but a package whose root of trust has failed: outside that, every state has a next one,
and such a package stays in reset. -/
def Obligations.OnlyAPackageInResetStops : Prop :=
  ∀ s : State, (s.pkg.inReset = false → ∃ t, step s = .next t) ∧ (s.pkg.inReset = true → step s = .fault .packageInReset)

/-- 01_machine R34; 03_strands R68, R73, R90, R99; 11_press R293; 12_engines R323; 14_population R372; 16_package R430, R439, R446. After a start: every
slot FREE, the rotation registers at their reset values, every bank powered, PXW 1, the merge window 16 cc, FIT the quiet NaN, CYCLE 0, no
partition, the ceiling 1,100 W, every bulkhead in service at P1; and the memory is canonical. The zero of the registers for which the
manual gives no value is the model's (log 2). -/
def Obligations.ResetLeavesTheStatedValues : Prop :=
  let s := State.reset
  s.CanonicalMemory ∧ (∀ a, s.readByte a = 0)
  ∧ (∀ c k, (s.slot c k).st = .free ∧ (s.slot c k).sigctl = 0)
  ∧ (∀ c b, ((s.core c).banks.getD b Bank.reset).powered = true)
  ∧ (∀ c, (s.core c).rotlo.toNat = (List.range 8).foldl (fun n i => n + i * 2 ^ (5 * i)) 0
      ∧ (s.core c).rothi.toNat = (List.range 8).foldl (fun n i => n + (8 + i) * 2 ^ (5 * i)) 0
      ∧ (s.core c).pxw = 1 ∧ (s.core c).mrgwin = 16 ∧ (s.core c).fit = 0x7FC00000#64 ∧ (s.core c).cycle = 0)
  ∧ (∀ p, (s.part p).used = false) ∧ s.pkg.pwrceil = 1100 ∧ s.pkg.inReset = false
  ∧ ∀ b, (s.bulkhead b).park = 0 ∧ (s.bulkhead b).absent = false ∧ (s.bulkhead b).pcur = 1 ∧ (s.bulkhead b).preq = 1 ∧ (s.bulkhead b).stopped = false

/-- 02_encoding R40; 03_strands R82; 04_integer R106. The FRAME of the integer instructions: whenever one of them answers a next state, with
the checker off, everything but its destination register, the pc and the thread's own status is as it was: every other register of its
slot and every slot, the flags and control registers, all memory, every device, and nothing is sent. -/
def Obligations.IntegerInstructionsFrame : Prop :=
  ∀ (s t : State) (d a b q : Reg) (i14 : BitVec 14) (i19 : BitVec 19) (n m : BitVec 6) (h : BitVec 16) (i : Instr),
    let c := s.curCore
    let k := s.curSlot
    i ∈ [.add d a b, .sub d a b, .and d a b, .or d a b, .xor d a b, .andn d a b, .sll d a b, .srl d a b, .sra d a b, .rol d a b, .mul d a b,
      .mulh d a b, .mulhu d a b, .slt d a b, .sltu d a b, .min d a b, .max d a b, .minu d a b, .maxu d a b, .addw d a b, .subw d a b, .adds d a b,
      .subs d a b, .selz d a b, .selnz d a b, .extv d a b, .insv d a b, .clz d a, .ctz d a, .popc d a, .brev d a, .bswap d a, .sextb d a, .sexth d a,
      .sextw d a, .zextw d a, .addi d a i14, .andi d a i14, .ori d a i14, .xori d a i14, .slti d a i14, .sltiu d a i14, .slli d a n, .srli d a n,
      .srai d a n, .roli d a n, .extu d a n m, .exts d a n m, .ins d a n m, .li d i19, .lish d h, .addpc d i19] →
    s.CheckerOff c k → exec i s = .next t →
    (q ≠ d → readReg t c k q = readReg s c k q ∧ lastReg t c k q = lastReg s c k q)
    ∧ (∀ x, readVec t c k x = readVec s c k x ∧ lastVec t c k x = lastVec s c k x) ∧ (∀ e ∈ (t.core c).stale, e ∈ (s.core c).stale ∨ e.reg = .scalar d)
    ∧ SameOtherSlots s t c k ∧ SameMemory s t
    ∧ { t.slot c k with p := s.cur.p, pc := s.cur.pc, st := s.cur.st, wait := s.cur.wait, park := s.cur.park, readyAt := s.cur.readyAt } = s.cur
    ∧ { t.core c with slots := (s.core c).slots, s := (s.core c).s, stale := (s.core c).stale } = s.core c ∧ (∀ d', d' ≠ c → t.core d' = s.core d')
    ∧ t.net = s.net ∧ t.faultRecs = s.faultRecs ∧ t.parts = s.parts ∧ t.pkg = s.pkg ∧ t.engine = s.engine ∧ t.clusters = s.clusters
    ∧ t.channels = s.channels ∧ t.bulkheads = s.bulkheads ∧ t.curCore = c ∧ t.curSlot = k

/-- 07_access R186, R188, R194; 09_sync R245, R248, R264; 06_vector R176, R177. The FRAME of loads, stores, atomics, timeline and ticket
instructions: whenever one of them answers a next state, with the checker off and canonical memory, every register but its destination
holds what it held (unless consumed poison contained the thread), every control register of the thread does too but FPST for AMOFADD, no
other slot changes but where a wake reaches it, and no byte of memory changes outside the bytes that the form stores at the place its
checks give, at once or, for a store, when it lands at its WB; a form that stores nothing here changes no memory. -/
def Obligations.MemoryInstructionsFrame : Prop :=
  ∀ (s t : State) (d a b r : Reg) (kd ka : KReg) (i : BitVec 14) (w : BitVec 4) (z : BitVec 2) (y : BitVec 1),
    let c := s.curCore
    let k := s.curSlot
    let A := s.reg a + i.signExtend 64
    let V := s.reg a + i.signExtend 64 * 32
    let K := s.reg (wideReg ka) + BitVec.ofNat 64 (8 * w.toNat)
    let n := if y = 1 then 8 else 4
    let frame := fun (x : Instr) (dst : Dest) (memory : Prop) => exec x s = .next t →
      let q := t.slot c k
      memory
      ∧ { s.cur with st := q.st, pc := q.pc, p := q.p, vp := q.vp, fpst := q.fpst, gen := q.gen, outst := q.outst, owes := q.owes, pendP := q.pendP,
                     pendV := q.pendV, posted := q.posted, nextPost := q.nextPost, acq := q.acq, wait := q.wait, park := q.park,
                     readyAt := q.readyAt, spilled := q.spilled, wokenAt := q.wokenAt } = q
      ∧ (x ≠ .amofadd d a b y → q.fpst = s.cur.fpst)
      ∧ (q.st ≠ .contained → (Dest.scalar r ≠ dst → readReg t c k r = s.reg r ∧ lastReg t c k r = lastReg s c k r)
        ∧ (Dest.vector r ≠ dst → readVec t c k r = s.vec r ∧ lastVec t c k r = lastVec s c k r))
      ∧ (∀ e j, e ≠ c ∨ slotIx j ≠ slotIx k → { t.slot e j with st := (s.slot e j).st, wait := (s.slot e j).wait, park := (s.slot e j).park,
                                                                spilled := (s.slot e j).spilled, wokenAt := (s.slot e j).wokenAt } = s.slot e j)
      ∧ t.parts = s.parts ∧ t.pkg = s.pkg ∧ t.engine = s.engine ∧ t.channels = s.channels ∧ t.bulkheads = s.bulkheads ∧ t.commands = s.commands
    let loads := fun (x : Instr) (dst : Dest) => frame x dst (SameMemory s t)
    let stores := fun (x : Instr) (dst : Dest) (addr : Word) (f : Form) (at_ size : Nat) => frame x dst
      ((∀ off, s.checkAccess c k addr f = .ok (.self off) → SameOutside s t (scratchAddr c off + at_) size)
        ∧ ((∀ off, s.checkAccess c k addr f ≠ .ok (.self off)) → SameMemory s t))
    let storesAtWb := fun (x : Instr) (addr : Word) (f : Form) (size : Nat) => frame x .nowhere (SameMemory s t ∧ ((s.core c).landing = [] →
      (∀ off, s.checkAccess c k addr f = .ok (.self off) → SameOutside s (t.landAll c) (scratchAddr c off) size)
        ∧ ((∀ off, s.checkAccess c k addr f ≠ .ok (.self off)) → SameMemory s (t.landAll c))))
    let scalarStore := fun (x : Instr) (size : Nat) => storesAtWb x A (scalarForm size rightW true) size
    let atomic := fun (x : Instr) => stores x (.scalar d) (s.reg a) (atomicForm c n) 0 n
    s.CheckerOff c k → s.CanonicalMemory →
    loads (.ldb d a i) (.scalar d) ∧ loads (.ldbu d a i) (.scalar d) ∧ loads (.ldh d a i) (.scalar d) ∧ loads (.ldhu d a i) (.scalar d)
    ∧ loads (.ldw d a i) (.scalar d) ∧ loads (.ldwu d a i) (.scalar d) ∧ loads (.ldd d a i) (.scalar d)
    ∧ loads (.lddK kd ka w) (.scalar (wideReg kd)) ∧ loads (.ldacq d a z) (.scalar d) ∧ loads (.vld d a i) (.vector d)
    ∧ scalarStore (.stb d a i) 1 ∧ scalarStore (.sth d a i) 2 ∧ scalarStore (.stw d a i) 4 ∧ scalarStore (.std d a i) 8
    ∧ storesAtWb (.strel d a z) (s.reg a) (acquireForm (2 ^ z.toNat) rightW true) (2 ^ z.toNat)
    ∧ storesAtWb (.stdK kd ka w) K (scalarForm 8 rightW true) 8 ∧ storesAtWb (.vst d a i) V (vectorForm rightW true) 32
    ∧ atomic (.amoadd d a b y) ∧ atomic (.amoand d a b y) ∧ atomic (.amoor d a b y) ∧ atomic (.amoxor d a b y) ∧ atomic (.amomin d a b y)
    ∧ atomic (.amomax d a b y) ∧ atomic (.amominu d a b y) ∧ atomic (.amomaxu d a b y) ∧ atomic (.amoswap d a b y) ∧ atomic (.amocas d a b y)
    ∧ atomic (.amofadd d a b y)
    ∧ stores (.tladd d a b) (.scalar d) (s.reg a) (atomicForm c 8) 0 8 ∧ stores (.tlset d a b) (.scalar d) (s.reg a) (atomicForm c 8) 0 8
    ∧ loads (.tlrd d a) (.scalar d) ∧ loads (.tlwait d a b) (.scalar d) ∧ loads (.tkwait d a b) (.scalar d)
    ∧ stores (.tkt d a) (.scalar d) (s.reg a) (atomicForm c 16) 0 8 ∧ stores (.tkdone d a) (.scalar d) (s.reg a) (atomicForm c 16) 8 8
end

