-- ==== Sys2Proof/Laws/State.lean ====
section
/-! SUPPORT. Laws of finite maps, and one small lemma for each field of the state under each named update. -/

namespace Sys2Proof.Machine

/-! ### Finite maps -/

theorem Assoc.getD_put {α : Type} (m : Assoc α) (k j : Nat) (v d : α) :
    (Assoc.put m k v).getD j d = if j = k then v else Assoc.getD m j d := by
  induction m with
  | nil =>
    by_cases h : k = j
    · subst h; simp only [Assoc.put, Assoc.getD, if_true]
    · simp only [Assoc.put, Assoc.getD, if_neg h, if_neg (Ne.symm h)]
  | cons e rest ih =>
    obtain ⟨i, w⟩ := e
    by_cases h1 : k < i
    · by_cases h : k = j
      · subst h; simp only [Assoc.put, Assoc.getD, if_pos h1, if_true]
      · simp only [Assoc.put, Assoc.getD, if_pos h1, if_neg h, if_neg (Ne.symm h)]
    · by_cases h2 : i = k
      · subst h2
        by_cases h : i = j
        · subst h; simp only [Assoc.put, Assoc.getD, if_neg h1, if_true]
        · simp only [Assoc.put, Assoc.getD, if_neg h1, if_true, if_neg h, if_neg (Ne.symm h)]
      · by_cases h : i = j
        · subst h; simp only [Assoc.put, Assoc.getD, if_neg h1, if_neg h2, if_true]
        · simp only [Assoc.put, Assoc.getD, if_neg h1, if_neg h2, if_neg h, ih]

@[simp] theorem Assoc.getD_put_self {α : Type} (m : Assoc α) (k : Nat) (v d : α) : (Assoc.put m k v).getD k d = v := by
  simp [Assoc.getD_put]

theorem Assoc.getD_put_other {α : Type} (m : Assoc α) {k j : Nat} (v d : α) (h : j ≠ k) :
    (Assoc.put m k v).getD j d = Assoc.getD m j d := by simp [Assoc.getD_put, h]

/-! ### Cores and slots -/

@[simp] theorem State.core_setCore_self (s : State) (c : CoreId) (x : Core) : (s.setCore c x).core c = x := Assoc.getD_put_self ..

theorem State.core_setCore_other (s : State) {c d : CoreId} (x : Core) (h : d ≠ c) : (s.setCore c x).core d = s.core d :=
  Assoc.getD_put_other _ _ _ h

theorem State.core_setCore (s : State) (c d : CoreId) (x : Core) : (s.setCore c x).core d = if d = c then x else s.core d :=
  Assoc.getD_put ..

@[simp] theorem State.core_modCore_self (s : State) (c : CoreId) (f : Core → Core) : (s.modCore c f).core c = f (s.core c) :=
  State.core_setCore_self ..

theorem State.core_modCore_other (s : State) {c d : CoreId} (f : Core → Core) (h : d ≠ c) : (s.modCore c f).core d = s.core d :=
  State.core_setCore_other _ _ h

@[simp] theorem Core.slot_setSlot_self (x : Core) (k : Nat) (y : Slot) : (x.setSlot k y).slot k = y := by
  simp [Core.slot, Core.setSlot]

theorem Core.slot_setSlot_other (x : Core) {k j : Nat} (y : Slot) (h : slotIx j ≠ slotIx k) : (x.setSlot k y).slot j = x.slot j := by
  have : (slotIx k).val ≠ (slotIx j).val := fun e => h (Fin.ext e.symm)
  simp [Core.slot, Core.setSlot, this]

@[simp] theorem Core.slot_modSlot_self (x : Core) (k : Nat) (f : Slot → Slot) : (x.modSlot k f).slot k = f (x.slot k) :=
  Core.slot_setSlot_self ..

theorem Core.slot_modSlot_other (x : Core) {k j : Nat} (f : Slot → Slot) (h : slotIx j ≠ slotIx k) : (x.modSlot k f).slot j = x.slot j :=
  Core.slot_setSlot_other _ _ h

@[simp] theorem State.slot_setSlot_self (s : State) (c : CoreId) (k : Nat) (y : Slot) : (s.setSlot c k y).slot c k = y := by
  simp [State.slot, State.setSlot]

@[simp] theorem State.slot_modSlot_self (s : State) (c : CoreId) (k : Nat) (f : Slot → Slot) : (s.modSlot c k f).slot c k = f (s.slot c k) := by
  simp [State.slot, State.modSlot]

theorem State.slot_setSlot_other (s : State) {c d : CoreId} {k j : Nat} (y : Slot) (h : d ≠ c ∨ slotIx j ≠ slotIx k) :
    (s.setSlot c k y).slot d j = s.slot d j := by
  by_cases e : d = c
  · subst e; simp [State.slot, State.setSlot, Core.slot_setSlot_other _ _ (h.resolve_left (fun n => n rfl))]
  · simp [State.slot, State.setSlot, State.core_modCore_other _ _ e]

theorem State.slot_modSlot_other (s : State) {c d : CoreId} {k j : Nat} (f : Slot → Slot) (h : d ≠ c ∨ slotIx j ≠ slotIx k) :
    (s.modSlot c k f).slot d j = s.slot d j := State.slot_setSlot_other s _ h

/-- A change of a core that keeps its slots keeps every slot. -/
theorem State.slot_modCore (s : State) (c d : CoreId) (j : Nat) (f : Core → Core) (h : (f (s.core c)).slots = (s.core c).slots) :
    (s.modCore c f).slot d j = s.slot d j := by
  by_cases e : d = c
  · subst e; simp [State.slot, Core.slot, h]
  · simp [State.slot, State.core_modCore_other _ _ e]

/-! ### One lemma per field per update -/

@[simp] theorem State.setCore_clusters (s : State) (c : CoreId) (x : Core) : (s.setCore c x).clusters = s.clusters := rfl
@[simp] theorem State.setCore_channels (s : State) (c : CoreId) (x : Core) : (s.setCore c x).channels = s.channels := rfl
@[simp] theorem State.setCore_parts (s : State) (c : CoreId) (x : Core) : (s.setCore c x).parts = s.parts := rfl
@[simp] theorem State.setCore_bulkheads (s : State) (c : CoreId) (x : Core) : (s.setCore c x).bulkheads = s.bulkheads := rfl
@[simp] theorem State.setCore_pkg (s : State) (c : CoreId) (x : Core) : (s.setCore c x).pkg = s.pkg := rfl
@[simp] theorem State.setCore_mem (s : State) (c : CoreId) (x : Core) : (s.setCore c x).mem = s.mem := rfl
@[simp] theorem State.setCore_poison (s : State) (c : CoreId) (x : Core) : (s.setCore c x).poison = s.poison := rfl
@[simp] theorem State.setCore_net (s : State) (c : CoreId) (x : Core) : (s.setCore c x).net = s.net := rfl
@[simp] theorem State.setCore_engine (s : State) (c : CoreId) (x : Core) : (s.setCore c x).engine = s.engine := rfl
@[simp] theorem State.setCore_nextCmd (s : State) (c : CoreId) (x : Core) : (s.setCore c x).nextCmd = s.nextCmd := rfl
@[simp] theorem State.setCore_commands (s : State) (c : CoreId) (x : Core) : (s.setCore c x).commands = s.commands := rfl
@[simp] theorem State.setCore_faultRecs (s : State) (c : CoreId) (x : Core) : (s.setCore c x).faultRecs = s.faultRecs := rfl
@[simp] theorem State.setCore_fseq (s : State) (c : CoreId) (x : Core) : (s.setCore c x).fseq = s.fseq := rfl
@[simp] theorem State.setCore_colls (s : State) (c : CoreId) (x : Core) : (s.setCore c x).colls = s.colls := rfl
@[simp] theorem State.setCore_egress (s : State) (c : CoreId) (x : Core) : (s.setCore c x).egress = s.egress := rfl
@[simp] theorem State.setCore_portHeld (s : State) (c : CoreId) (x : Core) : (s.setCore c x).portHeld = s.portHeld := rfl
@[simp] theorem State.setCore_fc (s : State) (c : CoreId) (x : Core) : (s.setCore c x).fc = s.fc := rfl
@[simp] theorem State.setCore_tick (s : State) (c : CoreId) (x : Core) : (s.setCore c x).tick = s.tick := rfl
@[simp] theorem State.setCore_free (s : State) (c : CoreId) (x : Core) : (s.setCore c x).free = s.free := rfl
@[simp] theorem State.setCore_curCore (s : State) (c : CoreId) (x : Core) : (s.setCore c x).curCore = s.curCore := rfl
@[simp] theorem State.setCore_curSlot (s : State) (c : CoreId) (x : Core) : (s.setCore c x).curSlot = s.curSlot := rfl
@[simp] theorem State.setCore_turn (s : State) (c : CoreId) (x : Core) : (s.setCore c x).turn = s.turn := rfl
@[simp] theorem State.setCore_schedule (s : State) (c : CoreId) (x : Core) : (s.setCore c x).schedule = s.schedule := rfl

@[simp] theorem State.modCore_clusters (s : State) (c : CoreId) (f : Core → Core) : (s.modCore c f).clusters = s.clusters := rfl
@[simp] theorem State.modCore_channels (s : State) (c : CoreId) (f : Core → Core) : (s.modCore c f).channels = s.channels := rfl
@[simp] theorem State.modCore_parts (s : State) (c : CoreId) (f : Core → Core) : (s.modCore c f).parts = s.parts := rfl
@[simp] theorem State.modCore_bulkheads (s : State) (c : CoreId) (f : Core → Core) : (s.modCore c f).bulkheads = s.bulkheads := rfl
@[simp] theorem State.modCore_pkg (s : State) (c : CoreId) (f : Core → Core) : (s.modCore c f).pkg = s.pkg := rfl
@[simp] theorem State.modCore_mem (s : State) (c : CoreId) (f : Core → Core) : (s.modCore c f).mem = s.mem := rfl
@[simp] theorem State.modCore_poison (s : State) (c : CoreId) (f : Core → Core) : (s.modCore c f).poison = s.poison := rfl
@[simp] theorem State.modCore_net (s : State) (c : CoreId) (f : Core → Core) : (s.modCore c f).net = s.net := rfl
@[simp] theorem State.modCore_engine (s : State) (c : CoreId) (f : Core → Core) : (s.modCore c f).engine = s.engine := rfl
@[simp] theorem State.modCore_nextCmd (s : State) (c : CoreId) (f : Core → Core) : (s.modCore c f).nextCmd = s.nextCmd := rfl
@[simp] theorem State.modCore_commands (s : State) (c : CoreId) (f : Core → Core) : (s.modCore c f).commands = s.commands := rfl
@[simp] theorem State.modCore_faultRecs (s : State) (c : CoreId) (f : Core → Core) : (s.modCore c f).faultRecs = s.faultRecs := rfl
@[simp] theorem State.modCore_fseq (s : State) (c : CoreId) (f : Core → Core) : (s.modCore c f).fseq = s.fseq := rfl
@[simp] theorem State.modCore_colls (s : State) (c : CoreId) (f : Core → Core) : (s.modCore c f).colls = s.colls := rfl
@[simp] theorem State.modCore_egress (s : State) (c : CoreId) (f : Core → Core) : (s.modCore c f).egress = s.egress := rfl
@[simp] theorem State.modCore_portHeld (s : State) (c : CoreId) (f : Core → Core) : (s.modCore c f).portHeld = s.portHeld := rfl
@[simp] theorem State.modCore_fc (s : State) (c : CoreId) (f : Core → Core) : (s.modCore c f).fc = s.fc := rfl
@[simp] theorem State.modCore_tick (s : State) (c : CoreId) (f : Core → Core) : (s.modCore c f).tick = s.tick := rfl
@[simp] theorem State.modCore_free (s : State) (c : CoreId) (f : Core → Core) : (s.modCore c f).free = s.free := rfl
@[simp] theorem State.modCore_curCore (s : State) (c : CoreId) (f : Core → Core) : (s.modCore c f).curCore = s.curCore := rfl
@[simp] theorem State.modCore_curSlot (s : State) (c : CoreId) (f : Core → Core) : (s.modCore c f).curSlot = s.curSlot := rfl
@[simp] theorem State.modCore_turn (s : State) (c : CoreId) (f : Core → Core) : (s.modCore c f).turn = s.turn := rfl
@[simp] theorem State.modCore_schedule (s : State) (c : CoreId) (f : Core → Core) : (s.modCore c f).schedule = s.schedule := rfl

@[simp] theorem State.setSlot_clusters (s : State) (c : CoreId) (k : Nat) (y : Slot) : (s.setSlot c k y).clusters = s.clusters := rfl
@[simp] theorem State.setSlot_channels (s : State) (c : CoreId) (k : Nat) (y : Slot) : (s.setSlot c k y).channels = s.channels := rfl
@[simp] theorem State.setSlot_parts (s : State) (c : CoreId) (k : Nat) (y : Slot) : (s.setSlot c k y).parts = s.parts := rfl
@[simp] theorem State.setSlot_bulkheads (s : State) (c : CoreId) (k : Nat) (y : Slot) : (s.setSlot c k y).bulkheads = s.bulkheads := rfl
@[simp] theorem State.setSlot_pkg (s : State) (c : CoreId) (k : Nat) (y : Slot) : (s.setSlot c k y).pkg = s.pkg := rfl
@[simp] theorem State.setSlot_mem (s : State) (c : CoreId) (k : Nat) (y : Slot) : (s.setSlot c k y).mem = s.mem := rfl
@[simp] theorem State.setSlot_poison (s : State) (c : CoreId) (k : Nat) (y : Slot) : (s.setSlot c k y).poison = s.poison := rfl
@[simp] theorem State.setSlot_net (s : State) (c : CoreId) (k : Nat) (y : Slot) : (s.setSlot c k y).net = s.net := rfl
@[simp] theorem State.setSlot_engine (s : State) (c : CoreId) (k : Nat) (y : Slot) : (s.setSlot c k y).engine = s.engine := rfl
@[simp] theorem State.setSlot_nextCmd (s : State) (c : CoreId) (k : Nat) (y : Slot) : (s.setSlot c k y).nextCmd = s.nextCmd := rfl
@[simp] theorem State.setSlot_commands (s : State) (c : CoreId) (k : Nat) (y : Slot) : (s.setSlot c k y).commands = s.commands := rfl
@[simp] theorem State.setSlot_faultRecs (s : State) (c : CoreId) (k : Nat) (y : Slot) : (s.setSlot c k y).faultRecs = s.faultRecs := rfl
@[simp] theorem State.setSlot_fseq (s : State) (c : CoreId) (k : Nat) (y : Slot) : (s.setSlot c k y).fseq = s.fseq := rfl
@[simp] theorem State.setSlot_colls (s : State) (c : CoreId) (k : Nat) (y : Slot) : (s.setSlot c k y).colls = s.colls := rfl
@[simp] theorem State.setSlot_egress (s : State) (c : CoreId) (k : Nat) (y : Slot) : (s.setSlot c k y).egress = s.egress := rfl
@[simp] theorem State.setSlot_portHeld (s : State) (c : CoreId) (k : Nat) (y : Slot) : (s.setSlot c k y).portHeld = s.portHeld := rfl
@[simp] theorem State.setSlot_fc (s : State) (c : CoreId) (k : Nat) (y : Slot) : (s.setSlot c k y).fc = s.fc := rfl
@[simp] theorem State.setSlot_tick (s : State) (c : CoreId) (k : Nat) (y : Slot) : (s.setSlot c k y).tick = s.tick := rfl
@[simp] theorem State.setSlot_free (s : State) (c : CoreId) (k : Nat) (y : Slot) : (s.setSlot c k y).free = s.free := rfl
@[simp] theorem State.setSlot_curCore (s : State) (c : CoreId) (k : Nat) (y : Slot) : (s.setSlot c k y).curCore = s.curCore := rfl
@[simp] theorem State.setSlot_curSlot (s : State) (c : CoreId) (k : Nat) (y : Slot) : (s.setSlot c k y).curSlot = s.curSlot := rfl
@[simp] theorem State.setSlot_turn (s : State) (c : CoreId) (k : Nat) (y : Slot) : (s.setSlot c k y).turn = s.turn := rfl
@[simp] theorem State.setSlot_schedule (s : State) (c : CoreId) (k : Nat) (y : Slot) : (s.setSlot c k y).schedule = s.schedule := rfl

@[simp] theorem State.modSlot_clusters (s : State) (c : CoreId) (k : Nat) (f : Slot → Slot) : (s.modSlot c k f).clusters = s.clusters := rfl
@[simp] theorem State.modSlot_channels (s : State) (c : CoreId) (k : Nat) (f : Slot → Slot) : (s.modSlot c k f).channels = s.channels := rfl
@[simp] theorem State.modSlot_parts (s : State) (c : CoreId) (k : Nat) (f : Slot → Slot) : (s.modSlot c k f).parts = s.parts := rfl
@[simp] theorem State.modSlot_bulkheads (s : State) (c : CoreId) (k : Nat) (f : Slot → Slot) : (s.modSlot c k f).bulkheads = s.bulkheads := rfl
@[simp] theorem State.modSlot_pkg (s : State) (c : CoreId) (k : Nat) (f : Slot → Slot) : (s.modSlot c k f).pkg = s.pkg := rfl
@[simp] theorem State.modSlot_mem (s : State) (c : CoreId) (k : Nat) (f : Slot → Slot) : (s.modSlot c k f).mem = s.mem := rfl
@[simp] theorem State.modSlot_poison (s : State) (c : CoreId) (k : Nat) (f : Slot → Slot) : (s.modSlot c k f).poison = s.poison := rfl
@[simp] theorem State.modSlot_net (s : State) (c : CoreId) (k : Nat) (f : Slot → Slot) : (s.modSlot c k f).net = s.net := rfl
@[simp] theorem State.modSlot_engine (s : State) (c : CoreId) (k : Nat) (f : Slot → Slot) : (s.modSlot c k f).engine = s.engine := rfl
@[simp] theorem State.modSlot_nextCmd (s : State) (c : CoreId) (k : Nat) (f : Slot → Slot) : (s.modSlot c k f).nextCmd = s.nextCmd := rfl
@[simp] theorem State.modSlot_commands (s : State) (c : CoreId) (k : Nat) (f : Slot → Slot) : (s.modSlot c k f).commands = s.commands := rfl
@[simp] theorem State.modSlot_faultRecs (s : State) (c : CoreId) (k : Nat) (f : Slot → Slot) : (s.modSlot c k f).faultRecs = s.faultRecs := rfl
@[simp] theorem State.modSlot_fseq (s : State) (c : CoreId) (k : Nat) (f : Slot → Slot) : (s.modSlot c k f).fseq = s.fseq := rfl
@[simp] theorem State.modSlot_colls (s : State) (c : CoreId) (k : Nat) (f : Slot → Slot) : (s.modSlot c k f).colls = s.colls := rfl
@[simp] theorem State.modSlot_egress (s : State) (c : CoreId) (k : Nat) (f : Slot → Slot) : (s.modSlot c k f).egress = s.egress := rfl
@[simp] theorem State.modSlot_portHeld (s : State) (c : CoreId) (k : Nat) (f : Slot → Slot) : (s.modSlot c k f).portHeld = s.portHeld := rfl
@[simp] theorem State.modSlot_fc (s : State) (c : CoreId) (k : Nat) (f : Slot → Slot) : (s.modSlot c k f).fc = s.fc := rfl
@[simp] theorem State.modSlot_tick (s : State) (c : CoreId) (k : Nat) (f : Slot → Slot) : (s.modSlot c k f).tick = s.tick := rfl
@[simp] theorem State.modSlot_free (s : State) (c : CoreId) (k : Nat) (f : Slot → Slot) : (s.modSlot c k f).free = s.free := rfl
@[simp] theorem State.modSlot_curCore (s : State) (c : CoreId) (k : Nat) (f : Slot → Slot) : (s.modSlot c k f).curCore = s.curCore := rfl
@[simp] theorem State.modSlot_curSlot (s : State) (c : CoreId) (k : Nat) (f : Slot → Slot) : (s.modSlot c k f).curSlot = s.curSlot := rfl
@[simp] theorem State.modSlot_turn (s : State) (c : CoreId) (k : Nat) (f : Slot → Slot) : (s.modSlot c k f).turn = s.turn := rfl
@[simp] theorem State.modSlot_schedule (s : State) (c : CoreId) (k : Nat) (f : Slot → Slot) : (s.modSlot c k f).schedule = s.schedule := rfl

@[simp] theorem State.modCluster_cores (s : State) (cl : Nat) (f : Cluster → Cluster) : (s.modCluster cl f).cores = s.cores := rfl
@[simp] theorem State.modCluster_channels (s : State) (cl : Nat) (f : Cluster → Cluster) : (s.modCluster cl f).channels = s.channels := rfl
@[simp] theorem State.modCluster_parts (s : State) (cl : Nat) (f : Cluster → Cluster) : (s.modCluster cl f).parts = s.parts := rfl
@[simp] theorem State.modCluster_bulkheads (s : State) (cl : Nat) (f : Cluster → Cluster) : (s.modCluster cl f).bulkheads = s.bulkheads := rfl
@[simp] theorem State.modCluster_pkg (s : State) (cl : Nat) (f : Cluster → Cluster) : (s.modCluster cl f).pkg = s.pkg := rfl
@[simp] theorem State.modCluster_mem (s : State) (cl : Nat) (f : Cluster → Cluster) : (s.modCluster cl f).mem = s.mem := rfl
@[simp] theorem State.modCluster_poison (s : State) (cl : Nat) (f : Cluster → Cluster) : (s.modCluster cl f).poison = s.poison := rfl
@[simp] theorem State.modCluster_net (s : State) (cl : Nat) (f : Cluster → Cluster) : (s.modCluster cl f).net = s.net := rfl
@[simp] theorem State.modCluster_engine (s : State) (cl : Nat) (f : Cluster → Cluster) : (s.modCluster cl f).engine = s.engine := rfl
@[simp] theorem State.modCluster_nextCmd (s : State) (cl : Nat) (f : Cluster → Cluster) : (s.modCluster cl f).nextCmd = s.nextCmd := rfl
@[simp] theorem State.modCluster_commands (s : State) (cl : Nat) (f : Cluster → Cluster) : (s.modCluster cl f).commands = s.commands := rfl
@[simp] theorem State.modCluster_faultRecs (s : State) (cl : Nat) (f : Cluster → Cluster) : (s.modCluster cl f).faultRecs = s.faultRecs := rfl
@[simp] theorem State.modCluster_fseq (s : State) (cl : Nat) (f : Cluster → Cluster) : (s.modCluster cl f).fseq = s.fseq := rfl
@[simp] theorem State.modCluster_colls (s : State) (cl : Nat) (f : Cluster → Cluster) : (s.modCluster cl f).colls = s.colls := rfl
@[simp] theorem State.modCluster_egress (s : State) (cl : Nat) (f : Cluster → Cluster) : (s.modCluster cl f).egress = s.egress := rfl
@[simp] theorem State.modCluster_portHeld (s : State) (cl : Nat) (f : Cluster → Cluster) : (s.modCluster cl f).portHeld = s.portHeld := rfl
@[simp] theorem State.modCluster_fc (s : State) (cl : Nat) (f : Cluster → Cluster) : (s.modCluster cl f).fc = s.fc := rfl
@[simp] theorem State.modCluster_tick (s : State) (cl : Nat) (f : Cluster → Cluster) : (s.modCluster cl f).tick = s.tick := rfl
@[simp] theorem State.modCluster_free (s : State) (cl : Nat) (f : Cluster → Cluster) : (s.modCluster cl f).free = s.free := rfl
@[simp] theorem State.modCluster_curCore (s : State) (cl : Nat) (f : Cluster → Cluster) : (s.modCluster cl f).curCore = s.curCore := rfl
@[simp] theorem State.modCluster_curSlot (s : State) (cl : Nat) (f : Cluster → Cluster) : (s.modCluster cl f).curSlot = s.curSlot := rfl
@[simp] theorem State.modCluster_turn (s : State) (cl : Nat) (f : Cluster → Cluster) : (s.modCluster cl f).turn = s.turn := rfl
@[simp] theorem State.modCluster_schedule (s : State) (cl : Nat) (f : Cluster → Cluster) : (s.modCluster cl f).schedule = s.schedule := rfl

@[simp] theorem State.modChannel_cores (s : State) (mc : CoreId) (f : Channel → Channel) : (s.modChannel mc f).cores = s.cores := rfl
@[simp] theorem State.modChannel_clusters (s : State) (mc : CoreId) (f : Channel → Channel) : (s.modChannel mc f).clusters = s.clusters := rfl
@[simp] theorem State.modChannel_parts (s : State) (mc : CoreId) (f : Channel → Channel) : (s.modChannel mc f).parts = s.parts := rfl
@[simp] theorem State.modChannel_bulkheads (s : State) (mc : CoreId) (f : Channel → Channel) : (s.modChannel mc f).bulkheads = s.bulkheads := rfl
@[simp] theorem State.modChannel_pkg (s : State) (mc : CoreId) (f : Channel → Channel) : (s.modChannel mc f).pkg = s.pkg := rfl
@[simp] theorem State.modChannel_mem (s : State) (mc : CoreId) (f : Channel → Channel) : (s.modChannel mc f).mem = s.mem := rfl
@[simp] theorem State.modChannel_poison (s : State) (mc : CoreId) (f : Channel → Channel) : (s.modChannel mc f).poison = s.poison := rfl
@[simp] theorem State.modChannel_net (s : State) (mc : CoreId) (f : Channel → Channel) : (s.modChannel mc f).net = s.net := rfl
@[simp] theorem State.modChannel_engine (s : State) (mc : CoreId) (f : Channel → Channel) : (s.modChannel mc f).engine = s.engine := rfl
@[simp] theorem State.modChannel_nextCmd (s : State) (mc : CoreId) (f : Channel → Channel) : (s.modChannel mc f).nextCmd = s.nextCmd := rfl
@[simp] theorem State.modChannel_commands (s : State) (mc : CoreId) (f : Channel → Channel) : (s.modChannel mc f).commands = s.commands := rfl
@[simp] theorem State.modChannel_faultRecs (s : State) (mc : CoreId) (f : Channel → Channel) : (s.modChannel mc f).faultRecs = s.faultRecs := rfl
@[simp] theorem State.modChannel_fseq (s : State) (mc : CoreId) (f : Channel → Channel) : (s.modChannel mc f).fseq = s.fseq := rfl
@[simp] theorem State.modChannel_colls (s : State) (mc : CoreId) (f : Channel → Channel) : (s.modChannel mc f).colls = s.colls := rfl
@[simp] theorem State.modChannel_egress (s : State) (mc : CoreId) (f : Channel → Channel) : (s.modChannel mc f).egress = s.egress := rfl
@[simp] theorem State.modChannel_portHeld (s : State) (mc : CoreId) (f : Channel → Channel) : (s.modChannel mc f).portHeld = s.portHeld := rfl
@[simp] theorem State.modChannel_fc (s : State) (mc : CoreId) (f : Channel → Channel) : (s.modChannel mc f).fc = s.fc := rfl
@[simp] theorem State.modChannel_tick (s : State) (mc : CoreId) (f : Channel → Channel) : (s.modChannel mc f).tick = s.tick := rfl
@[simp] theorem State.modChannel_free (s : State) (mc : CoreId) (f : Channel → Channel) : (s.modChannel mc f).free = s.free := rfl
@[simp] theorem State.modChannel_curCore (s : State) (mc : CoreId) (f : Channel → Channel) : (s.modChannel mc f).curCore = s.curCore := rfl
@[simp] theorem State.modChannel_curSlot (s : State) (mc : CoreId) (f : Channel → Channel) : (s.modChannel mc f).curSlot = s.curSlot := rfl
@[simp] theorem State.modChannel_turn (s : State) (mc : CoreId) (f : Channel → Channel) : (s.modChannel mc f).turn = s.turn := rfl
@[simp] theorem State.modChannel_schedule (s : State) (mc : CoreId) (f : Channel → Channel) : (s.modChannel mc f).schedule = s.schedule := rfl

@[simp] theorem State.modPart_cores (s : State) (p : Nat) (f : Part → Part) : (s.modPart p f).cores = s.cores := rfl
@[simp] theorem State.modPart_clusters (s : State) (p : Nat) (f : Part → Part) : (s.modPart p f).clusters = s.clusters := rfl
@[simp] theorem State.modPart_channels (s : State) (p : Nat) (f : Part → Part) : (s.modPart p f).channels = s.channels := rfl
@[simp] theorem State.modPart_bulkheads (s : State) (p : Nat) (f : Part → Part) : (s.modPart p f).bulkheads = s.bulkheads := rfl
@[simp] theorem State.modPart_pkg (s : State) (p : Nat) (f : Part → Part) : (s.modPart p f).pkg = s.pkg := rfl
@[simp] theorem State.modPart_mem (s : State) (p : Nat) (f : Part → Part) : (s.modPart p f).mem = s.mem := rfl
@[simp] theorem State.modPart_poison (s : State) (p : Nat) (f : Part → Part) : (s.modPart p f).poison = s.poison := rfl
@[simp] theorem State.modPart_net (s : State) (p : Nat) (f : Part → Part) : (s.modPart p f).net = s.net := rfl
@[simp] theorem State.modPart_engine (s : State) (p : Nat) (f : Part → Part) : (s.modPart p f).engine = s.engine := rfl
@[simp] theorem State.modPart_nextCmd (s : State) (p : Nat) (f : Part → Part) : (s.modPart p f).nextCmd = s.nextCmd := rfl
@[simp] theorem State.modPart_commands (s : State) (p : Nat) (f : Part → Part) : (s.modPart p f).commands = s.commands := rfl
@[simp] theorem State.modPart_faultRecs (s : State) (p : Nat) (f : Part → Part) : (s.modPart p f).faultRecs = s.faultRecs := rfl
@[simp] theorem State.modPart_fseq (s : State) (p : Nat) (f : Part → Part) : (s.modPart p f).fseq = s.fseq := rfl
@[simp] theorem State.modPart_colls (s : State) (p : Nat) (f : Part → Part) : (s.modPart p f).colls = s.colls := rfl
@[simp] theorem State.modPart_egress (s : State) (p : Nat) (f : Part → Part) : (s.modPart p f).egress = s.egress := rfl
@[simp] theorem State.modPart_portHeld (s : State) (p : Nat) (f : Part → Part) : (s.modPart p f).portHeld = s.portHeld := rfl
@[simp] theorem State.modPart_fc (s : State) (p : Nat) (f : Part → Part) : (s.modPart p f).fc = s.fc := rfl
@[simp] theorem State.modPart_tick (s : State) (p : Nat) (f : Part → Part) : (s.modPart p f).tick = s.tick := rfl
@[simp] theorem State.modPart_free (s : State) (p : Nat) (f : Part → Part) : (s.modPart p f).free = s.free := rfl
@[simp] theorem State.modPart_curCore (s : State) (p : Nat) (f : Part → Part) : (s.modPart p f).curCore = s.curCore := rfl
@[simp] theorem State.modPart_curSlot (s : State) (p : Nat) (f : Part → Part) : (s.modPart p f).curSlot = s.curSlot := rfl
@[simp] theorem State.modPart_turn (s : State) (p : Nat) (f : Part → Part) : (s.modPart p f).turn = s.turn := rfl
@[simp] theorem State.modPart_schedule (s : State) (p : Nat) (f : Part → Part) : (s.modPart p f).schedule = s.schedule := rfl

@[simp] theorem State.modBulkhead_cores (s : State) (b : Nat) (f : Bulkhead → Bulkhead) : (s.modBulkhead b f).cores = s.cores := rfl
@[simp] theorem State.modBulkhead_clusters (s : State) (b : Nat) (f : Bulkhead → Bulkhead) : (s.modBulkhead b f).clusters = s.clusters := rfl
@[simp] theorem State.modBulkhead_channels (s : State) (b : Nat) (f : Bulkhead → Bulkhead) : (s.modBulkhead b f).channels = s.channels := rfl
@[simp] theorem State.modBulkhead_parts (s : State) (b : Nat) (f : Bulkhead → Bulkhead) : (s.modBulkhead b f).parts = s.parts := rfl
@[simp] theorem State.modBulkhead_pkg (s : State) (b : Nat) (f : Bulkhead → Bulkhead) : (s.modBulkhead b f).pkg = s.pkg := rfl
@[simp] theorem State.modBulkhead_mem (s : State) (b : Nat) (f : Bulkhead → Bulkhead) : (s.modBulkhead b f).mem = s.mem := rfl
@[simp] theorem State.modBulkhead_poison (s : State) (b : Nat) (f : Bulkhead → Bulkhead) : (s.modBulkhead b f).poison = s.poison := rfl
@[simp] theorem State.modBulkhead_net (s : State) (b : Nat) (f : Bulkhead → Bulkhead) : (s.modBulkhead b f).net = s.net := rfl
@[simp] theorem State.modBulkhead_engine (s : State) (b : Nat) (f : Bulkhead → Bulkhead) : (s.modBulkhead b f).engine = s.engine := rfl
@[simp] theorem State.modBulkhead_nextCmd (s : State) (b : Nat) (f : Bulkhead → Bulkhead) : (s.modBulkhead b f).nextCmd = s.nextCmd := rfl
@[simp] theorem State.modBulkhead_commands (s : State) (b : Nat) (f : Bulkhead → Bulkhead) : (s.modBulkhead b f).commands = s.commands := rfl
@[simp] theorem State.modBulkhead_faultRecs (s : State) (b : Nat) (f : Bulkhead → Bulkhead) : (s.modBulkhead b f).faultRecs = s.faultRecs := rfl
@[simp] theorem State.modBulkhead_fseq (s : State) (b : Nat) (f : Bulkhead → Bulkhead) : (s.modBulkhead b f).fseq = s.fseq := rfl
@[simp] theorem State.modBulkhead_colls (s : State) (b : Nat) (f : Bulkhead → Bulkhead) : (s.modBulkhead b f).colls = s.colls := rfl
@[simp] theorem State.modBulkhead_egress (s : State) (b : Nat) (f : Bulkhead → Bulkhead) : (s.modBulkhead b f).egress = s.egress := rfl
@[simp] theorem State.modBulkhead_portHeld (s : State) (b : Nat) (f : Bulkhead → Bulkhead) : (s.modBulkhead b f).portHeld = s.portHeld := rfl
@[simp] theorem State.modBulkhead_fc (s : State) (b : Nat) (f : Bulkhead → Bulkhead) : (s.modBulkhead b f).fc = s.fc := rfl
@[simp] theorem State.modBulkhead_tick (s : State) (b : Nat) (f : Bulkhead → Bulkhead) : (s.modBulkhead b f).tick = s.tick := rfl
@[simp] theorem State.modBulkhead_free (s : State) (b : Nat) (f : Bulkhead → Bulkhead) : (s.modBulkhead b f).free = s.free := rfl
@[simp] theorem State.modBulkhead_curCore (s : State) (b : Nat) (f : Bulkhead → Bulkhead) : (s.modBulkhead b f).curCore = s.curCore := rfl
@[simp] theorem State.modBulkhead_curSlot (s : State) (b : Nat) (f : Bulkhead → Bulkhead) : (s.modBulkhead b f).curSlot = s.curSlot := rfl
@[simp] theorem State.modBulkhead_turn (s : State) (b : Nat) (f : Bulkhead → Bulkhead) : (s.modBulkhead b f).turn = s.turn := rfl
@[simp] theorem State.modBulkhead_schedule (s : State) (b : Nat) (f : Bulkhead → Bulkhead) : (s.modBulkhead b f).schedule = s.schedule := rfl

@[simp] theorem State.fresh_cores (s : State) : (s.fresh).cores = s.cores := rfl
@[simp] theorem State.fresh_clusters (s : State) : (s.fresh).clusters = s.clusters := rfl
@[simp] theorem State.fresh_channels (s : State) : (s.fresh).channels = s.channels := rfl
@[simp] theorem State.fresh_parts (s : State) : (s.fresh).parts = s.parts := rfl
@[simp] theorem State.fresh_bulkheads (s : State) : (s.fresh).bulkheads = s.bulkheads := rfl
@[simp] theorem State.fresh_pkg (s : State) : (s.fresh).pkg = s.pkg := rfl
@[simp] theorem State.fresh_mem (s : State) : (s.fresh).mem = s.mem := rfl
@[simp] theorem State.fresh_poison (s : State) : (s.fresh).poison = s.poison := rfl
@[simp] theorem State.fresh_net (s : State) : (s.fresh).net = s.net := rfl
@[simp] theorem State.fresh_engine (s : State) : (s.fresh).engine = s.engine := rfl
@[simp] theorem State.fresh_nextCmd (s : State) : (s.fresh).nextCmd = s.nextCmd := rfl
@[simp] theorem State.fresh_commands (s : State) : (s.fresh).commands = s.commands := rfl
@[simp] theorem State.fresh_faultRecs (s : State) : (s.fresh).faultRecs = s.faultRecs := rfl
@[simp] theorem State.fresh_fseq (s : State) : (s.fresh).fseq = s.fseq := rfl
@[simp] theorem State.fresh_colls (s : State) : (s.fresh).colls = s.colls := rfl
@[simp] theorem State.fresh_egress (s : State) : (s.fresh).egress = s.egress := rfl
@[simp] theorem State.fresh_portHeld (s : State) : (s.fresh).portHeld = s.portHeld := rfl
@[simp] theorem State.fresh_fc (s : State) : (s.fresh).fc = s.fc := rfl
@[simp] theorem State.fresh_tick (s : State) : (s.fresh).tick = s.tick := rfl
@[simp] theorem State.fresh_curCore (s : State) : (s.fresh).curCore = s.curCore := rfl
@[simp] theorem State.fresh_curSlot (s : State) : (s.fresh).curSlot = s.curSlot := rfl
@[simp] theorem State.fresh_turn (s : State) : (s.fresh).turn = s.turn := rfl
@[simp] theorem State.fresh_schedule (s : State) : (s.fresh).schedule = s.schedule := rfl

@[simp] theorem Core.setSlot_s (x : Core) (k : Nat) (y : Slot) : (x.setSlot k y).s = x.s := rfl
@[simp] theorem Core.setSlot_vs (x : Core) (k : Nat) (y : Slot) : (x.setSlot k y).vs = x.vs := rfl
@[simp] theorem Core.setSlot_pendS (x : Core) (k : Nat) (y : Slot) : (x.setSlot k y).pendS = x.pendS := rfl
@[simp] theorem Core.setSlot_pendVs (x : Core) (k : Nat) (y : Slot) : (x.setSlot k y).pendVs = x.pendVs := rfl
@[simp] theorem Core.setSlot_stale (x : Core) (k : Nat) (y : Slot) : (x.setSlot k y).stale = x.stale := rfl
@[simp] theorem Core.setSlot_landed (x : Core) (k : Nat) (y : Slot) : (x.setSlot k y).landed = x.landed := rfl
@[simp] theorem Core.setSlot_landing (x : Core) (k : Nat) (y : Slot) : (x.setSlot k y).landing = x.landing := rfl
@[simp] theorem Core.setSlot_flight (x : Core) (k : Nat) (y : Slot) : (x.setSlot k y).flight = x.flight := rfl
@[simp] theorem Core.setSlot_ctlOld (x : Core) (k : Nat) (y : Slot) : (x.setSlot k y).ctlOld = x.ctlOld := rfl
@[simp] theorem Core.setSlot_granted (x : Core) (k : Nat) (y : Slot) : (x.setSlot k y).granted = x.granted := rfl
@[simp] theorem Core.setSlot_arrived (x : Core) (k : Nat) (y : Slot) : (x.setSlot k y).arrived = x.arrived := rfl
@[simp] theorem Core.setSlot_cycle (x : Core) (k : Nat) (y : Slot) : (x.setSlot k y).cycle = x.cycle := rfl
@[simp] theorem Core.setSlot_rotlo (x : Core) (k : Nat) (y : Slot) : (x.setSlot k y).rotlo = x.rotlo := rfl
@[simp] theorem Core.setSlot_rothi (x : Core) (k : Nat) (y : Slot) : (x.setSlot k y).rothi = x.rothi := rfl
@[simp] theorem Core.setSlot_rotOld (x : Core) (k : Nat) (y : Slot) : (x.setSlot k y).rotOld = x.rotOld := rfl
@[simp] theorem Core.setSlot_pxw (x : Core) (k : Nat) (y : Slot) : (x.setSlot k y).pxw = x.pxw := rfl
@[simp] theorem Core.setSlot_mrgwin (x : Core) (k : Nat) (y : Slot) : (x.setSlot k y).mrgwin = x.mrgwin := rfl
@[simp] theorem Core.setSlot_logbase (x : Core) (k : Nat) (y : Slot) : (x.setSlot k y).logbase = x.logbase := rfl
@[simp] theorem Core.setSlot_logsize (x : Core) (k : Nat) (y : Slot) : (x.setSlot k y).logsize = x.logsize := rfl
@[simp] theorem Core.setSlot_fit (x : Core) (k : Nat) (y : Slot) : (x.setSlot k y).fit = x.fit := rfl
@[simp] theorem Core.setSlot_tvec (x : Core) (k : Nat) (y : Slot) : (x.setSlot k y).tvec = x.tvec := rfl
@[simp] theorem Core.setSlot_ksegbase (x : Core) (k : Nat) (y : Slot) : (x.setSlot k y).ksegbase = x.ksegbase := rfl
@[simp] theorem Core.setSlot_kseglim (x : Core) (k : Nat) (y : Slot) : (x.setSlot k y).kseglim = x.kseglim := rfl
@[simp] theorem Core.setSlot_lend (x : Core) (k : Nat) (y : Slot) : (x.setSlot k y).lend = x.lend := rfl
@[simp] theorem Core.setSlot_mbbase (x : Core) (k : Nat) (y : Slot) : (x.setSlot k y).mbbase = x.mbbase := rfl
@[simp] theorem Core.setSlot_mbsize (x : Core) (k : Nat) (y : Slot) : (x.setSlot k y).mbsize = x.mbsize := rfl
@[simp] theorem Core.setSlot_mbarr (x : Core) (k : Nat) (y : Slot) : (x.setSlot k y).mbarr = x.mbarr := rfl
@[simp] theorem Core.setSlot_banks (x : Core) (k : Nat) (y : Slot) : (x.setSlot k y).banks = x.banks := rfl
@[simp] theorem Core.setSlot_retention (x : Core) (k : Nat) (y : Slot) : (x.setSlot k y).retention = x.retention := rfl
@[simp] theorem Core.setSlot_waiters (x : Core) (k : Nat) (y : Slot) : (x.setSlot k y).waiters = x.waiters := rfl
@[simp] theorem Core.setSlot_amq (x : Core) (k : Nat) (y : Slot) : (x.setSlot k y).amq = x.amq := rfl
@[simp] theorem Core.setSlot_amClaim (x : Core) (k : Nat) (y : Slot) : (x.setSlot k y).amClaim = x.amClaim := rfl
@[simp] theorem Core.setSlot_ringHead (x : Core) (k : Nat) (y : Slot) : (x.setSlot k y).ringHead = x.ringHead := rfl
@[simp] theorem Core.setSlot_ringCount (x : Core) (k : Nat) (y : Slot) : (x.setSlot k y).ringCount = x.ringCount := rfl
@[simp] theorem Core.setSlot_ringStamps (x : Core) (k : Nat) (y : Slot) : (x.setSlot k y).ringStamps = x.ringStamps := rfl
@[simp] theorem Core.setSlot_heldPush (x : Core) (k : Nat) (y : Slot) : (x.setSlot k y).heldPush = x.heldPush := rfl
@[simp] theorem Core.setSlot_ending (x : Core) (k : Nat) (y : Slot) : (x.setSlot k y).ending = x.ending := rfl
@[simp] theorem Core.setSlot_staging (x : Core) (k : Nat) (y : Slot) : (x.setSlot k y).staging = x.staging := rfl
@[simp] theorem Core.setSlot_nextStage (x : Core) (k : Nat) (y : Slot) : (x.setSlot k y).nextStage = x.nextStage := rfl
@[simp] theorem Core.setSlot_comp (x : Core) (k : Nat) (y : Slot) : (x.setSlot k y).comp = x.comp := rfl
@[simp] theorem Core.setSlot_collDone (x : Core) (k : Nat) (y : Slot) : (x.setSlot k y).collDone = x.collDone := rfl
@[simp] theorem Core.setSlot_sb (x : Core) (k : Nat) (y : Slot) : (x.setSlot k y).sb = x.sb := rfl
@[simp] theorem Core.setSlot_sbWait (x : Core) (k : Nat) (y : Slot) : (x.setSlot k y).sbWait = x.sbWait := rfl
@[simp] theorem Core.setSlot_nextSpan (x : Core) (k : Nat) (y : Slot) : (x.setSlot k y).nextSpan = x.nextSpan := rfl
@[simp] theorem Core.setSlot_press (x : Core) (k : Nat) (y : Slot) : (x.setSlot k y).press = x.press := rfl
@[simp] theorem Core.setSlot_colls (x : Core) (k : Nat) (y : Slot) : (x.setSlot k y).colls = x.colls := rfl
@[simp] theorem Core.setSlot_owed (x : Core) (k : Nat) (y : Slot) : (x.setSlot k y).owed = x.owed := rfl
@[simp] theorem Core.setSlot_dirty (x : Core) (k : Nat) (y : Slot) : (x.setSlot k y).dirty = x.dirty := rfl
@[simp] theorem Core.setSlot_halted (x : Core) (k : Nat) (y : Slot) : (x.setSlot k y).halted = x.halted := rfl

@[simp] theorem Core.modSlot_s (x : Core) (k : Nat) (g : Slot → Slot) : (x.modSlot k g).s = x.s := rfl
@[simp] theorem Core.modSlot_vs (x : Core) (k : Nat) (g : Slot → Slot) : (x.modSlot k g).vs = x.vs := rfl
@[simp] theorem Core.modSlot_pendS (x : Core) (k : Nat) (g : Slot → Slot) : (x.modSlot k g).pendS = x.pendS := rfl
@[simp] theorem Core.modSlot_pendVs (x : Core) (k : Nat) (g : Slot → Slot) : (x.modSlot k g).pendVs = x.pendVs := rfl
@[simp] theorem Core.modSlot_stale (x : Core) (k : Nat) (g : Slot → Slot) : (x.modSlot k g).stale = x.stale := rfl
@[simp] theorem Core.modSlot_landed (x : Core) (k : Nat) (g : Slot → Slot) : (x.modSlot k g).landed = x.landed := rfl
@[simp] theorem Core.modSlot_landing (x : Core) (k : Nat) (g : Slot → Slot) : (x.modSlot k g).landing = x.landing := rfl
@[simp] theorem Core.modSlot_flight (x : Core) (k : Nat) (g : Slot → Slot) : (x.modSlot k g).flight = x.flight := rfl
@[simp] theorem Core.modSlot_ctlOld (x : Core) (k : Nat) (g : Slot → Slot) : (x.modSlot k g).ctlOld = x.ctlOld := rfl
@[simp] theorem Core.modSlot_granted (x : Core) (k : Nat) (g : Slot → Slot) : (x.modSlot k g).granted = x.granted := rfl
@[simp] theorem Core.modSlot_arrived (x : Core) (k : Nat) (g : Slot → Slot) : (x.modSlot k g).arrived = x.arrived := rfl
@[simp] theorem Core.modSlot_cycle (x : Core) (k : Nat) (g : Slot → Slot) : (x.modSlot k g).cycle = x.cycle := rfl
@[simp] theorem Core.modSlot_rotlo (x : Core) (k : Nat) (g : Slot → Slot) : (x.modSlot k g).rotlo = x.rotlo := rfl
@[simp] theorem Core.modSlot_rothi (x : Core) (k : Nat) (g : Slot → Slot) : (x.modSlot k g).rothi = x.rothi := rfl
@[simp] theorem Core.modSlot_rotOld (x : Core) (k : Nat) (g : Slot → Slot) : (x.modSlot k g).rotOld = x.rotOld := rfl
@[simp] theorem Core.modSlot_pxw (x : Core) (k : Nat) (g : Slot → Slot) : (x.modSlot k g).pxw = x.pxw := rfl
@[simp] theorem Core.modSlot_mrgwin (x : Core) (k : Nat) (g : Slot → Slot) : (x.modSlot k g).mrgwin = x.mrgwin := rfl
@[simp] theorem Core.modSlot_logbase (x : Core) (k : Nat) (g : Slot → Slot) : (x.modSlot k g).logbase = x.logbase := rfl
@[simp] theorem Core.modSlot_logsize (x : Core) (k : Nat) (g : Slot → Slot) : (x.modSlot k g).logsize = x.logsize := rfl
@[simp] theorem Core.modSlot_fit (x : Core) (k : Nat) (g : Slot → Slot) : (x.modSlot k g).fit = x.fit := rfl
@[simp] theorem Core.modSlot_tvec (x : Core) (k : Nat) (g : Slot → Slot) : (x.modSlot k g).tvec = x.tvec := rfl
@[simp] theorem Core.modSlot_ksegbase (x : Core) (k : Nat) (g : Slot → Slot) : (x.modSlot k g).ksegbase = x.ksegbase := rfl
@[simp] theorem Core.modSlot_kseglim (x : Core) (k : Nat) (g : Slot → Slot) : (x.modSlot k g).kseglim = x.kseglim := rfl
@[simp] theorem Core.modSlot_lend (x : Core) (k : Nat) (g : Slot → Slot) : (x.modSlot k g).lend = x.lend := rfl
@[simp] theorem Core.modSlot_mbbase (x : Core) (k : Nat) (g : Slot → Slot) : (x.modSlot k g).mbbase = x.mbbase := rfl
@[simp] theorem Core.modSlot_mbsize (x : Core) (k : Nat) (g : Slot → Slot) : (x.modSlot k g).mbsize = x.mbsize := rfl
@[simp] theorem Core.modSlot_mbarr (x : Core) (k : Nat) (g : Slot → Slot) : (x.modSlot k g).mbarr = x.mbarr := rfl
@[simp] theorem Core.modSlot_banks (x : Core) (k : Nat) (g : Slot → Slot) : (x.modSlot k g).banks = x.banks := rfl
@[simp] theorem Core.modSlot_retention (x : Core) (k : Nat) (g : Slot → Slot) : (x.modSlot k g).retention = x.retention := rfl
@[simp] theorem Core.modSlot_waiters (x : Core) (k : Nat) (g : Slot → Slot) : (x.modSlot k g).waiters = x.waiters := rfl
@[simp] theorem Core.modSlot_amq (x : Core) (k : Nat) (g : Slot → Slot) : (x.modSlot k g).amq = x.amq := rfl
@[simp] theorem Core.modSlot_amClaim (x : Core) (k : Nat) (g : Slot → Slot) : (x.modSlot k g).amClaim = x.amClaim := rfl
@[simp] theorem Core.modSlot_ringHead (x : Core) (k : Nat) (g : Slot → Slot) : (x.modSlot k g).ringHead = x.ringHead := rfl
@[simp] theorem Core.modSlot_ringCount (x : Core) (k : Nat) (g : Slot → Slot) : (x.modSlot k g).ringCount = x.ringCount := rfl
@[simp] theorem Core.modSlot_ringStamps (x : Core) (k : Nat) (g : Slot → Slot) : (x.modSlot k g).ringStamps = x.ringStamps := rfl
@[simp] theorem Core.modSlot_heldPush (x : Core) (k : Nat) (g : Slot → Slot) : (x.modSlot k g).heldPush = x.heldPush := rfl
@[simp] theorem Core.modSlot_ending (x : Core) (k : Nat) (g : Slot → Slot) : (x.modSlot k g).ending = x.ending := rfl
@[simp] theorem Core.modSlot_staging (x : Core) (k : Nat) (g : Slot → Slot) : (x.modSlot k g).staging = x.staging := rfl
@[simp] theorem Core.modSlot_nextStage (x : Core) (k : Nat) (g : Slot → Slot) : (x.modSlot k g).nextStage = x.nextStage := rfl
@[simp] theorem Core.modSlot_comp (x : Core) (k : Nat) (g : Slot → Slot) : (x.modSlot k g).comp = x.comp := rfl
@[simp] theorem Core.modSlot_collDone (x : Core) (k : Nat) (g : Slot → Slot) : (x.modSlot k g).collDone = x.collDone := rfl
@[simp] theorem Core.modSlot_sb (x : Core) (k : Nat) (g : Slot → Slot) : (x.modSlot k g).sb = x.sb := rfl
@[simp] theorem Core.modSlot_sbWait (x : Core) (k : Nat) (g : Slot → Slot) : (x.modSlot k g).sbWait = x.sbWait := rfl
@[simp] theorem Core.modSlot_nextSpan (x : Core) (k : Nat) (g : Slot → Slot) : (x.modSlot k g).nextSpan = x.nextSpan := rfl
@[simp] theorem Core.modSlot_press (x : Core) (k : Nat) (g : Slot → Slot) : (x.modSlot k g).press = x.press := rfl
@[simp] theorem Core.modSlot_colls (x : Core) (k : Nat) (g : Slot → Slot) : (x.modSlot k g).colls = x.colls := rfl
@[simp] theorem Core.modSlot_owed (x : Core) (k : Nat) (g : Slot → Slot) : (x.modSlot k g).owed = x.owed := rfl
@[simp] theorem Core.modSlot_dirty (x : Core) (k : Nat) (g : Slot → Slot) : (x.modSlot k g).dirty = x.dirty := rfl
@[simp] theorem Core.modSlot_halted (x : Core) (k : Nat) (g : Slot → Slot) : (x.modSlot k g).halted = x.halted := rfl

end Sys2Proof.Machine
end

