-- ==== Sys2Proof/Laws/Memory.lean ====
section
/-! SUPPORT. Laws of memory: what a byte reads after bytes are put, and that every memory operation keeps the canonical form. -/

namespace Sys2Proof.Machine

/-! ### The canonical form -/

theorem Assoc.risesFrom_iff {α : Type} (m : Assoc α) (lo : Nat) :
    Assoc.risesFrom lo m = true ↔ m.Pairwise (fun x y => x.1 < y.1) ∧ ∀ e ∈ m, lo ≤ e.1 := by
  induction m generalizing lo with
  | nil => exact ⟨fun _ => ⟨List.Pairwise.nil, fun e h => by cases h⟩, fun _ => rfl⟩
  | cons e rest ih =>
    obtain ⟨j, v⟩ := e
    simp only [Assoc.risesFrom, Bool.and_eq_true, decide_eq_true_eq, ih, List.pairwise_cons, List.mem_cons]
    constructor
    · rintro ⟨h1, h2, h3⟩
      refine ⟨⟨fun e he => h3 e he, h2⟩, ?_⟩
      rintro e (rfl | he)
      · exact h1
      · have := h3 e he; omega
    · rintro ⟨⟨h1, h2⟩, h3⟩
      exact ⟨h3 _ (Or.inl rfl), h2, fun e he => h1 e he⟩

theorem Memory.wf_iff (m : List Host.Cell) :
    Memory.wf m = true ↔ m.Pairwise (fun x y => x.1 < y.1) ∧ ∀ e ∈ m, e.2 ≠ 0 := by
  simp only [Memory.wf, Assoc.sparseWf, Bool.and_eq_true, Assoc.risesFrom_iff, List.all_eq_true, decide_eq_true_eq]
  constructor
  · rintro ⟨⟨h, _⟩, h2⟩; exact ⟨h, h2⟩
  · rintro ⟨h, h2⟩; exact ⟨⟨h, fun _ _ => Nat.zero_le _⟩, h2⟩

theorem State.reset_canonical : Memory.wf State.reset.mem = true := rfl

/-- Leaving cells out keeps the form. -/
theorem Memory.wf_filter (m : List Host.Cell) (p : Host.Cell → Bool) (h : Memory.wf m = true) : Memory.wf (m.filter p) = true := by
  rw [Memory.wf_iff] at h ⊢
  exact ⟨h.1.sublist List.filter_sublist, fun e he => h.2 e ((List.mem_filter.mp he).1)⟩

/-! ### Cells of bytes -/

theorem cellsOf_keys (a : Nat) (bs : List Byte) : ∀ e ∈ cellsOf a bs, a ≤ e.1 ∧ e.1 < a + bs.length := by
  induction bs generalizing a with
  | nil => intro e h; cases h
  | cons b rest ih =>
    intro e he
    have up : ∀ e ∈ cellsOf (a + 1) rest, a ≤ e.1 ∧ e.1 < a + (b :: rest).length := by
      intro e he; have := ih (a + 1) e he; simp only [List.length_cons]; omega
    simp only [cellsOf] at he
    by_cases hb : b = 0
    · rw [if_pos hb] at he; exact up e he
    · rw [if_neg hb] at he
      rcases List.mem_cons.mp he with rfl | h
      · simp only [List.length_cons]; omega
      · exact up e h

theorem cellsOf_wf (a : Nat) (bs : List Byte) : (cellsOf a bs).Pairwise (fun x y => x.1 < y.1) ∧ ∀ e ∈ cellsOf a bs, e.2 ≠ 0 := by
  induction bs generalizing a with
  | nil => exact ⟨List.Pairwise.nil, fun e h => by cases h⟩
  | cons b rest ih =>
    simp only [cellsOf]
    by_cases hb : b = 0
    · rw [if_pos hb]; exact ih (a + 1)
    · rw [if_neg hb]
      refine ⟨List.pairwise_cons.mpr ⟨fun e he => ?_, (ih (a + 1)).1⟩, fun e he => ?_⟩
      · have := (cellsOf_keys (a + 1) rest e he).1; show a < e.1; omega
      · rcases List.mem_cons.mp he with rfl | h
        · exact hb
        · exact (ih (a + 1)).2 e h

/-! ### Parts of a sorted list -/

theorem mem_takeWhile_lt {α : Type} {m : Assoc α} {a : Nat} {e : Nat × α}
    (h : e ∈ m.takeWhile (fun e => decide (e.1 < a))) : e.1 < a := by
  induction m with
  | nil => cases h
  | cons x rest ih =>
    by_cases hx : x.1 < a
    · rw [List.takeWhile_cons_of_pos (by simpa using hx)] at h
      rcases List.mem_cons.mp h with rfl | h
      · exact hx
      · exact ih h
    · rw [List.takeWhile_cons_of_neg (by simpa using hx)] at h; cases h

theorem mem_dropWhile_ge {α : Type} {m : Assoc α} {a : Nat} (hs : m.Pairwise (fun x y => x.1 < y.1)) :
    ∀ e ∈ m.dropWhile (fun e => decide (e.1 < a)), a ≤ e.1 := by
  induction m with
  | nil => intro e h; cases h
  | cons x rest ih =>
    intro e he
    rw [List.pairwise_cons] at hs
    by_cases hx : x.1 < a
    · rw [List.dropWhile_cons_of_pos (by simpa using hx)] at he
      exact ih hs.2 e he
    · rw [List.dropWhile_cons_of_neg (by simpa using hx)] at he
      rcases List.mem_cons.mp he with rfl | h
      · omega
      · have := hs.1 e h; omega

/-- Putting bytes keeps the form. -/
theorem putBytes_wf (m : List Host.Cell) (a : Nat) (bs : List Byte) (h : Memory.wf m = true) : Memory.wf (putBytes m a bs) = true := by
  rw [Memory.wf_iff] at h ⊢
  obtain ⟨hs, hz⟩ := h
  have hc := cellsOf_wf a bs
  have hk := cellsOf_keys a bs
  have hd : ∀ e ∈ m.dropWhile (fun e => decide (e.1 < a + bs.length)), a + bs.length ≤ e.1 := mem_dropWhile_ge hs
  unfold putBytes
  constructor
  · rw [List.pairwise_append, List.pairwise_append]
    refine ⟨hs.sublist (List.takeWhile_sublist _), ⟨hc.1, hs.sublist (List.dropWhile_sublist _), ?_⟩, ?_⟩
    · intro x hx y hy; have := hk x hx; have := hd y hy; omega
    · intro x hx y hy
      have h1 := mem_takeWhile_lt hx
      rcases List.mem_append.mp hy with h2 | h2
      · have := hk y h2; omega
      · have := hd y h2; omega
  · intro e he
    rcases List.mem_append.mp he with h1 | h1
    · exact hz e ((List.takeWhile_sublist _).subset h1)
    · rcases List.mem_append.mp h1 with h2 | h2
      · exact hc.2 e h2
      · exact hz e ((List.dropWhile_sublist _).subset h2)

/-! ### Reading after putting -/

theorem Assoc.getD_absent {α : Type} (m : Assoc α) (x : Nat) (d : α) (h : ∀ e ∈ m, e.1 ≠ x) : Assoc.getD m x d = d := by
  induction m with
  | nil => rfl
  | cons e rest ih =>
    obtain ⟨j, v⟩ := e
    simp only [Assoc.getD]
    rw [if_neg (h (j, v) List.mem_cons_self)]
    exact ih (fun e he => h e (List.mem_cons_of_mem _ he))

theorem Assoc.getD_append_skip {α : Type} (l m : Assoc α) (x : Nat) (d : α) (h : ∀ e ∈ l, e.1 ≠ x) :
    Assoc.getD (l ++ m) x d = Assoc.getD m x d := by
  induction l with
  | nil => rfl
  | cons e rest ih =>
    obtain ⟨j, v⟩ := e
    rw [List.cons_append]
    simp only [Assoc.getD]
    rw [if_neg (h (j, v) List.mem_cons_self)]
    exact ih (fun e he => h e (List.mem_cons_of_mem _ he))

theorem Assoc.getD_append_of_absent {α : Type} (l m : Assoc α) (x : Nat) (d : α) (h : ∀ e ∈ m, e.1 ≠ x) :
    Assoc.getD (l ++ m) x d = Assoc.getD l x d := by
  induction l with
  | nil => exact Assoc.getD_absent m x d h
  | cons e rest ih =>
    obtain ⟨j, v⟩ := e
    rw [List.cons_append]
    simp only [Assoc.getD]
    by_cases hj : j = x
    · rw [if_pos hj, if_pos hj]
    · rw [if_neg hj, if_neg hj]; exact ih

theorem getD_cellsOf (a : Nat) (bs : List Byte) (i : Nat) (h : i < bs.length) : Assoc.getD (cellsOf a bs) (a + i) 0 = bs[i] := by
  induction bs generalizing a i with
  | nil => cases h
  | cons b rest ih =>
    cases i with
    | zero =>
      simp only [cellsOf]
      by_cases hb : b = 0
      · rw [if_pos hb]
        rw [Assoc.getD_absent _ _ _ (fun e he => by have := (cellsOf_keys (a + 1) rest e he).1; omega)]
        exact hb.symm
      · rw [if_neg hb]; simp only [Assoc.getD, Nat.add_zero, if_true]; rfl
    | succ i =>
      have hi : i < rest.length := Nat.lt_of_succ_lt_succ h
      have step := ih (a + 1) i hi
      have e : a + 1 + i = a + (i + 1) := by omega
      rw [e] at step
      simp only [cellsOf]
      by_cases hb : b = 0
      · rw [if_pos hb]; exact step
      · rw [if_neg hb]
        simp only [Assoc.getD]
        rw [if_neg (by omega)]
        exact step

/-- A byte that was put reads back. -/
theorem getD_putBytes_inside (m : List Host.Cell) (a : Nat) (bs : List Byte) (i : Nat) (hi : i < bs.length) (h : Memory.wf m = true) :
    Assoc.getD (putBytes m a bs) (a + i) 0 = bs[i] := by
  have hs := ((Memory.wf_iff m).mp h).1
  unfold putBytes
  rw [Assoc.getD_append_skip _ _ _ _ (fun e he => by have := mem_takeWhile_lt he; omega),
    Assoc.getD_append_of_absent _ _ _ _ (fun e he => by have := mem_dropWhile_ge hs e he; omega)]
  exact getD_cellsOf a bs i hi

/-- Every other byte reads as before. -/
theorem getD_putBytes_outside (m : List Host.Cell) (a : Nat) (bs : List Byte) (x : Nat) (hx : x < a ∨ a + bs.length ≤ x)
    (h : Memory.wf m = true) : Assoc.getD (putBytes m a bs) x 0 = Assoc.getD m x 0 := by
  have hs := ((Memory.wf_iff m).mp h).1
  unfold putBytes
  rcases hx with hx | hx
  · rw [Assoc.getD_append_of_absent]
    · conv => rhs; rw [← List.takeWhile_append_dropWhile (p := fun e => decide (e.1 < a)) (l := m)]
      rw [Assoc.getD_append_of_absent _ _ _ _ (fun e he => by have := mem_dropWhile_ge hs e he; omega)]
    · intro e he
      rcases List.mem_append.mp he with h1 | h1
      · have := (cellsOf_keys a bs e h1).1; omega
      · have := mem_dropWhile_ge hs e h1; omega
  · rw [Assoc.getD_append_skip _ _ _ _ (fun e he => by have := mem_takeWhile_lt he; omega),
      Assoc.getD_append_skip _ _ _ _ (fun e he => by have := (cellsOf_keys a bs e he).2; omega)]
    conv => rhs; rw [← List.takeWhile_append_dropWhile (p := fun e => decide (e.1 < a + bs.length)) (l := m)]
    rw [Assoc.getD_append_skip _ _ _ _ (fun e he => by have := mem_takeWhile_lt he; omega)]

end Sys2Proof.Machine
end

