-- ==== Sys2Proof/Laws/Ops.lean ====
section
/-! SUPPORT. What each shared operation can do, said once: writes keep the canonical memory and change the bytes they name, a packet joins
the fabric, a record leaves every register and byte as it was, and retiring, blocking and taking a fault change one slot. -/

namespace Sys2Proof.Machine

/-! ### Memory operations: the canonical form, and the bytes -/

@[simp] theorem State.markDirty_mem (s : State) (a n : Nat) : (s.markDirty a n).mem = s.mem := by
  unfold State.markDirty
  split <;> rfl

@[simp] theorem State.markDirty_poison (s : State) (a n : Nat) : (s.markDirty a n).poison = s.poison := by
  unfold State.markDirty
  split <;> rfl

/-- What a write tells the press fetches changes a cluster only. -/
theorem State.noteWrite_cases (s : State) (a n : Nat) : s.noteWrite a n = s ∨ ∃ f, s.noteWrite a n = s.modCluster (clusterOf (homeOf a)) f := by
  unfold State.noteWrite
  dsimp only
  split
  · exact .inr ⟨_, rfl⟩
  · exact .inl rfl

@[simp] theorem State.noteWrite_mem (s : State) (a n : Nat) : (s.noteWrite a n).mem = s.mem := by
  rcases s.noteWrite_cases a n with h | ⟨f, h⟩ <;> rw [h]
  rfl

@[simp] theorem State.noteWrite_poison (s : State) (a n : Nat) : (s.noteWrite a n).poison = s.poison := by
  rcases s.noteWrite_cases a n with h | ⟨f, h⟩ <;> rw [h]
  rfl

/-- A write puts its bytes, unless its row is retired. -/
theorem State.putMem_mem (s : State) (a : Nat) (bs : List Byte) :
    (s.putMem a bs).mem = if s.rowRetired a then s.mem else putBytes s.mem a bs := by
  unfold State.putMem
  split <;> simp

theorem State.putPoison_mem (s : State) (a : Nat) (bs : List Byte) :
    (s.putPoison a bs).mem = if s.rowRetired a then s.mem else putBytes s.mem a bs := by
  unfold State.putPoison
  split <;> simp

theorem State.putMem_wf (s : State) (a : Nat) (bs : List Byte) (h : Memory.wf s.mem = true) : Memory.wf (s.putMem a bs).mem = true := by
  rw [State.putMem_mem]
  split
  · exact h
  · exact putBytes_wf _ _ _ h

theorem State.putPoison_wf (s : State) (a : Nat) (bs : List Byte) (h : Memory.wf s.mem = true) : Memory.wf (s.putPoison a bs).mem = true := by
  rw [State.putPoison_mem]
  split
  · exact h
  · exact putBytes_wf _ _ _ h

theorem State.zeroBytes_wf (s : State) (a n : Nat) (h : Memory.wf s.mem = true) : Memory.wf (s.zeroBytes a n).mem = true :=
  Memory.wf_filter _ _ h

theorem State.loadProgram_wf (s : State) (c : CoreId) (k : Nat) (bs : List Byte) (h : Memory.wf s.mem = true) :
    Memory.wf (s.loadProgram c k bs).mem = true := by
  unfold State.loadProgram
  refine putBytes_wf _ _ _ ?_
  split <;> exact h

/-- A byte outside a write reads as before. -/
theorem State.readByte_putMem_outside (s : State) (a x : Nat) (bs : List Byte) (hx : x < a ∨ a + bs.length ≤ x) (h : Memory.wf s.mem = true) :
    (s.putMem a bs).readByte x = s.readByte x := by
  unfold State.readByte
  rw [State.putMem_mem]
  split
  · rfl
  · exact getD_putBytes_outside _ _ _ _ hx h

/-- A byte that was written reads back. -/
theorem State.readByte_putMem_inside (s : State) (a i : Nat) (bs : List Byte) (hi : i < bs.length) (hr : s.rowRetired a = false)
    (h : Memory.wf s.mem = true) : (s.putMem a bs).readByte (a + i) = bs[i] := by
  unfold State.readByte
  rw [State.putMem_mem, if_neg (by simp [hr])]
  exact getD_putBytes_inside _ _ _ _ hi h

/-! ### Packets and waiters -/

/-- A packet joins the fabric, leaves through a port, or waits for one; nothing else changes. -/
theorem State.launch_cases (s : State) (m : Msg) :
    s.launch m = { s with net := s.net ++ [m] }
    ∨ (32768 ≤ m.dst ∧ (s.launch m = { s with egress := s.egress ++ [⟨s.peerPort (pkgOf m.dst), m⟩] } ∨ s.launch m = { s with portHeld := s.portHeld ++ [m] })) := by
  unfold State.launch
  split
  · exact .inl rfl
  · next h =>
    split
    · exact .inr ⟨Nat.le_of_not_lt h, .inr rfl⟩
    · split
      · exact .inr ⟨Nat.le_of_not_lt h, .inl rfl⟩
      · exact .inl rfl

@[simp] theorem State.launch_mem (s : State) (m : Msg) : (s.launch m).mem = s.mem := by
  rcases s.launch_cases m with h | ⟨_, h | h⟩ <;> rw [h]
@[simp] theorem State.launch_poison (s : State) (m : Msg) : (s.launch m).poison = s.poison := by
  rcases s.launch_cases m with h | ⟨_, h | h⟩ <;> rw [h]
@[simp] theorem State.launch_cores (s : State) (m : Msg) : (s.launch m).cores = s.cores := by
  rcases s.launch_cases m with h | ⟨_, h | h⟩ <;> rw [h]
@[simp] theorem State.launch_channels (s : State) (m : Msg) : (s.launch m).channels = s.channels := by
  rcases s.launch_cases m with h | ⟨_, h | h⟩ <;> rw [h]
@[simp] theorem State.launch_parts (s : State) (m : Msg) : (s.launch m).parts = s.parts := by
  rcases s.launch_cases m with h | ⟨_, h | h⟩ <;> rw [h]
@[simp] theorem State.launch_faultRecs (s : State) (m : Msg) : (s.launch m).faultRecs = s.faultRecs := by
  rcases s.launch_cases m with h | ⟨_, h | h⟩ <;> rw [h]
@[simp] theorem State.launch_net (s : State) (m : Msg) (h : m.dst < 32768) : (s.launch m).net = s.net ++ [m] := by
  unfold State.launch; rw [if_pos h]

/-- What is for a peer with an open port leaves through it. -/
@[simp] theorem State.launch_peer (s : State) (m : Msg) (h : 32768 ≤ m.dst) (hp : s.peerOpen (pkgOf m.dst) = true)
    (hd : s.portDrains (pkgOf m.dst) = false) : s.launch m = { s with egress := s.egress ++ [⟨s.peerPort (pkgOf m.dst), m⟩] } := by
  unfold State.launch
  rw [if_neg (Nat.not_lt.2 h), if_neg (by simp [hd]), if_pos (by simp [hp])]

/-- Answers to waiters change no memory. -/
theorem State.answerWaiters_mem (home : CoreId) (v : Word) (ws : List Waiter) :
    ∀ s : State, (ws.foldl (fun q w => q.answerWaiter home w v) s).mem = s.mem := by
  induction ws with
  | nil => exact fun _ => rfl
  | cons w rest ih => exact fun s => (ih _).trans (State.launch_mem ..)

@[simp] theorem State.evalWaiters_mem (s : State) (a : Nat) : (s.evalWaiters a).mem = s.mem := by
  unfold State.evalWaiters
  dsimp only
  split
  · rfl
  · exact State.answerWaiters_mem _ _ _ _

theorem State.evalWaiters_all_mem (ws : List Nat) : ∀ s : State, (ws.foldl (fun q w => q.evalWaiters (w * 8)) s).mem = s.mem := by
  induction ws with
  | nil => exact fun _ => rfl
  | cons w rest ih => exact fun s => (ih _).trans (State.evalWaiters_mem ..)

/-- A write's memory is that of its bytes: the waiters it releases change none. -/
@[simp] theorem State.performWrite_mem (s : State) (a : Nat) (bs : List Byte) : (s.performWrite a bs).mem = (s.putMem a bs).mem :=
  State.evalWaiters_all_mem _ _

theorem State.performWrite_wf (s : State) (a : Nat) (bs : List Byte) (h : Memory.wf s.mem = true) : Memory.wf (s.performWrite a bs).mem = true := by
  rw [State.performWrite_mem]
  exact State.putMem_wf _ _ _ h

theorem State.writeNat_wf (s : State) (a n v : Nat) (h : Memory.wf s.mem = true) : Memory.wf (s.writeNat a n v).mem = true :=
  State.performWrite_wf _ _ _ h

theorem State.writeWord_wf (s : State) (a : Nat) (v : Word) (h : Memory.wf s.mem = true) : Memory.wf (s.writeWord a v).mem = true :=
  State.performWrite_wf _ _ _ h

theorem State.writeWords_wf (ws : List Word) : ∀ (s : State) (a : Nat), Memory.wf s.mem = true → Memory.wf (s.writeWords a ws).mem = true := by
  induction ws with
  | nil => exact fun _ _ h => h
  | cons w rest ih => exact fun s a h => ih _ _ (State.writeWord_wf s a w h)

theorem State.readByte_performWrite (s : State) (a x : Nat) (bs : List Byte) : (s.performWrite a bs).readByte x = (s.putMem a bs).readByte x := by
  unfold State.readByte
  rw [State.performWrite_mem]

/-! ### Records -/

/-- A record joins the fabric or the fault queue, and an agent's count advances: nothing else. -/
theorem State.sendRecord_cases (s : State) (agent : CoreId) (w : Who) (f : FaultInfo) (park : Nat) (remote : Bool) :
    (∃ m, s.sendRecord agent w f park remote = ({ s with fseq := s.fseq.put agent (s.fseq.getD agent 0 + 1) }).launch m)
    ∨ (∃ p h l, s.sendRecord agent w f park remote = ({ s with fseq := s.fseq.put agent (s.fseq.getD agent 0 + 1) }).queueRecord p h l) := by
  unfold State.sendRecord
  dsimp only
  split
  · exact .inr ⟨_, _, _, rfl⟩
  · split
    · exact .inr ⟨_, _, _, rfl⟩
    · split
      · exact .inl ⟨_, rfl⟩
      · exact .inr ⟨_, _, _, rfl⟩

@[simp] theorem State.sendRecord_mem (s : State) (c : CoreId) (w : Who) (f : FaultInfo) (p : Nat) (b : Bool) : (s.sendRecord c w f p b).mem = s.mem := by
  rcases s.sendRecord_cases c w f p b with ⟨m, h⟩ | ⟨q, x, l, h⟩ <;> rw [h]
  · exact State.launch_mem ..
  · rfl

@[simp] theorem State.sendRecord_poison (s : State) (c : CoreId) (w : Who) (f : FaultInfo) (p : Nat) (b : Bool) :
    (s.sendRecord c w f p b).poison = s.poison := by
  rcases s.sendRecord_cases c w f p b with ⟨m, h⟩ | ⟨q, x, l, h⟩ <;> rw [h]
  · exact State.launch_poison ..
  · rfl

@[simp] theorem State.sendRecord_cores (s : State) (c : CoreId) (w : Who) (f : FaultInfo) (p : Nat) (b : Bool) :
    (s.sendRecord c w f p b).cores = s.cores := by
  rcases s.sendRecord_cases c w f p b with ⟨m, h⟩ | ⟨q, x, l, h⟩ <;> rw [h]
  · exact State.launch_cores ..
  · rfl

theorem State.sendRecord_core (s : State) (c d : CoreId) (w : Who) (f : FaultInfo) (p : Nat) (b : Bool) :
    (s.sendRecord c w f p b).core d = s.core d := by
  unfold State.core
  rw [State.sendRecord_cores]

theorem State.sendRecord_slot (s : State) (c d : CoreId) (k : Nat) (w : Who) (f : FaultInfo) (p : Nat) (b : Bool) :
    (s.sendRecord c w f p b).slot d k = s.slot d k := by
  unfold State.slot
  rw [State.sendRecord_core]

@[simp] theorem State.takeFault_mem (s : State) (c : CoreId) (k : Nat) (f : FaultInfo) : (s.takeFault c k f).mem = s.mem :=
  State.sendRecord_mem ..

/-- A fault parks its thread and leaves every other slot. -/
theorem State.takeFault_slot (s : State) (c : CoreId) (k : Nat) (f : FaultInfo) :
    (s.takeFault c k f).slot c k = { s.slot c k with st := .parked, wait := .none, park := some ⟨f.cls, 1, (s.core c).cycle⟩ } := by
  unfold State.takeFault
  rw [State.slot_modSlot_self, State.sendRecord_slot]

theorem State.takeFault_slot_other (s : State) {c d : CoreId} {k j : Nat} (f : FaultInfo) (h : d ≠ c ∨ slotIx j ≠ slotIx k) :
    (s.takeFault c k f).slot d j = s.slot d j := by
  unfold State.takeFault
  rw [State.slot_modSlot_other _ _ h, State.sendRecord_slot]

/-! ### Retiring and blocking -/

/-- With the checker off, retiring writes the pc, puts the thread in RUN and sets when it may issue: nothing else. -/
theorem State.retireTo_off (s : State) (c : CoreId) (k : Nat) (pc : Word) (r : Retire) (sig : Option (BitVec 24))
    (h : bf (s.slot c k).sigctl 1 0 = 0) :
    s.retireTo c k pc r sig = s.setSlot c k { s.slot c k with pc := pc, st := .run, wait := .none, park := none, readyAt := max (s.slot c k).readyAt ((s.core c).cycle + 3) } := by
  unfold State.retireTo checker
  simp [h]

theorem State.retire_off (s : State) (c : CoreId) (k : Nat) (r : Retire) (h : bf (s.slot c k).sigctl 1 0 = 0) :
    s.retire c k r = s.setSlot c k { s.slot c k with pc := addOffset (s.slot c k).pc (BitVec.ofNat 64 r.len), st := .run, wait := .none, park := none, readyAt := max (s.slot c k).readyAt ((s.core c).cycle + 3) } :=
  State.retireTo_off s c k _ r none h

/-- With no register pending, the body runs. -/
theorem State.unlessPending_ready (s : State) (names : List Dest) (body : State) (h : s.anyPending names = false) :
    s.unlessPending names body = body := by
  have hn : names.find? (isPending s s.curCore s.curSlot) = none := by
    rw [List.find?_eq_none]
    intro d hd
    have := List.any_eq_false.1 h d hd
    exact this
  unfold State.unlessPending
  rw [hn]

@[simp] theorem State.cancel_mem (s : State) (why : Why) : (s.cancel why).mem = s.mem := rfl
@[simp] theorem State.block_mem (s : State) (w : Wait) : (s.block w).mem = s.mem := rfl

/-- Blocking changes the issuing thread's state and wait. -/
theorem State.block_slot (s : State) (w : Wait) : (s.block w).slot s.curCore s.curSlot = { s.cur with st := .blocked, wait := w } :=
  State.slot_modSlot_self ..

/-! ### Requests and posted operations -/

/-- A request leaves as one packet, counts a response and blocks its thread. -/
theorem State.request_slot (s : State) (c : CoreId) (k : Nat) (dst : CoreId) (held : Option CoreId) (body : Body) (use : ReplyUse) (r : Retire) :
    (s.request c k dst held body use r).slot c k = { (s.slot c k).addOut with st := .blocked, wait := .reply use r body (s.waitName c k dst held body) } := by
  have h : (s.launch (s.packet c k dst held none body)).slot c k = s.slot c k := by
    unfold State.slot State.core
    rw [State.launch_cores]
  unfold State.request
  rw [State.slot_modSlot_self, State.slot_modSlot_self, h]

@[simp] theorem State.request_mem (s : State) (c : CoreId) (k : Nat) (dst : CoreId) (held : Option CoreId) (body : Body) (use : ReplyUse) (r : Retire) :
    (s.request c k dst held body use r).mem = s.mem := State.launch_mem ..

@[simp] theorem State.request_net (s : State) (c : CoreId) (k : Nat) (dst : CoreId) (held : Option CoreId) (body : Body) (use : ReplyUse) (r : Retire)
    (h : dst < 32768) : (s.request c k dst held body use r).net = s.net ++ [s.packet c k dst held none body] := State.launch_net _ _ h

@[simp] theorem State.post_mem (s : State) (c : CoreId) (k : Nat) (dst : CoreId) (held : Option CoreId) (body : Body) :
    (s.post c k dst held body).mem = s.mem := State.launch_mem ..

@[simp] theorem State.post_net (s : State) (c : CoreId) (k : Nat) (dst : CoreId) (held : Option CoreId) (body : Body) (h : dst < 32768) :
    (s.post c k dst held body).net = s.net ++ [s.packet c k dst held (some (s.slot c k).nextPost) body] := State.launch_net _ _ h

end Sys2Proof.Machine
end

