-- ==== Sys2Proof/Laws/PerInstr.lean ====
section
/-! SUPPORT. The words of every instruction's encoding: a 32-bit word starts with the bits 11 and fits in two parcels, a compact one starts
with 00, 01 or 10 and fits in one (02_encoding R37, R39). One lemma per constructor; a device step has no encoding and says nothing. -/

namespace Sys2Proof.Laws

/-- The word of an instruction lies in the range that its number of parcels gives it. -/
def Layout.Statement (i : Instr) : Prop :=
  i.isDevice = false →
    (i.parcels = 2 ∧ 0xC0000000 ≤ encodeWord i ∧ encodeWord i < 0x100000000) ∨ (i.parcels = 1 ∧ encodeWord i < 0xC000)

theorem Layout.long {w : Nat} (low : 0xC0000000 ≤ w) (high : w < 0x100000000) : 0xC0000000 ≤ w ∧ w < 0x100000000 := ⟨low, high⟩

theorem Layout.add (d : BitVec 5) (a : BitVec 5) (b : BitVec 5) : Layout.Statement (.add d a b) :=
  fun _ => Or.inl ⟨rfl, Layout.long (w := 0xC0000000 + d.toNat * 524288 + a.toNat * 16384 + b.toNat * 512) (by omega) (by omega)⟩
theorem Layout.sub (d : BitVec 5) (a : BitVec 5) (b : BitVec 5) : Layout.Statement (.sub d a b) :=
  fun _ => Or.inl ⟨rfl, Layout.long (w := 0xC0000001 + d.toNat * 524288 + a.toNat * 16384 + b.toNat * 512) (by omega) (by omega)⟩
theorem Layout.and (d : BitVec 5) (a : BitVec 5) (b : BitVec 5) : Layout.Statement (.and d a b) :=
  fun _ => Or.inl ⟨rfl, Layout.long (w := 0xC0000002 + d.toNat * 524288 + a.toNat * 16384 + b.toNat * 512) (by omega) (by omega)⟩
theorem Layout.or (d : BitVec 5) (a : BitVec 5) (b : BitVec 5) : Layout.Statement (.or d a b) :=
  fun _ => Or.inl ⟨rfl, Layout.long (w := 0xC0000003 + d.toNat * 524288 + a.toNat * 16384 + b.toNat * 512) (by omega) (by omega)⟩
theorem Layout.xor (d : BitVec 5) (a : BitVec 5) (b : BitVec 5) : Layout.Statement (.xor d a b) :=
  fun _ => Or.inl ⟨rfl, Layout.long (w := 0xC0000004 + d.toNat * 524288 + a.toNat * 16384 + b.toNat * 512) (by omega) (by omega)⟩
theorem Layout.andn (d : BitVec 5) (a : BitVec 5) (b : BitVec 5) : Layout.Statement (.andn d a b) :=
  fun _ => Or.inl ⟨rfl, Layout.long (w := 0xC0000005 + d.toNat * 524288 + a.toNat * 16384 + b.toNat * 512) (by omega) (by omega)⟩
theorem Layout.sll (d : BitVec 5) (a : BitVec 5) (b : BitVec 5) : Layout.Statement (.sll d a b) :=
  fun _ => Or.inl ⟨rfl, Layout.long (w := 0xC0000006 + d.toNat * 524288 + a.toNat * 16384 + b.toNat * 512) (by omega) (by omega)⟩
theorem Layout.srl (d : BitVec 5) (a : BitVec 5) (b : BitVec 5) : Layout.Statement (.srl d a b) :=
  fun _ => Or.inl ⟨rfl, Layout.long (w := 0xC0000007 + d.toNat * 524288 + a.toNat * 16384 + b.toNat * 512) (by omega) (by omega)⟩
theorem Layout.sra (d : BitVec 5) (a : BitVec 5) (b : BitVec 5) : Layout.Statement (.sra d a b) :=
  fun _ => Or.inl ⟨rfl, Layout.long (w := 0xC0000008 + d.toNat * 524288 + a.toNat * 16384 + b.toNat * 512) (by omega) (by omega)⟩
theorem Layout.rol (d : BitVec 5) (a : BitVec 5) (b : BitVec 5) : Layout.Statement (.rol d a b) :=
  fun _ => Or.inl ⟨rfl, Layout.long (w := 0xC0000009 + d.toNat * 524288 + a.toNat * 16384 + b.toNat * 512) (by omega) (by omega)⟩
theorem Layout.mul (d : BitVec 5) (a : BitVec 5) (b : BitVec 5) : Layout.Statement (.mul d a b) :=
  fun _ => Or.inl ⟨rfl, Layout.long (w := 0xC000000A + d.toNat * 524288 + a.toNat * 16384 + b.toNat * 512) (by omega) (by omega)⟩
theorem Layout.mulh (d : BitVec 5) (a : BitVec 5) (b : BitVec 5) : Layout.Statement (.mulh d a b) :=
  fun _ => Or.inl ⟨rfl, Layout.long (w := 0xC000000B + d.toNat * 524288 + a.toNat * 16384 + b.toNat * 512) (by omega) (by omega)⟩
theorem Layout.mulhu (d : BitVec 5) (a : BitVec 5) (b : BitVec 5) : Layout.Statement (.mulhu d a b) :=
  fun _ => Or.inl ⟨rfl, Layout.long (w := 0xC000000C + d.toNat * 524288 + a.toNat * 16384 + b.toNat * 512) (by omega) (by omega)⟩
theorem Layout.div (d : BitVec 5) (a : BitVec 5) (b : BitVec 5) : Layout.Statement (.div d a b) :=
  fun _ => Or.inl ⟨rfl, Layout.long (w := 0xC000000D + d.toNat * 524288 + a.toNat * 16384 + b.toNat * 512) (by omega) (by omega)⟩
theorem Layout.divu (d : BitVec 5) (a : BitVec 5) (b : BitVec 5) : Layout.Statement (.divu d a b) :=
  fun _ => Or.inl ⟨rfl, Layout.long (w := 0xC000000E + d.toNat * 524288 + a.toNat * 16384 + b.toNat * 512) (by omega) (by omega)⟩
theorem Layout.rem (d : BitVec 5) (a : BitVec 5) (b : BitVec 5) : Layout.Statement (.rem d a b) :=
  fun _ => Or.inl ⟨rfl, Layout.long (w := 0xC000000F + d.toNat * 524288 + a.toNat * 16384 + b.toNat * 512) (by omega) (by omega)⟩
theorem Layout.remu (d : BitVec 5) (a : BitVec 5) (b : BitVec 5) : Layout.Statement (.remu d a b) :=
  fun _ => Or.inl ⟨rfl, Layout.long (w := 0xC0000010 + d.toNat * 524288 + a.toNat * 16384 + b.toNat * 512) (by omega) (by omega)⟩
theorem Layout.slt (d : BitVec 5) (a : BitVec 5) (b : BitVec 5) : Layout.Statement (.slt d a b) :=
  fun _ => Or.inl ⟨rfl, Layout.long (w := 0xC0000011 + d.toNat * 524288 + a.toNat * 16384 + b.toNat * 512) (by omega) (by omega)⟩
theorem Layout.sltu (d : BitVec 5) (a : BitVec 5) (b : BitVec 5) : Layout.Statement (.sltu d a b) :=
  fun _ => Or.inl ⟨rfl, Layout.long (w := 0xC0000012 + d.toNat * 524288 + a.toNat * 16384 + b.toNat * 512) (by omega) (by omega)⟩
theorem Layout.min (d : BitVec 5) (a : BitVec 5) (b : BitVec 5) : Layout.Statement (.min d a b) :=
  fun _ => Or.inl ⟨rfl, Layout.long (w := 0xC0000013 + d.toNat * 524288 + a.toNat * 16384 + b.toNat * 512) (by omega) (by omega)⟩
theorem Layout.max (d : BitVec 5) (a : BitVec 5) (b : BitVec 5) : Layout.Statement (.max d a b) :=
  fun _ => Or.inl ⟨rfl, Layout.long (w := 0xC0000014 + d.toNat * 524288 + a.toNat * 16384 + b.toNat * 512) (by omega) (by omega)⟩
theorem Layout.minu (d : BitVec 5) (a : BitVec 5) (b : BitVec 5) : Layout.Statement (.minu d a b) :=
  fun _ => Or.inl ⟨rfl, Layout.long (w := 0xC0000015 + d.toNat * 524288 + a.toNat * 16384 + b.toNat * 512) (by omega) (by omega)⟩
theorem Layout.maxu (d : BitVec 5) (a : BitVec 5) (b : BitVec 5) : Layout.Statement (.maxu d a b) :=
  fun _ => Or.inl ⟨rfl, Layout.long (w := 0xC0000016 + d.toNat * 524288 + a.toNat * 16384 + b.toNat * 512) (by omega) (by omega)⟩
theorem Layout.addw (d : BitVec 5) (a : BitVec 5) (b : BitVec 5) : Layout.Statement (.addw d a b) :=
  fun _ => Or.inl ⟨rfl, Layout.long (w := 0xC0000017 + d.toNat * 524288 + a.toNat * 16384 + b.toNat * 512) (by omega) (by omega)⟩
theorem Layout.subw (d : BitVec 5) (a : BitVec 5) (b : BitVec 5) : Layout.Statement (.subw d a b) :=
  fun _ => Or.inl ⟨rfl, Layout.long (w := 0xC0000018 + d.toNat * 524288 + a.toNat * 16384 + b.toNat * 512) (by omega) (by omega)⟩
theorem Layout.clz (d : BitVec 5) (a : BitVec 5) : Layout.Statement (.clz d a) :=
  fun _ => Or.inl ⟨rfl, Layout.long (w := 0xC0000019 + d.toNat * 524288 + a.toNat * 16384) (by omega) (by omega)⟩
theorem Layout.ctz (d : BitVec 5) (a : BitVec 5) : Layout.Statement (.ctz d a) :=
  fun _ => Or.inl ⟨rfl, Layout.long (w := 0xC000001A + d.toNat * 524288 + a.toNat * 16384) (by omega) (by omega)⟩
theorem Layout.popc (d : BitVec 5) (a : BitVec 5) : Layout.Statement (.popc d a) :=
  fun _ => Or.inl ⟨rfl, Layout.long (w := 0xC000001B + d.toNat * 524288 + a.toNat * 16384) (by omega) (by omega)⟩
theorem Layout.brev (d : BitVec 5) (a : BitVec 5) : Layout.Statement (.brev d a) :=
  fun _ => Or.inl ⟨rfl, Layout.long (w := 0xC000001C + d.toNat * 524288 + a.toNat * 16384) (by omega) (by omega)⟩
theorem Layout.bswap (d : BitVec 5) (a : BitVec 5) : Layout.Statement (.bswap d a) :=
  fun _ => Or.inl ⟨rfl, Layout.long (w := 0xC000001D + d.toNat * 524288 + a.toNat * 16384) (by omega) (by omega)⟩
theorem Layout.sextb (d : BitVec 5) (a : BitVec 5) : Layout.Statement (.sextb d a) :=
  fun _ => Or.inl ⟨rfl, Layout.long (w := 0xC000001E + d.toNat * 524288 + a.toNat * 16384) (by omega) (by omega)⟩
theorem Layout.sexth (d : BitVec 5) (a : BitVec 5) : Layout.Statement (.sexth d a) :=
  fun _ => Or.inl ⟨rfl, Layout.long (w := 0xC000001F + d.toNat * 524288 + a.toNat * 16384) (by omega) (by omega)⟩
theorem Layout.sextw (d : BitVec 5) (a : BitVec 5) : Layout.Statement (.sextw d a) :=
  fun _ => Or.inl ⟨rfl, Layout.long (w := 0xC0000020 + d.toNat * 524288 + a.toNat * 16384) (by omega) (by omega)⟩
theorem Layout.zextw (d : BitVec 5) (a : BitVec 5) : Layout.Statement (.zextw d a) :=
  fun _ => Or.inl ⟨rfl, Layout.long (w := 0xC0000021 + d.toNat * 524288 + a.toNat * 16384) (by omega) (by omega)⟩
theorem Layout.selz (d : BitVec 5) (a : BitVec 5) (b : BitVec 5) : Layout.Statement (.selz d a b) :=
  fun _ => Or.inl ⟨rfl, Layout.long (w := 0xC0000022 + d.toNat * 524288 + a.toNat * 16384 + b.toNat * 512) (by omega) (by omega)⟩
theorem Layout.selnz (d : BitVec 5) (a : BitVec 5) (b : BitVec 5) : Layout.Statement (.selnz d a b) :=
  fun _ => Or.inl ⟨rfl, Layout.long (w := 0xC0000023 + d.toNat * 524288 + a.toNat * 16384 + b.toNat * 512) (by omega) (by omega)⟩
theorem Layout.extv (d : BitVec 5) (a : BitVec 5) (b : BitVec 5) : Layout.Statement (.extv d a b) :=
  fun _ => Or.inl ⟨rfl, Layout.long (w := 0xC0000024 + d.toNat * 524288 + a.toNat * 16384 + b.toNat * 512) (by omega) (by omega)⟩
theorem Layout.insv (d : BitVec 5) (a : BitVec 5) (b : BitVec 5) : Layout.Statement (.insv d a b) :=
  fun _ => Or.inl ⟨rfl, Layout.long (w := 0xC0000025 + d.toNat * 524288 + a.toNat * 16384 + b.toNat * 512) (by omega) (by omega)⟩
theorem Layout.adds (d : BitVec 5) (a : BitVec 5) (b : BitVec 5) : Layout.Statement (.adds d a b) :=
  fun _ => Or.inl ⟨rfl, Layout.long (w := 0xC0000026 + d.toNat * 524288 + a.toNat * 16384 + b.toNat * 512) (by omega) (by omega)⟩
theorem Layout.subs (d : BitVec 5) (a : BitVec 5) (b : BitVec 5) : Layout.Statement (.subs d a b) :=
  fun _ => Or.inl ⟨rfl, Layout.long (w := 0xC0000027 + d.toNat * 524288 + a.toNat * 16384 + b.toNat * 512) (by omega) (by omega)⟩
theorem Layout.addi (d : BitVec 5) (a : BitVec 5) (i : BitVec 14) : Layout.Statement (.addi d a i) :=
  fun _ => Or.inl ⟨rfl, Layout.long (w := 0xC1000000 + d.toNat * 524288 + a.toNat * 16384 + i.toNat) (by omega) (by omega)⟩
theorem Layout.andi (d : BitVec 5) (a : BitVec 5) (i : BitVec 14) : Layout.Statement (.andi d a i) :=
  fun _ => Or.inl ⟨rfl, Layout.long (w := 0xC2000000 + d.toNat * 524288 + a.toNat * 16384 + i.toNat) (by omega) (by omega)⟩
theorem Layout.ori (d : BitVec 5) (a : BitVec 5) (i : BitVec 14) : Layout.Statement (.ori d a i) :=
  fun _ => Or.inl ⟨rfl, Layout.long (w := 0xC3000000 + d.toNat * 524288 + a.toNat * 16384 + i.toNat) (by omega) (by omega)⟩
theorem Layout.xori (d : BitVec 5) (a : BitVec 5) (i : BitVec 14) : Layout.Statement (.xori d a i) :=
  fun _ => Or.inl ⟨rfl, Layout.long (w := 0xC4000000 + d.toNat * 524288 + a.toNat * 16384 + i.toNat) (by omega) (by omega)⟩
theorem Layout.slti (d : BitVec 5) (a : BitVec 5) (i : BitVec 14) : Layout.Statement (.slti d a i) :=
  fun _ => Or.inl ⟨rfl, Layout.long (w := 0xC5000000 + d.toNat * 524288 + a.toNat * 16384 + i.toNat) (by omega) (by omega)⟩
theorem Layout.sltiu (d : BitVec 5) (a : BitVec 5) (i : BitVec 14) : Layout.Statement (.sltiu d a i) :=
  fun _ => Or.inl ⟨rfl, Layout.long (w := 0xC6000000 + d.toNat * 524288 + a.toNat * 16384 + i.toNat) (by omega) (by omega)⟩
theorem Layout.slli (d : BitVec 5) (a : BitVec 5) (n : BitVec 6) : Layout.Statement (.slli d a n) :=
  fun _ => Or.inl ⟨rfl, Layout.long (w := 0xC7000000 + d.toNat * 524288 + a.toNat * 16384 + n.toNat) (by omega) (by omega)⟩
theorem Layout.srli (d : BitVec 5) (a : BitVec 5) (n : BitVec 6) : Layout.Statement (.srli d a n) :=
  fun _ => Or.inl ⟨rfl, Layout.long (w := 0xC7001000 + d.toNat * 524288 + a.toNat * 16384 + n.toNat) (by omega) (by omega)⟩
theorem Layout.srai (d : BitVec 5) (a : BitVec 5) (n : BitVec 6) : Layout.Statement (.srai d a n) :=
  fun _ => Or.inl ⟨rfl, Layout.long (w := 0xC7002000 + d.toNat * 524288 + a.toNat * 16384 + n.toNat) (by omega) (by omega)⟩
theorem Layout.roli (d : BitVec 5) (a : BitVec 5) (n : BitVec 6) : Layout.Statement (.roli d a n) :=
  fun _ => Or.inl ⟨rfl, Layout.long (w := 0xC7003000 + d.toNat * 524288 + a.toNat * 16384 + n.toNat) (by omega) (by omega)⟩
theorem Layout.extu (d : BitVec 5) (a : BitVec 5) (o : BitVec 6) (w : BitVec 6) : Layout.Statement (.extu d a o w) :=
  fun _ => Or.inl ⟨rfl, Layout.long (w := 0xC8000000 + d.toNat * 524288 + a.toNat * 16384 + o.toNat * 256 + w.toNat) (by omega) (by omega)⟩
theorem Layout.exts (d : BitVec 5) (a : BitVec 5) (o : BitVec 6) (w : BitVec 6) : Layout.Statement (.exts d a o w) :=
  fun _ => Or.inl ⟨rfl, Layout.long (w := 0xC8000040 + d.toNat * 524288 + a.toNat * 16384 + o.toNat * 256 + w.toNat) (by omega) (by omega)⟩
theorem Layout.ins (d : BitVec 5) (a : BitVec 5) (o : BitVec 6) (w : BitVec 6) : Layout.Statement (.ins d a o w) :=
  fun _ => Or.inl ⟨rfl, Layout.long (w := 0xC8000080 + d.toNat * 524288 + a.toNat * 16384 + o.toNat * 256 + w.toNat) (by omega) (by omega)⟩
theorem Layout.li (d : BitVec 5) (i : BitVec 19) : Layout.Statement (.li d i) :=
  fun _ => Or.inl ⟨rfl, Layout.long (w := 0xC9000000 + d.toNat * 524288 + i.toNat) (by omega) (by omega)⟩
theorem Layout.lish (d : BitVec 5) (i : BitVec 16) : Layout.Statement (.lish d i) :=
  fun _ => Or.inl ⟨rfl, Layout.long (w := 0xCA000000 + d.toNat * 524288 + i.toNat) (by omega) (by omega)⟩
theorem Layout.addpc (d : BitVec 5) (i : BitVec 19) : Layout.Statement (.addpc d i) :=
  fun _ => Or.inl ⟨rfl, Layout.long (w := 0xCB000000 + d.toNat * 524288 + i.toNat) (by omega) (by omega)⟩
theorem Layout.beq (a : BitVec 5) (b : BitVec 5) (o : BitVec 14) : Layout.Statement (.beq a b o) :=
  fun _ => Or.inl ⟨rfl, Layout.long (w := 0xD0000000 + a.toNat * 524288 + b.toNat * 16384 + o.toNat) (by omega) (by omega)⟩
theorem Layout.bne (a : BitVec 5) (b : BitVec 5) (o : BitVec 14) : Layout.Statement (.bne a b o) :=
  fun _ => Or.inl ⟨rfl, Layout.long (w := 0xD1000000 + a.toNat * 524288 + b.toNat * 16384 + o.toNat) (by omega) (by omega)⟩
theorem Layout.blt (a : BitVec 5) (b : BitVec 5) (o : BitVec 14) : Layout.Statement (.blt a b o) :=
  fun _ => Or.inl ⟨rfl, Layout.long (w := 0xD2000000 + a.toNat * 524288 + b.toNat * 16384 + o.toNat) (by omega) (by omega)⟩
theorem Layout.bge (a : BitVec 5) (b : BitVec 5) (o : BitVec 14) : Layout.Statement (.bge a b o) :=
  fun _ => Or.inl ⟨rfl, Layout.long (w := 0xD3000000 + a.toNat * 524288 + b.toNat * 16384 + o.toNat) (by omega) (by omega)⟩
theorem Layout.bltu (a : BitVec 5) (b : BitVec 5) (o : BitVec 14) : Layout.Statement (.bltu a b o) :=
  fun _ => Or.inl ⟨rfl, Layout.long (w := 0xD4000000 + a.toNat * 524288 + b.toNat * 16384 + o.toNat) (by omega) (by omega)⟩
theorem Layout.bgeu (a : BitVec 5) (b : BitVec 5) (o : BitVec 14) : Layout.Statement (.bgeu a b o) :=
  fun _ => Or.inl ⟨rfl, Layout.long (w := 0xD5000000 + a.toNat * 524288 + b.toNat * 16384 + o.toNat) (by omega) (by omega)⟩
theorem Layout.jal (d : BitVec 5) (i : BitVec 19) : Layout.Statement (.jal d i) :=
  fun _ => Or.inl ⟨rfl, Layout.long (w := 0xD6000000 + d.toNat * 524288 + i.toNat) (by omega) (by omega)⟩
theorem Layout.jalr (d : BitVec 5) (a : BitVec 5) (i : BitVec 14) : Layout.Statement (.jalr d a i) :=
  fun _ => Or.inl ⟨rfl, Layout.long (w := 0xD7000000 + d.toNat * 524288 + a.toNat * 16384 + i.toNat) (by omega) (by omega)⟩
theorem Layout.fork (d : BitVec 5) (a : BitVec 5) (b : BitVec 5) : Layout.Statement (.fork d a b) :=
  fun _ => Or.inl ⟨rfl, Layout.long (w := 0xD8000000 + d.toNat * 524288 + a.toNat * 16384 + b.toNat * 512) (by omega) (by omega)⟩
theorem Layout.halt : Layout.Statement .halt :=
  fun _ => Or.inl ⟨rfl, Layout.long (w := 0xD8000001) (by omega) (by omega)⟩
theorem Layout.haltk (a : BitVec 5) (b : BitVec 5) : Layout.Statement (.haltk a b) :=
  fun _ => Or.inl ⟨rfl, Layout.long (w := 0xD8000002 + a.toNat * 16384 + b.toNat * 512) (by omega) (by omega)⟩
theorem Layout.yield (a : BitVec 5) : Layout.Statement (.yield a) :=
  fun _ => Or.inl ⟨rfl, Layout.long (w := 0xD8000003 + a.toNat * 16384) (by omega) (by omega)⟩
theorem Layout.wake (a : BitVec 5) : Layout.Statement (.wake a) :=
  fun _ => Or.inl ⟨rfl, Layout.long (w := 0xD8000004 + a.toNat * 16384) (by omega) (by omega)⟩
theorem Layout.bsig (s : BitVec 24) : Layout.Statement (.bsig s) :=
  fun _ => Or.inl ⟨rfl, Layout.long (w := 0xD9000000 + s.toNat) (by omega) (by omega)⟩
theorem Layout.ldb (d : BitVec 5) (a : BitVec 5) (i : BitVec 14) : Layout.Statement (.ldb d a i) :=
  fun _ => Or.inl ⟨rfl, Layout.long (w := 0xDC000000 + d.toNat * 524288 + a.toNat * 16384 + i.toNat) (by omega) (by omega)⟩
theorem Layout.ldbu (d : BitVec 5) (a : BitVec 5) (i : BitVec 14) : Layout.Statement (.ldbu d a i) :=
  fun _ => Or.inl ⟨rfl, Layout.long (w := 0xDD000000 + d.toNat * 524288 + a.toNat * 16384 + i.toNat) (by omega) (by omega)⟩
theorem Layout.ldh (d : BitVec 5) (a : BitVec 5) (i : BitVec 14) : Layout.Statement (.ldh d a i) :=
  fun _ => Or.inl ⟨rfl, Layout.long (w := 0xDE000000 + d.toNat * 524288 + a.toNat * 16384 + i.toNat) (by omega) (by omega)⟩
theorem Layout.ldhu (d : BitVec 5) (a : BitVec 5) (i : BitVec 14) : Layout.Statement (.ldhu d a i) :=
  fun _ => Or.inl ⟨rfl, Layout.long (w := 0xDF000000 + d.toNat * 524288 + a.toNat * 16384 + i.toNat) (by omega) (by omega)⟩
theorem Layout.ldw (d : BitVec 5) (a : BitVec 5) (i : BitVec 14) : Layout.Statement (.ldw d a i) :=
  fun _ => Or.inl ⟨rfl, Layout.long (w := 0xE0000000 + d.toNat * 524288 + a.toNat * 16384 + i.toNat) (by omega) (by omega)⟩
theorem Layout.ldwu (d : BitVec 5) (a : BitVec 5) (i : BitVec 14) : Layout.Statement (.ldwu d a i) :=
  fun _ => Or.inl ⟨rfl, Layout.long (w := 0xE1000000 + d.toNat * 524288 + a.toNat * 16384 + i.toNat) (by omega) (by omega)⟩
theorem Layout.ldd (d : BitVec 5) (a : BitVec 5) (i : BitVec 14) : Layout.Statement (.ldd d a i) :=
  fun _ => Or.inl ⟨rfl, Layout.long (w := 0xE2000000 + d.toNat * 524288 + a.toNat * 16384 + i.toNat) (by omega) (by omega)⟩
theorem Layout.stb (d : BitVec 5) (a : BitVec 5) (i : BitVec 14) : Layout.Statement (.stb d a i) :=
  fun _ => Or.inl ⟨rfl, Layout.long (w := 0xE3000000 + d.toNat * 524288 + a.toNat * 16384 + i.toNat) (by omega) (by omega)⟩
theorem Layout.sth (d : BitVec 5) (a : BitVec 5) (i : BitVec 14) : Layout.Statement (.sth d a i) :=
  fun _ => Or.inl ⟨rfl, Layout.long (w := 0xE4000000 + d.toNat * 524288 + a.toNat * 16384 + i.toNat) (by omega) (by omega)⟩
theorem Layout.stw (d : BitVec 5) (a : BitVec 5) (i : BitVec 14) : Layout.Statement (.stw d a i) :=
  fun _ => Or.inl ⟨rfl, Layout.long (w := 0xE5000000 + d.toNat * 524288 + a.toNat * 16384 + i.toNat) (by omega) (by omega)⟩
theorem Layout.std (d : BitVec 5) (a : BitVec 5) (i : BitVec 14) : Layout.Statement (.std d a i) :=
  fun _ => Or.inl ⟨rfl, Layout.long (w := 0xE6000000 + d.toNat * 524288 + a.toNat * 16384 + i.toNat) (by omega) (by omega)⟩
theorem Layout.ldacq (d : BitVec 5) (a : BitVec 5) (z : BitVec 2) : Layout.Statement (.ldacq d a z) :=
  fun _ => Or.inl ⟨rfl, Layout.long (w := 0xE7000000 + d.toNat * 524288 + a.toNat * 16384 + z.toNat) (by omega) (by omega)⟩
theorem Layout.strel (d : BitVec 5) (a : BitVec 5) (z : BitVec 2) : Layout.Statement (.strel d a z) :=
  fun _ => Or.inl ⟨rfl, Layout.long (w := 0xE7000004 + d.toNat * 524288 + a.toNat * 16384 + z.toNat) (by omega) (by omega)⟩
theorem Layout.fence (s : BitVec 5) : Layout.Statement (.fence s) :=
  fun _ => Or.inl ⟨rfl, Layout.long (w := 0xE7000008 + s.toNat * 512) (by omega) (by omega)⟩
theorem Layout.fenceI : Layout.Statement .fenceI :=
  fun _ => Or.inl ⟨rfl, Layout.long (w := 0xE7000009) (by omega) (by omega)⟩
theorem Layout.send (d : BitVec 5) (a : BitVec 5) (b : BitVec 5) : Layout.Statement (.send d a b) :=
  fun _ => Or.inl ⟨rfl, Layout.long (w := 0xE8000000 + d.toNat * 524288 + a.toNat * 16384 + b.toNat * 512) (by omega) (by omega)⟩
theorem Layout.actm (d : BitVec 5) (a : BitVec 5) (b : BitVec 5) : Layout.Statement (.actm d a b) :=
  fun _ => Or.inl ⟨rfl, Layout.long (w := 0xE8000001 + d.toNat * 524288 + a.toNat * 16384 + b.toNat * 512) (by omega) (by omega)⟩
theorem Layout.mbpop (d : BitVec 5) (a : BitVec 5) (b : BitVec 5) : Layout.Statement (.mbpop d a b) :=
  fun _ => Or.inl ⟨rfl, Layout.long (w := 0xE8000002 + d.toNat * 524288 + a.toNat * 16384 + b.toNat * 512) (by omega) (by omega)⟩
theorem Layout.mbpeek (d : BitVec 5) (a : BitVec 5) : Layout.Statement (.mbpeek d a) :=
  fun _ => Or.inl ⟨rfl, Layout.long (w := 0xE8000003 + d.toNat * 524288 + a.toNat * 16384) (by omega) (by omega)⟩
theorem Layout.mbwait (d : BitVec 5) (a : BitVec 5) (b : BitVec 5) : Layout.Statement (.mbwait d a b) :=
  fun _ => Or.inl ⟨rfl, Layout.long (w := 0xE8000004 + d.toNat * 524288 + a.toNat * 16384 + b.toNat * 512) (by omega) (by omega)⟩
theorem Layout.chld (d : BitVec 5) (a : BitVec 5) (b : BitVec 5) : Layout.Statement (.chld d a b) :=
  fun _ => Or.inl ⟨rfl, Layout.long (w := 0xE8000005 + d.toNat * 524288 + a.toNat * 16384 + b.toNat * 512) (by omega) (by omega)⟩
theorem Layout.chldv (d : BitVec 5) (a : BitVec 5) (b : BitVec 5) : Layout.Statement (.chldv d a b) :=
  fun _ => Or.inl ⟨rfl, Layout.long (w := 0xE8000006 + d.toNat * 524288 + a.toNat * 16384 + b.toNat * 512) (by omega) (by omega)⟩
theorem Layout.amoadd (d : BitVec 5) (a : BitVec 5) (b : BitVec 5) (s : BitVec 1) : Layout.Statement (.amoadd d a b s) :=
  fun _ => Or.inl ⟨rfl, Layout.long (w := 0xE9000000 + d.toNat * 524288 + a.toNat * 16384 + b.toNat * 512 + s.toNat * 16) (by omega) (by omega)⟩
theorem Layout.amoand (d : BitVec 5) (a : BitVec 5) (b : BitVec 5) (s : BitVec 1) : Layout.Statement (.amoand d a b s) :=
  fun _ => Or.inl ⟨rfl, Layout.long (w := 0xE9000001 + d.toNat * 524288 + a.toNat * 16384 + b.toNat * 512 + s.toNat * 16) (by omega) (by omega)⟩
theorem Layout.amoor (d : BitVec 5) (a : BitVec 5) (b : BitVec 5) (s : BitVec 1) : Layout.Statement (.amoor d a b s) :=
  fun _ => Or.inl ⟨rfl, Layout.long (w := 0xE9000002 + d.toNat * 524288 + a.toNat * 16384 + b.toNat * 512 + s.toNat * 16) (by omega) (by omega)⟩
theorem Layout.amoxor (d : BitVec 5) (a : BitVec 5) (b : BitVec 5) (s : BitVec 1) : Layout.Statement (.amoxor d a b s) :=
  fun _ => Or.inl ⟨rfl, Layout.long (w := 0xE9000003 + d.toNat * 524288 + a.toNat * 16384 + b.toNat * 512 + s.toNat * 16) (by omega) (by omega)⟩
theorem Layout.amomin (d : BitVec 5) (a : BitVec 5) (b : BitVec 5) (s : BitVec 1) : Layout.Statement (.amomin d a b s) :=
  fun _ => Or.inl ⟨rfl, Layout.long (w := 0xE9000004 + d.toNat * 524288 + a.toNat * 16384 + b.toNat * 512 + s.toNat * 16) (by omega) (by omega)⟩
theorem Layout.amomax (d : BitVec 5) (a : BitVec 5) (b : BitVec 5) (s : BitVec 1) : Layout.Statement (.amomax d a b s) :=
  fun _ => Or.inl ⟨rfl, Layout.long (w := 0xE9000005 + d.toNat * 524288 + a.toNat * 16384 + b.toNat * 512 + s.toNat * 16) (by omega) (by omega)⟩
theorem Layout.amominu (d : BitVec 5) (a : BitVec 5) (b : BitVec 5) (s : BitVec 1) : Layout.Statement (.amominu d a b s) :=
  fun _ => Or.inl ⟨rfl, Layout.long (w := 0xE9000006 + d.toNat * 524288 + a.toNat * 16384 + b.toNat * 512 + s.toNat * 16) (by omega) (by omega)⟩
theorem Layout.amomaxu (d : BitVec 5) (a : BitVec 5) (b : BitVec 5) (s : BitVec 1) : Layout.Statement (.amomaxu d a b s) :=
  fun _ => Or.inl ⟨rfl, Layout.long (w := 0xE9000007 + d.toNat * 524288 + a.toNat * 16384 + b.toNat * 512 + s.toNat * 16) (by omega) (by omega)⟩
theorem Layout.amoswap (d : BitVec 5) (a : BitVec 5) (b : BitVec 5) (s : BitVec 1) : Layout.Statement (.amoswap d a b s) :=
  fun _ => Or.inl ⟨rfl, Layout.long (w := 0xE9000008 + d.toNat * 524288 + a.toNat * 16384 + b.toNat * 512 + s.toNat * 16) (by omega) (by omega)⟩
theorem Layout.amocas (d : BitVec 5) (a : BitVec 5) (b : BitVec 5) (s : BitVec 1) : Layout.Statement (.amocas d a b s) :=
  fun _ => Or.inl ⟨rfl, Layout.long (w := 0xE9000009 + d.toNat * 524288 + a.toNat * 16384 + b.toNat * 512 + s.toNat * 16) (by omega) (by omega)⟩
theorem Layout.amofadd (d : BitVec 5) (a : BitVec 5) (b : BitVec 5) (s : BitVec 1) : Layout.Statement (.amofadd d a b s) :=
  fun _ => Or.inl ⟨rfl, Layout.long (w := 0xE900000A + d.toNat * 524288 + a.toNat * 16384 + b.toNat * 512 + s.toNat * 16) (by omega) (by omega)⟩
theorem Layout.logapp (o : BitVec 5) (a : BitVec 5) (b : BitVec 5) : Layout.Statement (.logapp o a b) :=
  fun _ => Or.inl ⟨rfl, Layout.long (w := 0xEA000000 + o.toNat * 524288 + a.toNat * 16384 + b.toNat * 512) (by omega) (by omega)⟩
theorem Layout.logseal (d : BitVec 5) : Layout.Statement (.logseal d) :=
  fun _ => Or.inl ⟨rfl, Layout.long (w := 0xEA000001 + d.toNat * 524288) (by omega) (by omega)⟩
theorem Layout.barset (d : BitVec 5) (a : BitVec 5) (b : BitVec 5) : Layout.Statement (.barset d a b) :=
  fun _ => Or.inl ⟨rfl, Layout.long (w := 0xEA000002 + d.toNat * 524288 + a.toNat * 16384 + b.toNat * 512) (by omega) (by omega)⟩
theorem Layout.barj (d : BitVec 5) (a : BitVec 5) : Layout.Statement (.barj d a) :=
  fun _ => Or.inl ⟨rfl, Layout.long (w := 0xEA000003 + d.toNat * 524288 + a.toNat * 16384) (by omega) (by omega)⟩
theorem Layout.barw (d : BitVec 5) (a : BitVec 5) (b : BitVec 5) : Layout.Statement (.barw d a b) :=
  fun _ => Or.inl ⟨rfl, Layout.long (w := 0xEA000004 + d.toNat * 524288 + a.toNat * 16384 + b.toNat * 512) (by omega) (by omega)⟩
theorem Layout.barq (d : BitVec 5) (a : BitVec 5) : Layout.Statement (.barq d a) :=
  fun _ => Or.inl ⟨rfl, Layout.long (w := 0xEA000005 + d.toNat * 524288 + a.toNat * 16384) (by omega) (by omega)⟩
theorem Layout.tladd (d : BitVec 5) (a : BitVec 5) (b : BitVec 5) : Layout.Statement (.tladd d a b) :=
  fun _ => Or.inl ⟨rfl, Layout.long (w := 0xEA000006 + d.toNat * 524288 + a.toNat * 16384 + b.toNat * 512) (by omega) (by omega)⟩
theorem Layout.tlset (d : BitVec 5) (a : BitVec 5) (b : BitVec 5) : Layout.Statement (.tlset d a b) :=
  fun _ => Or.inl ⟨rfl, Layout.long (w := 0xEA000007 + d.toNat * 524288 + a.toNat * 16384 + b.toNat * 512) (by omega) (by omega)⟩
theorem Layout.tlrd (d : BitVec 5) (a : BitVec 5) : Layout.Statement (.tlrd d a) :=
  fun _ => Or.inl ⟨rfl, Layout.long (w := 0xEA000008 + d.toNat * 524288 + a.toNat * 16384) (by omega) (by omega)⟩
theorem Layout.tlwait (d : BitVec 5) (a : BitVec 5) (b : BitVec 5) : Layout.Statement (.tlwait d a b) :=
  fun _ => Or.inl ⟨rfl, Layout.long (w := 0xEA000009 + d.toNat * 524288 + a.toNat * 16384 + b.toNat * 512) (by omega) (by omega)⟩
theorem Layout.tkt (d : BitVec 5) (a : BitVec 5) : Layout.Statement (.tkt d a) :=
  fun _ => Or.inl ⟨rfl, Layout.long (w := 0xEA00000A + d.toNat * 524288 + a.toNat * 16384) (by omega) (by omega)⟩
theorem Layout.tkwait (d : BitVec 5) (a : BitVec 5) (b : BitVec 5) : Layout.Statement (.tkwait d a b) :=
  fun _ => Or.inl ⟨rfl, Layout.long (w := 0xEA00000B + d.toNat * 524288 + a.toNat * 16384 + b.toNat * 512) (by omega) (by omega)⟩
theorem Layout.tkdone (d : BitVec 5) (a : BitVec 5) : Layout.Statement (.tkdone d a) :=
  fun _ => Or.inl ⟨rfl, Layout.long (w := 0xEA00000C + d.toNat * 524288 + a.toNat * 16384) (by omega) (by omega)⟩
theorem Layout.clinit (d : BitVec 5) (a : BitVec 5) (b : BitVec 5) : Layout.Statement (.clinit d a b) :=
  fun _ => Or.inl ⟨rfl, Layout.long (w := 0xEB000000 + d.toNat * 524288 + a.toNat * 16384 + b.toNat * 512) (by omega) (by omega)⟩
theorem Layout.cldec (d : BitVec 5) (a : BitVec 5) : Layout.Statement (.cldec d a) :=
  fun _ => Or.inl ⟨rfl, Layout.long (w := 0xEB000001 + d.toNat * 524288 + a.toNat * 16384) (by omega) (by omega)⟩
theorem Layout.clpush (d : BitVec 5) (a : BitVec 5) : Layout.Statement (.clpush d a) :=
  fun _ => Or.inl ⟨rfl, Layout.long (w := 0xEB000002 + d.toNat * 524288 + a.toNat * 16384) (by omega) (by omega)⟩
theorem Layout.clend (b : BitVec 5) : Layout.Statement (.clend b) :=
  fun _ => Or.inl ⟨rfl, Layout.long (w := 0xEB000003 + b.toNat * 512) (by omega) (by omega)⟩
theorem Layout.qpush (d : BitVec 5) (a : BitVec 5) (b : BitVec 5) : Layout.Statement (.qpush d a b) :=
  fun _ => Or.inl ⟨rfl, Layout.long (w := 0xEB000004 + d.toNat * 524288 + a.toNat * 16384 + b.toNat * 512) (by omega) (by omega)⟩
theorem Layout.qpop (d : BitVec 5) (a : BitVec 5) : Layout.Statement (.qpop d a) :=
  fun _ => Or.inl ⟨rfl, Layout.long (w := 0xEB000005 + d.toNat * 524288 + a.toNat * 16384) (by omega) (by omega)⟩
theorem Layout.qpopw (d : BitVec 5) (a : BitVec 5) (b : BitVec 5) : Layout.Statement (.qpopw d a b) :=
  fun _ => Or.inl ⟨rfl, Layout.long (w := 0xEB000006 + d.toNat * 524288 + a.toNat * 16384 + b.toNat * 512) (by omega) (by omega)⟩
theorem Layout.chnk (d : BitVec 5) (a : BitVec 5) (b : BitVec 5) : Layout.Statement (.chnk d a b) :=
  fun _ => Or.inl ⟨rfl, Layout.long (w := 0xEB000007 + d.toNat * 524288 + a.toNat * 16384 + b.toNat * 512) (by omega) (by omega)⟩
theorem Layout.cpy (d : BitVec 5) (a : BitVec 5) : Layout.Statement (.cpy d a) :=
  fun _ => Or.inl ⟨rfl, Layout.long (w := 0xEC000000 + d.toNat * 524288 + a.toNat * 16384) (by omega) (by omega)⟩
theorem Layout.cpyg (d : BitVec 5) (a : BitVec 5) : Layout.Statement (.cpyg d a) :=
  fun _ => Or.inl ⟨rfl, Layout.long (w := 0xEC000001 + d.toNat * 524288 + a.toNat * 16384) (by omega) (by omega)⟩
theorem Layout.cpys (d : BitVec 5) (a : BitVec 5) : Layout.Statement (.cpys d a) :=
  fun _ => Or.inl ⟨rfl, Layout.long (w := 0xEC000002 + d.toNat * 524288 + a.toNat * 16384) (by omega) (by omega)⟩
theorem Layout.publish (d : BitVec 5) (a : BitVec 5) (b : BitVec 5) : Layout.Statement (.publish d a b) :=
  fun _ => Or.inl ⟨rfl, Layout.long (w := 0xEC000003 + d.toNat * 524288 + a.toNat * 16384 + b.toNat * 512) (by omega) (by omega)⟩
theorem Layout.htst (d : BitVec 5) (a : BitVec 5) : Layout.Statement (.htst d a) :=
  fun _ => Or.inl ⟨rfl, Layout.long (w := 0xEC000004 + d.toNat * 524288 + a.toNat * 16384) (by omega) (by omega)⟩
theorem Layout.hwait (d : BitVec 5) (a : BitVec 5) : Layout.Statement (.hwait d a) :=
  fun _ => Or.inl ⟨rfl, Layout.long (w := 0xEC000005 + d.toNat * 524288 + a.toNat * 16384) (by omega) (by omega)⟩
theorem Layout.hdet (d : BitVec 5) (a : BitVec 5) : Layout.Statement (.hdet d a) :=
  fun _ => Or.inl ⟨rfl, Layout.long (w := 0xEC000006 + d.toNat * 524288 + a.toNat * 16384) (by omega) (by omega)⟩
theorem Layout.hcan (d : BitVec 5) (a : BitVec 5) : Layout.Statement (.hcan d a) :=
  fun _ => Or.inl ⟨rfl, Layout.long (w := 0xEC000007 + d.toNat * 524288 + a.toNat * 16384) (by omega) (by omega)⟩
theorem Layout.mcrd (d : BitVec 5) (a : BitVec 5) : Layout.Statement (.mcrd d a) :=
  fun _ => Or.inl ⟨rfl, Layout.long (w := 0xEC000008 + d.toNat * 524288 + a.toNat * 16384) (by omega) (by omega)⟩
theorem Layout.mcwr (d : BitVec 5) (a : BitVec 5) : Layout.Statement (.mcwr d a) :=
  fun _ => Or.inl ⟨rfl, Layout.long (w := 0xEC000009 + d.toNat * 524288 + a.toNat * 16384) (by omega) (by omega)⟩
theorem Layout.pusht (d : BitVec 5) (a : BitVec 5) : Layout.Statement (.pusht d a) :=
  fun _ => Or.inl ⟨rfl, Layout.long (w := 0xEC00000A + d.toNat * 524288 + a.toNat * 16384) (by omega) (by omega)⟩
theorem Layout.mma (f : BitVec 3) (n : BitVec 2) (a : BitVec 5) (b : BitVec 5) : Layout.Statement (.mma f n a b) :=
  fun _ => Or.inl ⟨rfl, Layout.long (w := 0xED000000 + f.toNat * 2097152 + n.toNat * 524288 + a.toNat * 16384 + b.toNat * 512) (by omega) (by omega)⟩
theorem Layout.mmag (f : BitVec 3) (n : BitVec 2) (a : BitVec 5) (b : BitVec 5) : Layout.Statement (.mmag f n a b) :=
  fun _ => Or.inl ⟨rfl, Layout.long (w := 0xED000001 + f.toNat * 2097152 + n.toNat * 524288 + a.toNat * 16384 + b.toNat * 512) (by omega) (by omega)⟩
theorem Layout.mxzero (d : BitVec 5) (b : BitVec 5) : Layout.Statement (.mxzero d b) :=
  fun _ => Or.inl ⟨rfl, Layout.long (w := 0xED000002 + d.toNat * 524288 + b.toNat * 512) (by omega) (by omega)⟩
theorem Layout.mxlda (d : BitVec 5) (a : BitVec 5) (b : BitVec 5) : Layout.Statement (.mxlda d a b) :=
  fun _ => Or.inl ⟨rfl, Layout.long (w := 0xED000003 + d.toNat * 524288 + a.toNat * 16384 + b.toNat * 512) (by omega) (by omega)⟩
theorem Layout.mxst (d : BitVec 5) (a : BitVec 5) (b : BitVec 5) : Layout.Statement (.mxst d a b) :=
  fun _ => Or.inl ⟨rfl, Layout.long (w := 0xED000004 + d.toNat * 524288 + a.toNat * 16384 + b.toNat * 512) (by omega) (by omega)⟩
theorem Layout.mxepi (a : BitVec 5) : Layout.Statement (.mxepi a) :=
  fun _ => Or.inl ⟨rfl, Layout.long (w := 0xED000005 + a.toNat * 16384) (by omega) (by omega)⟩
theorem Layout.fitset (d : BitVec 5) (a : BitVec 5) : Layout.Statement (.fitset d a) :=
  fun _ => Or.inl ⟨rfl, Layout.long (w := 0xEE000000 + d.toNat * 524288 + a.toNat * 16384) (by omega) (by omega)⟩
theorem Layout.fitget (d : BitVec 5) (a : BitVec 5) : Layout.Statement (.fitget d a) :=
  fun _ => Or.inl ⟨rfl, Layout.long (w := 0xEE000001 + d.toNat * 524288 + a.toNat * 16384) (by omega) (by omega)⟩
theorem Layout.poprank (d : BitVec 5) (a : BitVec 5) : Layout.Statement (.poprank d a) :=
  fun _ => Or.inl ⟨rfl, Layout.long (w := 0xEE000002 + d.toNat * 524288 + a.toNat * 16384) (by omega) (by omega)⟩
theorem Layout.blend (d : BitVec 5) (a : BitVec 5) : Layout.Statement (.blend d a) :=
  fun _ => Or.inl ⟨rfl, Layout.long (w := 0xEE000003 + d.toNat * 524288 + a.toNat * 16384) (by omega) (by omega)⟩
theorem Layout.blendx (d : BitVec 5) (a : BitVec 5) : Layout.Statement (.blendx d a) :=
  fun _ => Or.inl ⟨rfl, Layout.long (w := 0xEE000004 + d.toNat * 524288 + a.toNat * 16384) (by omega) (by omega)⟩
theorem Layout.linrd (d : BitVec 5) (a : BitVec 5) (b : BitVec 5) : Layout.Statement (.linrd d a b) :=
  fun _ => Or.inl ⟨rfl, Layout.long (w := 0xEE000005 + d.toNat * 524288 + a.toNat * 16384 + b.toNat * 512) (by omega) (by omega)⟩
theorem Layout.coll (d : BitVec 5) (a : BitVec 5) : Layout.Statement (.coll d a) :=
  fun _ => Or.inl ⟨rfl, Layout.long (w := 0xEF000000 + d.toNat * 524288 + a.toNat * 16384) (by omega) (by omega)⟩
theorem Layout.cabort (d : BitVec 5) (a : BitVec 5) : Layout.Statement (.cabort d a) :=
  fun _ => Or.inl ⟨rfl, Layout.long (w := 0xEF000001 + d.toNat * 524288 + a.toNat * 16384) (by omega) (by omega)⟩
theorem Layout.catt (d : BitVec 5) (a : BitVec 5) (b : BitVec 5) : Layout.Statement (.catt d a b) :=
  fun _ => Or.inl ⟨rfl, Layout.long (w := 0xEF000002 + d.toNat * 524288 + a.toNat * 16384 + b.toNat * 512) (by omega) (by omega)⟩
theorem Layout.fadd (d : BitVec 5) (a : BitVec 5) (b : BitVec 5) (p : BitVec 1) : Layout.Statement (.fadd d a b p) :=
  fun _ => Or.inl ⟨rfl, Layout.long (w := 0xF0000000 + d.toNat * 524288 + a.toNat * 16384 + b.toNat * 512 + p.toNat) (by omega) (by omega)⟩
theorem Layout.fsub (d : BitVec 5) (a : BitVec 5) (b : BitVec 5) (p : BitVec 1) : Layout.Statement (.fsub d a b p) :=
  fun _ => Or.inl ⟨rfl, Layout.long (w := 0xF0000002 + d.toNat * 524288 + a.toNat * 16384 + b.toNat * 512 + p.toNat) (by omega) (by omega)⟩
theorem Layout.fmul (d : BitVec 5) (a : BitVec 5) (b : BitVec 5) (p : BitVec 1) : Layout.Statement (.fmul d a b p) :=
  fun _ => Or.inl ⟨rfl, Layout.long (w := 0xF0000004 + d.toNat * 524288 + a.toNat * 16384 + b.toNat * 512 + p.toNat) (by omega) (by omega)⟩
theorem Layout.fdiv (d : BitVec 5) (a : BitVec 5) (b : BitVec 5) (p : BitVec 1) : Layout.Statement (.fdiv d a b p) :=
  fun _ => Or.inl ⟨rfl, Layout.long (w := 0xF0000006 + d.toNat * 524288 + a.toNat * 16384 + b.toNat * 512 + p.toNat) (by omega) (by omega)⟩
theorem Layout.fsqrt (d : BitVec 5) (a : BitVec 5) (p : BitVec 1) : Layout.Statement (.fsqrt d a p) :=
  fun _ => Or.inl ⟨rfl, Layout.long (w := 0xF0000008 + d.toNat * 524288 + a.toNat * 16384 + p.toNat) (by omega) (by omega)⟩
theorem Layout.fmin (d : BitVec 5) (a : BitVec 5) (b : BitVec 5) (p : BitVec 1) : Layout.Statement (.fmin d a b p) :=
  fun _ => Or.inl ⟨rfl, Layout.long (w := 0xF000000A + d.toNat * 524288 + a.toNat * 16384 + b.toNat * 512 + p.toNat) (by omega) (by omega)⟩
theorem Layout.fmax (d : BitVec 5) (a : BitVec 5) (b : BitVec 5) (p : BitVec 1) : Layout.Statement (.fmax d a b p) :=
  fun _ => Or.inl ⟨rfl, Layout.long (w := 0xF000000C + d.toNat * 524288 + a.toNat * 16384 + b.toNat * 512 + p.toNat) (by omega) (by omega)⟩
theorem Layout.feq (d : BitVec 5) (a : BitVec 5) (b : BitVec 5) (p : BitVec 1) : Layout.Statement (.feq d a b p) :=
  fun _ => Or.inl ⟨rfl, Layout.long (w := 0xF000000E + d.toNat * 524288 + a.toNat * 16384 + b.toNat * 512 + p.toNat) (by omega) (by omega)⟩
theorem Layout.flt (d : BitVec 5) (a : BitVec 5) (b : BitVec 5) (p : BitVec 1) : Layout.Statement (.flt d a b p) :=
  fun _ => Or.inl ⟨rfl, Layout.long (w := 0xF0000010 + d.toNat * 524288 + a.toNat * 16384 + b.toNat * 512 + p.toNat) (by omega) (by omega)⟩
theorem Layout.fle (d : BitVec 5) (a : BitVec 5) (b : BitVec 5) (p : BitVec 1) : Layout.Statement (.fle d a b p) :=
  fun _ => Or.inl ⟨rfl, Layout.long (w := 0xF0000012 + d.toNat * 524288 + a.toNat * 16384 + b.toNat * 512 + p.toNat) (by omega) (by omega)⟩
theorem Layout.fclass (d : BitVec 5) (a : BitVec 5) (p : BitVec 1) : Layout.Statement (.fclass d a p) :=
  fun _ => Or.inl ⟨rfl, Layout.long (w := 0xF0000014 + d.toNat * 524288 + a.toNat * 16384 + p.toNat) (by omega) (by omega)⟩
theorem Layout.fsgnj (d : BitVec 5) (a : BitVec 5) (b : BitVec 5) (p : BitVec 1) : Layout.Statement (.fsgnj d a b p) :=
  fun _ => Or.inl ⟨rfl, Layout.long (w := 0xF0000016 + d.toNat * 524288 + a.toNat * 16384 + b.toNat * 512 + p.toNat) (by omega) (by omega)⟩
theorem Layout.fsgnjn (d : BitVec 5) (a : BitVec 5) (b : BitVec 5) (p : BitVec 1) : Layout.Statement (.fsgnjn d a b p) :=
  fun _ => Or.inl ⟨rfl, Layout.long (w := 0xF0000018 + d.toNat * 524288 + a.toNat * 16384 + b.toNat * 512 + p.toNat) (by omega) (by omega)⟩
theorem Layout.fcvtFi (d : BitVec 5) (a : BitVec 5) (k : BitVec 3) (p : BitVec 1) : Layout.Statement (.fcvtFi d a k p) :=
  fun _ => Or.inl ⟨rfl, Layout.long (w := 0xF000001A + d.toNat * 524288 + a.toNat * 16384 + k.toNat * 512 + p.toNat) (by omega) (by omega)⟩
theorem Layout.fcvtIf (d : BitVec 5) (a : BitVec 5) (k : BitVec 2) (p : BitVec 1) : Layout.Statement (.fcvtIf d a k p) :=
  fun _ => Or.inl ⟨rfl, Layout.long (w := 0xF000001C + d.toNat * 524288 + a.toNat * 16384 + k.toNat * 512 + p.toNat) (by omega) (by omega)⟩
theorem Layout.fcvtP (d : BitVec 5) (a : BitVec 5) (p : BitVec 1) : Layout.Statement (.fcvtP d a p) :=
  fun _ => Or.inl ⟨rfl, Layout.long (w := 0xF000001E + d.toNat * 524288 + a.toNat * 16384 + p.toNat) (by omega) (by omega)⟩
theorem Layout.fsin (d : BitVec 5) (a : BitVec 5) (p : BitVec 1) : Layout.Statement (.fsin d a p) :=
  fun _ => Or.inl ⟨rfl, Layout.long (w := 0xF0000020 + d.toNat * 524288 + a.toNat * 16384 + p.toNat) (by omega) (by omega)⟩
theorem Layout.fcos (d : BitVec 5) (a : BitVec 5) (p : BitVec 1) : Layout.Statement (.fcos d a p) :=
  fun _ => Or.inl ⟨rfl, Layout.long (w := 0xF0000022 + d.toNat * 524288 + a.toNat * 16384 + p.toNat) (by omega) (by omega)⟩
theorem Layout.fexp2 (d : BitVec 5) (a : BitVec 5) (p : BitVec 1) : Layout.Statement (.fexp2 d a p) :=
  fun _ => Or.inl ⟨rfl, Layout.long (w := 0xF0000024 + d.toNat * 524288 + a.toNat * 16384 + p.toNat) (by omega) (by omega)⟩
theorem Layout.flog2 (d : BitVec 5) (a : BitVec 5) (p : BitVec 1) : Layout.Statement (.flog2 d a p) :=
  fun _ => Or.inl ⟨rfl, Layout.long (w := 0xF0000026 + d.toNat * 524288 + a.toNat * 16384 + p.toNat) (by omega) (by omega)⟩
theorem Layout.fma (d : BitVec 5) (a : BitVec 5) (b : BitVec 5) (p : BitVec 1) : Layout.Statement (.fma d a b p) :=
  fun _ => Or.inl ⟨rfl, Layout.long (w := 0xF1000000 + d.toNat * 524288 + a.toNat * 16384 + b.toNat * 512 + p.toNat) (by omega) (by omega)⟩
theorem Layout.fms (d : BitVec 5) (a : BitVec 5) (b : BitVec 5) (p : BitVec 1) : Layout.Statement (.fms d a b p) :=
  fun _ => Or.inl ⟨rfl, Layout.long (w := 0xF1000002 + d.toNat * 524288 + a.toNat * 16384 + b.toNat * 512 + p.toNat) (by omega) (by omega)⟩
theorem Layout.fnma (d : BitVec 5) (a : BitVec 5) (b : BitVec 5) (p : BitVec 1) : Layout.Statement (.fnma d a b p) :=
  fun _ => Or.inl ⟨rfl, Layout.long (w := 0xF1000004 + d.toNat * 524288 + a.toNat * 16384 + b.toNat * 512 + p.toNat) (by omega) (by omega)⟩
theorem Layout.mfc (d : BitVec 5) (a : BitVec 5) : Layout.Statement (.mfc d a) :=
  fun _ => Or.inl ⟨rfl, Layout.long (w := 0xF2000000 + d.toNat * 524288 + a.toNat * 16384) (by omega) (by omega)⟩
theorem Layout.mtc (a : BitVec 5) (b : BitVec 5) : Layout.Statement (.mtc a b) :=
  fun _ => Or.inl ⟨rfl, Layout.long (w := 0xF2000001 + a.toNat * 16384 + b.toNat * 512) (by omega) (by omega)⟩
theorem Layout.trap (a : BitVec 5) : Layout.Statement (.trap a) :=
  fun _ => Or.inl ⟨rfl, Layout.long (w := 0xF2000002 + a.toNat * 16384) (by omega) (by omega)⟩
theorem Layout.eret : Layout.Statement .eret :=
  fun _ => Or.inl ⟨rfl, Layout.long (w := 0xF2000003) (by omega) (by omega)⟩
theorem Layout.segld (d : BitVec 5) (a : BitVec 5) (b : BitVec 5) : Layout.Statement (.segld d a b) :=
  fun _ => Or.inl ⟨rfl, Layout.long (w := 0xF2000004 + d.toNat * 524288 + a.toNat * 16384 + b.toNat * 512) (by omega) (by omega)⟩
theorem Layout.segst (d : BitVec 5) (a : BitVec 5) (b : BitVec 5) : Layout.Statement (.segst d a b) :=
  fun _ => Or.inl ⟨rfl, Layout.long (w := 0xF2000005 + d.toNat * 524288 + a.toNat * 16384 + b.toNat * 512) (by omega) (by omega)⟩
theorem Layout.bkpt : Layout.Statement .bkpt :=
  fun _ => Or.inl ⟨rfl, Layout.long (w := 0xF2000006) (by omega) (by omega)⟩
theorem Layout.vadd (d : BitVec 5) (a : BitVec 5) (b : BitVec 5) (t : BitVec 4) : Layout.Statement (.vadd d a b t) :=
  fun _ => Or.inl ⟨rfl, Layout.long (w := 0xF4000000 + d.toNat * 524288 + a.toNat * 16384 + b.toNat * 512 + t.toNat * 32) (by omega) (by omega)⟩
theorem Layout.vsub (d : BitVec 5) (a : BitVec 5) (b : BitVec 5) (t : BitVec 4) : Layout.Statement (.vsub d a b t) :=
  fun _ => Or.inl ⟨rfl, Layout.long (w := 0xF4000001 + d.toNat * 524288 + a.toNat * 16384 + b.toNat * 512 + t.toNat * 32) (by omega) (by omega)⟩
theorem Layout.vmul (d : BitVec 5) (a : BitVec 5) (b : BitVec 5) (t : BitVec 4) : Layout.Statement (.vmul d a b t) :=
  fun _ => Or.inl ⟨rfl, Layout.long (w := 0xF4000002 + d.toNat * 524288 + a.toNat * 16384 + b.toNat * 512 + t.toNat * 32) (by omega) (by omega)⟩
theorem Layout.vfma (d : BitVec 5) (a : BitVec 5) (b : BitVec 5) (t : BitVec 4) : Layout.Statement (.vfma d a b t) :=
  fun _ => Or.inl ⟨rfl, Layout.long (w := 0xF4000003 + d.toNat * 524288 + a.toNat * 16384 + b.toNat * 512 + t.toNat * 32) (by omega) (by omega)⟩
theorem Layout.vmin (d : BitVec 5) (a : BitVec 5) (b : BitVec 5) (t : BitVec 4) : Layout.Statement (.vmin d a b t) :=
  fun _ => Or.inl ⟨rfl, Layout.long (w := 0xF4000004 + d.toNat * 524288 + a.toNat * 16384 + b.toNat * 512 + t.toNat * 32) (by omega) (by omega)⟩
theorem Layout.vmax (d : BitVec 5) (a : BitVec 5) (b : BitVec 5) (t : BitVec 4) : Layout.Statement (.vmax d a b t) :=
  fun _ => Or.inl ⟨rfl, Layout.long (w := 0xF4000005 + d.toNat * 524288 + a.toNat * 16384 + b.toNat * 512 + t.toNat * 32) (by omega) (by omega)⟩
theorem Layout.vabs (d : BitVec 5) (a : BitVec 5) (t : BitVec 4) : Layout.Statement (.vabs d a t) :=
  fun _ => Or.inl ⟨rfl, Layout.long (w := 0xF4000006 + d.toNat * 524288 + a.toNat * 16384 + t.toNat * 32) (by omega) (by omega)⟩
theorem Layout.vneg (d : BitVec 5) (a : BitVec 5) (t : BitVec 4) : Layout.Statement (.vneg d a t) :=
  fun _ => Or.inl ⟨rfl, Layout.long (w := 0xF4000007 + d.toNat * 524288 + a.toNat * 16384 + t.toNat * 32) (by omega) (by omega)⟩
theorem Layout.vand (d : BitVec 5) (a : BitVec 5) (b : BitVec 5) (t : BitVec 4) : Layout.Statement (.vand d a b t) :=
  fun _ => Or.inl ⟨rfl, Layout.long (w := 0xF4000008 + d.toNat * 524288 + a.toNat * 16384 + b.toNat * 512 + t.toNat * 32) (by omega) (by omega)⟩
theorem Layout.vor (d : BitVec 5) (a : BitVec 5) (b : BitVec 5) (t : BitVec 4) : Layout.Statement (.vor d a b t) :=
  fun _ => Or.inl ⟨rfl, Layout.long (w := 0xF4000009 + d.toNat * 524288 + a.toNat * 16384 + b.toNat * 512 + t.toNat * 32) (by omega) (by omega)⟩
theorem Layout.vxor (d : BitVec 5) (a : BitVec 5) (b : BitVec 5) (t : BitVec 4) : Layout.Statement (.vxor d a b t) :=
  fun _ => Or.inl ⟨rfl, Layout.long (w := 0xF400000A + d.toNat * 524288 + a.toNat * 16384 + b.toNat * 512 + t.toNat * 32) (by omega) (by omega)⟩
theorem Layout.vshl (d : BitVec 5) (a : BitVec 5) (b : BitVec 5) (t : BitVec 4) : Layout.Statement (.vshl d a b t) :=
  fun _ => Or.inl ⟨rfl, Layout.long (w := 0xF400000B + d.toNat * 524288 + a.toNat * 16384 + b.toNat * 512 + t.toNat * 32) (by omega) (by omega)⟩
theorem Layout.vshr (d : BitVec 5) (a : BitVec 5) (b : BitVec 5) (t : BitVec 4) : Layout.Statement (.vshr d a b t) :=
  fun _ => Or.inl ⟨rfl, Layout.long (w := 0xF400000C + d.toNat * 524288 + a.toNat * 16384 + b.toNat * 512 + t.toNat * 32) (by omega) (by omega)⟩
theorem Layout.vsra (d : BitVec 5) (a : BitVec 5) (b : BitVec 5) (t : BitVec 4) : Layout.Statement (.vsra d a b t) :=
  fun _ => Or.inl ⟨rfl, Layout.long (w := 0xF400000D + d.toNat * 524288 + a.toNat * 16384 + b.toNat * 512 + t.toNat * 32) (by omega) (by omega)⟩
theorem Layout.vadds (d : BitVec 5) (a : BitVec 5) (b : BitVec 5) (t : BitVec 4) : Layout.Statement (.vadds d a b t) :=
  fun _ => Or.inl ⟨rfl, Layout.long (w := 0xF400000E + d.toNat * 524288 + a.toNat * 16384 + b.toNat * 512 + t.toNat * 32) (by omega) (by omega)⟩
theorem Layout.vsubs (d : BitVec 5) (a : BitVec 5) (b : BitVec 5) (t : BitVec 4) : Layout.Statement (.vsubs d a b t) :=
  fun _ => Or.inl ⟨rfl, Layout.long (w := 0xF400000F + d.toNat * 524288 + a.toNat * 16384 + b.toNat * 512 + t.toNat * 32) (by omega) (by omega)⟩
theorem Layout.vmulh (d : BitVec 5) (a : BitVec 5) (b : BitVec 5) (t : BitVec 4) : Layout.Statement (.vmulh d a b t) :=
  fun _ => Or.inl ⟨rfl, Layout.long (w := 0xF4000010 + d.toNat * 524288 + a.toNat * 16384 + b.toNat * 512 + t.toNat * 32) (by omega) (by omega)⟩
theorem Layout.vdiv (d : BitVec 5) (a : BitVec 5) (b : BitVec 5) (t : BitVec 4) : Layout.Statement (.vdiv d a b t) :=
  fun _ => Or.inl ⟨rfl, Layout.long (w := 0xF4000011 + d.toNat * 524288 + a.toNat * 16384 + b.toNat * 512 + t.toNat * 32) (by omega) (by omega)⟩
theorem Layout.vcmpeq (d : BitVec 5) (a : BitVec 5) (b : BitVec 5) (t : BitVec 4) : Layout.Statement (.vcmpeq d a b t) :=
  fun _ => Or.inl ⟨rfl, Layout.long (w := 0xF5000000 + d.toNat * 524288 + a.toNat * 16384 + b.toNat * 512 + t.toNat * 32) (by omega) (by omega)⟩
theorem Layout.vcmplt (d : BitVec 5) (a : BitVec 5) (b : BitVec 5) (t : BitVec 4) : Layout.Statement (.vcmplt d a b t) :=
  fun _ => Or.inl ⟨rfl, Layout.long (w := 0xF5000001 + d.toNat * 524288 + a.toNat * 16384 + b.toNat * 512 + t.toNat * 32) (by omega) (by omega)⟩
theorem Layout.vcmple (d : BitVec 5) (a : BitVec 5) (b : BitVec 5) (t : BitVec 4) : Layout.Statement (.vcmple d a b t) :=
  fun _ => Or.inl ⟨rfl, Layout.long (w := 0xF5000002 + d.toNat * 524288 + a.toNat * 16384 + b.toNat * 512 + t.toNat * 32) (by omega) (by omega)⟩
theorem Layout.vsel (d : BitVec 5) (a : BitVec 5) (b : BitVec 5) (t : BitVec 4) : Layout.Statement (.vsel d a b t) :=
  fun _ => Or.inl ⟨rfl, Layout.long (w := 0xF5000003 + d.toNat * 524288 + a.toNat * 16384 + b.toNat * 512 + t.toNat * 32) (by omega) (by omega)⟩
theorem Layout.vshuf (d : BitVec 5) (a : BitVec 5) (b : BitVec 5) (t : BitVec 4) : Layout.Statement (.vshuf d a b t) :=
  fun _ => Or.inl ⟨rfl, Layout.long (w := 0xF5000004 + d.toNat * 524288 + a.toNat * 16384 + b.toNat * 512 + t.toNat * 32) (by omega) (by omega)⟩
theorem Layout.vbcast (d : BitVec 5) (a : BitVec 5) (t : BitVec 4) : Layout.Statement (.vbcast d a t) :=
  fun _ => Or.inl ⟨rfl, Layout.long (w := 0xF5000005 + d.toNat * 524288 + a.toNat * 16384 + t.toNat * 32) (by omega) (by omega)⟩
theorem Layout.vextr (d : BitVec 5) (a : BitVec 5) (b : BitVec 5) (t : BitVec 4) : Layout.Statement (.vextr d a b t) :=
  fun _ => Or.inl ⟨rfl, Layout.long (w := 0xF5000006 + d.toNat * 524288 + a.toNat * 16384 + b.toNat * 512 + t.toNat * 32) (by omega) (by omega)⟩
theorem Layout.vins (d : BitVec 5) (a : BitVec 5) (b : BitVec 5) (t : BitVec 4) : Layout.Statement (.vins d a b t) :=
  fun _ => Or.inl ⟨rfl, Layout.long (w := 0xF5000007 + d.toNat * 524288 + a.toNat * 16384 + b.toNat * 512 + t.toNat * 32) (by omega) (by omega)⟩
theorem Layout.vredadd (d : BitVec 5) (a : BitVec 5) (t : BitVec 4) : Layout.Statement (.vredadd d a t) :=
  fun _ => Or.inl ⟨rfl, Layout.long (w := 0xF5000008 + d.toNat * 524288 + a.toNat * 16384 + t.toNat * 32) (by omega) (by omega)⟩
theorem Layout.vredmax (d : BitVec 5) (a : BitVec 5) (t : BitVec 4) : Layout.Statement (.vredmax d a t) :=
  fun _ => Or.inl ⟨rfl, Layout.long (w := 0xF5000009 + d.toNat * 524288 + a.toNat * 16384 + t.toNat * 32) (by omega) (by omega)⟩
theorem Layout.vredmin (d : BitVec 5) (a : BitVec 5) (t : BitVec 4) : Layout.Statement (.vredmin d a t) :=
  fun _ => Or.inl ⟨rfl, Layout.long (w := 0xF500000A + d.toNat * 524288 + a.toNat * 16384 + t.toNat * 32) (by omega) (by omega)⟩
theorem Layout.vdot (d : BitVec 5) (a : BitVec 5) (b : BitVec 5) (t : BitVec 4) : Layout.Statement (.vdot d a b t) :=
  fun _ => Or.inl ⟨rfl, Layout.long (w := 0xF500000B + d.toNat * 524288 + a.toNat * 16384 + b.toNat * 512 + t.toNat * 32) (by omega) (by omega)⟩
theorem Layout.vmov (d : BitVec 5) (a : BitVec 5) (t : BitVec 4) : Layout.Statement (.vmov d a t) :=
  fun _ => Or.inl ⟨rfl, Layout.long (w := 0xF500000C + d.toNat * 524288 + a.toNat * 16384 + t.toNat * 32) (by omega) (by omega)⟩
theorem Layout.vcvt (d : BitVec 5) (a : BitVec 5) (t : BitVec 4) (s : BitVec 4) (n : BitVec 5) : Layout.Statement (.vcvt d a t s n) :=
  fun _ => Or.inl ⟨rfl, Layout.long (w := 0xF6000000 + d.toNat * 524288 + a.toNat * 16384 + t.toNat * 512 + s.toNat * 32 + n.toNat) (by omega) (by omega)⟩
theorem Layout.vrcp (d : BitVec 5) (a : BitVec 5) (t : BitVec 4) : Layout.Statement (.vrcp d a t) :=
  fun _ => Or.inl ⟨rfl, Layout.long (w := 0xF7000000 + d.toNat * 524288 + a.toNat * 16384 + t.toNat * 32) (by omega) (by omega)⟩
theorem Layout.vrsq (d : BitVec 5) (a : BitVec 5) (t : BitVec 4) : Layout.Statement (.vrsq d a t) :=
  fun _ => Or.inl ⟨rfl, Layout.long (w := 0xF7000001 + d.toNat * 524288 + a.toNat * 16384 + t.toNat * 32) (by omega) (by omega)⟩
theorem Layout.vexp2 (d : BitVec 5) (a : BitVec 5) (t : BitVec 4) : Layout.Statement (.vexp2 d a t) :=
  fun _ => Or.inl ⟨rfl, Layout.long (w := 0xF7000002 + d.toNat * 524288 + a.toNat * 16384 + t.toNat * 32) (by omega) (by omega)⟩
theorem Layout.vlog2 (d : BitVec 5) (a : BitVec 5) (t : BitVec 4) : Layout.Statement (.vlog2 d a t) :=
  fun _ => Or.inl ⟨rfl, Layout.long (w := 0xF7000003 + d.toNat * 524288 + a.toNat * 16384 + t.toNat * 32) (by omega) (by omega)⟩
theorem Layout.vsin (d : BitVec 5) (a : BitVec 5) (t : BitVec 4) : Layout.Statement (.vsin d a t) :=
  fun _ => Or.inl ⟨rfl, Layout.long (w := 0xF7000004 + d.toNat * 524288 + a.toNat * 16384 + t.toNat * 32) (by omega) (by omega)⟩
theorem Layout.vcos (d : BitVec 5) (a : BitVec 5) (t : BitVec 4) : Layout.Statement (.vcos d a t) :=
  fun _ => Or.inl ⟨rfl, Layout.long (w := 0xF7000005 + d.toNat * 524288 + a.toNat * 16384 + t.toNat * 32) (by omega) (by omega)⟩
theorem Layout.vtanh (d : BitVec 5) (a : BitVec 5) (t : BitVec 4) : Layout.Statement (.vtanh d a t) :=
  fun _ => Or.inl ⟨rfl, Layout.long (w := 0xF7000006 + d.toNat * 524288 + a.toNat * 16384 + t.toNat * 32) (by omega) (by omega)⟩
theorem Layout.vsigm (d : BitVec 5) (a : BitVec 5) (t : BitVec 4) : Layout.Statement (.vsigm d a t) :=
  fun _ => Or.inl ⟨rfl, Layout.long (w := 0xF7000007 + d.toNat * 524288 + a.toNat * 16384 + t.toNat * 32) (by omega) (by omega)⟩
theorem Layout.vld (d : BitVec 5) (a : BitVec 5) (i : BitVec 14) : Layout.Statement (.vld d a i) :=
  fun _ => Or.inl ⟨rfl, Layout.long (w := 0xF8000000 + d.toNat * 524288 + a.toNat * 16384 + i.toNat) (by omega) (by omega)⟩
theorem Layout.vst (d : BitVec 5) (a : BitVec 5) (i : BitVec 14) : Layout.Statement (.vst d a i) :=
  fun _ => Or.inl ⟨rfl, Layout.long (w := 0xF9000000 + d.toNat * 524288 + a.toNat * 16384 + i.toNat) (by omega) (by omega)⟩
theorem Layout.movK (d : BitVec 4) (a : BitVec 4) : Layout.Statement (.movK d a) :=
  fun _ => Or.inr ⟨rfl, (by omega : 0x0 + d.toNat * 256 + a.toNat * 16 < 0xC000)⟩
theorem Layout.addK (d : BitVec 4) (a : BitVec 4) (b : BitVec 4) : Layout.Statement (.addK d a b) :=
  fun _ => Or.inr ⟨rfl, (by omega : 0x1000 + d.toNat * 256 + a.toNat * 16 + b.toNat < 0xC000)⟩
theorem Layout.subK (d : BitVec 4) (a : BitVec 4) (b : BitVec 4) : Layout.Statement (.subK d a b) :=
  fun _ => Or.inr ⟨rfl, (by omega : 0x2000 + d.toNat * 256 + a.toNat * 16 + b.toNat < 0xC000)⟩
theorem Layout.andK (d : BitVec 4) (a : BitVec 4) (b : BitVec 4) : Layout.Statement (.andK d a b) :=
  fun _ => Or.inr ⟨rfl, (by omega : 0x3000 + d.toNat * 256 + a.toNat * 16 + b.toNat < 0xC000)⟩
theorem Layout.orK (d : BitVec 4) (a : BitVec 4) (b : BitVec 4) : Layout.Statement (.orK d a b) :=
  fun _ => Or.inr ⟨rfl, (by omega : 0x4000 + d.toNat * 256 + a.toNat * 16 + b.toNat < 0xC000)⟩
theorem Layout.xorK (d : BitVec 4) (a : BitVec 4) (b : BitVec 4) : Layout.Statement (.xorK d a b) :=
  fun _ => Or.inr ⟨rfl, (by omega : 0x5000 + d.toNat * 256 + a.toNat * 16 + b.toNat < 0xC000)⟩
theorem Layout.addiK (d : BitVec 4) (a : BitVec 4) (i : BitVec 4) : Layout.Statement (.addiK d a i) :=
  fun _ => Or.inr ⟨rfl, (by omega : 0x6000 + d.toNat * 256 + a.toNat * 16 + i.toNat < 0xC000)⟩
theorem Layout.slliK (d : BitVec 4) (a : BitVec 4) (i : BitVec 4) : Layout.Statement (.slliK d a i) :=
  fun _ => Or.inr ⟨rfl, (by omega : 0x7000 + d.toNat * 256 + a.toNat * 16 + i.toNat < 0xC000)⟩
theorem Layout.lddK (d : BitVec 4) (a : BitVec 4) (i : BitVec 4) : Layout.Statement (.lddK d a i) :=
  fun _ => Or.inr ⟨rfl, (by omega : 0x8000 + d.toNat * 256 + a.toNat * 16 + i.toNat < 0xC000)⟩
theorem Layout.stdK (d : BitVec 4) (a : BitVec 4) (i : BitVec 4) : Layout.Statement (.stdK d a i) :=
  fun _ => Or.inr ⟨rfl, (by omega : 0x9000 + d.toNat * 256 + a.toNat * 16 + i.toNat < 0xC000)⟩
theorem Layout.beqz (a : BitVec 4) (o : BitVec 8) : Layout.Statement (.beqz a o) :=
  fun _ => Or.inr ⟨rfl, (by omega : 0xA000 + a.toNat * 256 + o.toNat < 0xC000)⟩
theorem Layout.bnez (a : BitVec 4) (o : BitVec 8) : Layout.Statement (.bnez a o) :=
  fun _ => Or.inr ⟨rfl, (by omega : 0xB000 + a.toNat * 256 + o.toNat < 0xC000)⟩
theorem Layout.illegalInstruction (p0 p1 : BitVec 16) (two : Bool) : Layout.Statement (.illegalInstruction p0 p1 two) := fun h => Bool.noConfusion h
theorem Layout.slotGrant (core : Nat) : Layout.Statement (.slotGrant core) := fun h => Bool.noConfusion h
theorem Layout.generationAdvance (core slot : Nat) : Layout.Statement (.generationAdvance core slot) := fun h => Bool.noConfusion h
theorem Layout.yieldIntervalEnd (core slot : Nat) : Layout.Statement (.yieldIntervalEnd core slot) := fun h => Bool.noConfusion h
theorem Layout.divideComplete (core slot : Nat) : Layout.Statement (.divideComplete core slot) := fun h => Bool.noConfusion h
theorem Layout.fpIterativeComplete (core slot : Nat) : Layout.Statement (.fpIterativeComplete core slot) := fun h => Bool.noConfusion h
theorem Layout.vectorIterativeComplete (core slot : Nat) : Layout.Statement (.vectorIterativeComplete core slot) := fun h => Bool.noConfusion h
theorem Layout.bankPowerDown (core bank : Nat) : Layout.Statement (.bankPowerDown core bank) := fun h => Bool.noConfusion h
theorem Layout.bankPowerUp (core bank : Nat) : Layout.Statement (.bankPowerUp core bank) := fun h => Bool.noConfusion h
theorem Layout.slotLend (core : Nat) : Layout.Statement (.slotLend core) := fun h => Bool.noConfusion h
theorem Layout.spill (core slot : Nat) : Layout.Statement (.spill core slot) := fun h => Bool.noConfusion h
theorem Layout.fill (core slot : Nat) : Layout.Statement (.fill core slot) := fun h => Bool.noConfusion h
theorem Layout.loadRequest (n : Nat) : Layout.Statement (.loadRequest n) := fun h => Bool.noConfusion h
theorem Layout.store (n : Nat) : Layout.Statement (.store n) := fun h => Bool.noConfusion h
theorem Layout.dataReply (n : Nat) : Layout.Statement (.dataReply n) := fun h => Bool.noConfusion h
theorem Layout.acknowledgement (n : Nat) : Layout.Statement (.acknowledgement n) := fun h => Bool.noConfusion h
theorem Layout.registerParityError (core slot : Nat) : Layout.Statement (.registerParityError core slot) := fun h => Bool.noConfusion h
theorem Layout.sharedBankParityError (core slot : Nat) : Layout.Statement (.sharedBankParityError core slot) := fun h => Bool.noConfusion h
theorem Layout.mailboxMessage (n : Nat) : Layout.Statement (.mailboxMessage n) := fun h => Bool.noConfusion h
theorem Layout.mbwaitTimeout (core slot : Nat) : Layout.Statement (.mbwaitTimeout core slot) := fun h => Bool.noConfusion h
theorem Layout.activeMessage (n : Nat) : Layout.Statement (.activeMessage n) := fun h => Bool.noConfusion h
theorem Layout.messageStatus (n : Nat) : Layout.Statement (.messageStatus n) := fun h => Bool.noConfusion h
theorem Layout.wakeMessage (n : Nat) : Layout.Statement (.wakeMessage n) := fun h => Bool.noConfusion h
theorem Layout.chainStep (n : Nat) : Layout.Statement (.chainStep n) := fun h => Bool.noConfusion h
theorem Layout.chainReply (n : Nat) : Layout.Statement (.chainReply n) := fun h => Bool.noConfusion h
theorem Layout.atomic (n : Nat) : Layout.Statement (.atomic n) := fun h => Bool.noConfusion h
theorem Layout.synchronisation (n : Nat) : Layout.Statement (.synchronisation n) := fun h => Bool.noConfusion h
theorem Layout.waitRetry (core slot : Nat) : Layout.Statement (.waitRetry core slot) := fun h => Bool.noConfusion h
theorem Layout.logAppend (n : Nat) : Layout.Statement (.logAppend n) := fun h => Bool.noConfusion h
theorem Layout.controlSpaceAccess (n : Nat) : Layout.Statement (.controlSpaceAccess n) := fun h => Bool.noConfusion h
theorem Layout.slotctlResume (core slot : Nat) : Layout.Statement (.slotctlResume core slot) := fun h => Bool.noConfusion h
theorem Layout.skip (core slot : Nat) : Layout.Statement (.skip core slot) := fun h => Bool.noConfusion h
theorem Layout.kill (core slot : Nat) : Layout.Statement (.kill core slot) := fun h => Bool.noConfusion h
theorem Layout.release (core slot : Nat) : Layout.Statement (.release core slot) := fun h => Bool.noConfusion h
theorem Layout.heldMessageAppend (n : Nat) : Layout.Statement (.heldMessageAppend n) := fun h => Bool.noConfusion h
theorem Layout.overflowQueueDelivery (part vbh : Nat) : Layout.Statement (.overflowQueueDelivery part vbh) := fun h => Bool.noConfusion h
theorem Layout.overflowRetry (part vbh : Nat) : Layout.Statement (.overflowRetry part vbh) := fun h => Bool.noConfusion h
theorem Layout.pageTableWalk (core cls : Nat) (va : BitVec 48) : Layout.Statement (.pageTableWalk core cls va) := fun h => Bool.noConfusion h
theorem Layout.scoreboardGrant (core : Nat) : Layout.Statement (.scoreboardGrant core) := fun h => Bool.noConfusion h
theorem Layout.mergeWindowEnd (cmd : Nat) : Layout.Statement (.mergeWindowEnd cmd) := fun h => Bool.noConfusion h
theorem Layout.bufferHeaderAccess (cmd : Nat) : Layout.Statement (.bufferHeaderAccess cmd) := fun h => Bool.noConfusion h
theorem Layout.copyPiece (cmd : Nat) : Layout.Statement (.copyPiece cmd) := fun h => Bool.noConfusion h
theorem Layout.engineCompletion (cmd : Nat) : Layout.Statement (.engineCompletion cmd) := fun h => Bool.noConfusion h
theorem Layout.publishFlip (cmd : Nat) : Layout.Statement (.publishFlip cmd) := fun h => Bool.noConfusion h
theorem Layout.pressFetch (core : Nat) : Layout.Statement (.pressFetch core) := fun h => Bool.noConfusion h
theorem Layout.pressStart (cluster : Nat) : Layout.Statement (.pressStart cluster) := fun h => Bool.noConfusion h
theorem Layout.pressComplete (cluster : Nat) : Layout.Statement (.pressComplete cluster) := fun h => Bool.noConfusion h
theorem Layout.dispatcherStage (core : Nat) : Layout.Statement (.dispatcherStage core) := fun h => Bool.noConfusion h
theorem Layout.heldRingPush (core : Nat) : Layout.Statement (.heldRingPush core) := fun h => Bool.noConfusion h
theorem Layout.keyRequest (n : Nat) : Layout.Statement (.keyRequest n) := fun h => Bool.noConfusion h
theorem Layout.keyGrant (n : Nat) : Layout.Statement (.keyGrant n) := fun h => Bool.noConfusion h
theorem Layout.keyRetry (core entry : Nat) : Layout.Statement (.keyRetry core entry) := fun h => Bool.noConfusion h
theorem Layout.keyRelease (n : Nat) : Layout.Statement (.keyRelease n) := fun h => Bool.noConfusion h
theorem Layout.qpopwTimeout (core slot : Nat) : Layout.Statement (.qpopwTimeout core slot) := fun h => Bool.noConfusion h
theorem Layout.blendPair (cmd pair : Nat) : Layout.Statement (.blendPair cmd pair) := fun h => Bool.noConfusion h
theorem Layout.collectiveContribution (n : Nat) : Layout.Statement (.collectiveContribution n) := fun h => Bool.noConfusion h
theorem Layout.abortToken (n : Nat) : Layout.Statement (.abortToken n) := fun h => Bool.noConfusion h
theorem Layout.faultQueueAppend (n : Nat) : Layout.Statement (.faultQueueAppend n) := fun h => Bool.noConfusion h
theorem Layout.reservedKindPacket (link : Nat) (kind : BitVec 5) : Layout.Statement (.reservedKindPacket link kind) := fun h => Bool.noConfusion h
theorem Layout.groupIngress (peer part : Nat) (kind : BitVec 5) (target : BitVec 64) (payload : List (BitVec 64)) : Layout.Statement (.groupIngress peer part kind target payload) := fun h => Bool.noConfusion h
theorem Layout.rotationWrite (core : Nat) (hi : Bool) (v : BitVec 64) : Layout.Statement (.rotationWrite core hi v) := fun h => Bool.noConfusion h
theorem Layout.sigctlWrite (core slot : Nat) (v : BitVec 64) : Layout.Statement (.sigctlWrite core slot v) := fun h => Bool.noConfusion h
theorem Layout.mailboxConfigWrite (core : Nat) (size : Bool) (mb : BitVec 2) (v : BitVec 64) : Layout.Statement (.mailboxConfigWrite core size mb v) := fun h => Bool.noConfusion h
theorem Layout.logConfigWrite (core : Nat) (size : Bool) (v : BitVec 64) : Layout.Statement (.logConfigWrite core size v) := fun h => Bool.noConfusion h
theorem Layout.pinRelease (core : Nat) : Layout.Statement (.pinRelease core) := fun h => Bool.noConfusion h
theorem Layout.xlat (core slot : Nat) (v : BitVec 64) : Layout.Statement (.xlat core slot v) := fun h => Bool.noConfusion h
theorem Layout.partitionRegisterWrite (part : Nat) (num : BitVec 14) (v : BitVec 64) : Layout.Statement (.partitionRegisterWrite part num v) := fun h => Bool.noConfusion h
theorem Layout.faultQueueConfigWrite (part : Nat) (size : Bool) (v : BitVec 64) : Layout.Statement (.faultQueueConfigWrite part size v) := fun h => Bool.noConfusion h
theorem Layout.fqtailWrite (part : Nat) (v : BitVec 64) : Layout.Statement (.fqtailWrite part v) := fun h => Bool.noConfusion h
theorem Layout.linsizeWrite (part : Nat) (v : BitVec 64) : Layout.Statement (.linsizeWrite part v) := fun h => Bool.noConfusion h
theorem Layout.tlbinv (part : Nat) (w : BitVec 64) : Layout.Statement (.tlbinv part w) := fun h => Bool.noConfusion h
theorem Layout.qcfg (part : Nat) (w : BitVec 64) : Layout.Statement (.qcfg part w) := fun h => Bool.noConfusion h
theorem Layout.rcbAdmit (part : Nat) (w : BitVec 64) : Layout.Statement (.rcbAdmit part w) := fun h => Bool.noConfusion h
theorem Layout.rcbWithdraw (part : Nat) (w : BitVec 64) : Layout.Statement (.rcbWithdraw part w) := fun h => Bool.noConfusion h
theorem Layout.preempt (part : Nat) (w : BitVec 64) : Layout.Statement (.preempt part w) := fun h => Bool.noConfusion h
theorem Layout.resume (part : Nat) (w : BitVec 64) : Layout.Statement (.resume part w) := fun h => Bool.noConfusion h
theorem Layout.pmapdatWrite (part vbh : Nat) (v : BitVec 64) : Layout.Statement (.pmapdatWrite part vbh v) := fun h => Bool.noConfusion h
theorem Layout.create (w : BitVec 64) : Layout.Statement (.create w) := fun h => Bool.noConfusion h
theorem Layout.destroy (w : BitVec 64) : Layout.Statement (.destroy w) := fun h => Bool.noConfusion h
theorem Layout.extend (w : BitVec 64) : Layout.Statement (.extend w) := fun h => Bool.noConfusion h
theorem Layout.releaseVirtualBulkhead (w : BitVec 64) : Layout.Statement (.releaseVirtualBulkhead w) := fun h => Bool.noConfusion h
theorem Layout.mcbindBind (w : BitVec 64) : Layout.Statement (.mcbindBind w) := fun h => Bool.noConfusion h
theorem Layout.mcbindUnbind (w : BitVec 64) : Layout.Statement (.mcbindUnbind w) := fun h => Bool.noConfusion h
theorem Layout.bulkheadReset (bh : Nat) : Layout.Statement (.bulkheadReset bh) := fun h => Bool.noConfusion h
theorem Layout.bulkheadResetComplete (bh : Nat) : Layout.Statement (.bulkheadResetComplete bh) := fun h => Bool.noConfusion h
theorem Layout.parkK1 (bh : Nat) : Layout.Statement (.parkK1 bh) := fun h => Bool.noConfusion h
theorem Layout.parkK2 (bh : Nat) : Layout.Statement (.parkK2 bh) := fun h => Bool.noConfusion h
theorem Layout.unpark (bh : Nat) : Layout.Statement (.unpark bh) := fun h => Bool.noConfusion h
theorem Layout.parkTransitionComplete (bh : Nat) : Layout.Statement (.parkTransitionComplete bh) := fun h => Bool.noConfusion h
theorem Layout.pwrceilWrite (v : BitVec 64) : Layout.Statement (.pwrceilWrite v) := fun h => Bool.noConfusion h
theorem Layout.governorSample (draw : BitVec 11) (low : Bool) : Layout.Statement (.governorSample draw low) := fun h => Bool.noConfusion h
theorem Layout.pstateTransitionComplete (bh : Nat) : Layout.Statement (.pstateTransitionComplete bh) := fun h => Bool.noConfusion h
theorem Layout.grpdatWrite (peer : Nat) (v : BitVec 64) : Layout.Statement (.grpdatWrite peer v) := fun h => Bool.noConfusion h
theorem Layout.doorbell (vf : Nat) (prod : BitVec 16) (window : List (BitVec 64)) : Layout.Statement (.doorbell vf prod window) := fun h => Bool.noConfusion h
theorem Layout.scratchpadScrub (core word : Nat) (err : Nat) : Layout.Statement (.scratchpadScrub core word err) := fun h => Bool.noConfusion h
theorem Layout.patrolScrub (mc unit : Nat) (err : Nat) : Layout.Statement (.patrolScrub mc unit err) := fun h => Bool.noConfusion h
theorem Layout.rowSpare (mc bank row : Nat) (bad : List Nat) (lost : List Nat) : Layout.Statement (.rowSpare mc bank row bad lost) := fun h => Bool.noConfusion h
theorem Layout.channelAccess (mc : Nat) : Layout.Statement (.channelAccess mc) := fun h => Bool.noConfusion h
theorem Layout.rowClose (mc bank : Nat) : Layout.Statement (.rowClose mc bank) := fun h => Bool.noConfusion h
theorem Layout.refreshSlot (mc bank : Nat) : Layout.Statement (.refreshSlot mc bank) := fun h => Bool.noConfusion h
theorem Layout.refreshDrain (mc : Nat) : Layout.Statement (.refreshDrain mc) := fun h => Bool.noConfusion h
theorem Layout.flitCrcError (link : Nat) : Layout.Statement (.flitCrcError link) := fun h => Bool.noConfusion h
theorem Layout.replayWindow (link : Nat) : Layout.Statement (.replayWindow link) := fun h => Bool.noConfusion h
theorem Layout.retrainComplete (link : Nat) (ok : Bool) : Layout.Statement (.retrainComplete link ok) := fun h => Bool.noConfusion h
theorem Layout.coldStart (badCompute : BitVec 16) (badGateway : BitVec 4 × Bool) (badStack : BitVec 8) : Layout.Statement (.coldStart badCompute badGateway badStack) := fun h => Bool.noConfusion h
theorem Layout.warmStart (badCompute : BitVec 16) (badGateway : BitVec 4) (badStack : BitVec 8) : Layout.Statement (.warmStart badCompute badGateway badStack) := fun h => Bool.noConfusion h
theorem Layout.codeletCounterRequest (n : Nat) : Layout.Statement (.codeletCounterRequest n) := fun h => Bool.noConfusion h
theorem Layout.carafeQueueOperation (n : Nat) : Layout.Statement (.carafeQueueOperation n) := fun h => Bool.noConfusion h
theorem Layout.tokenQuery (n : Nat) : Layout.Statement (.tokenQuery n) := fun h => Bool.noConfusion h
theorem Layout.fitRead (n : Nat) : Layout.Statement (.fitRead n) := fun h => Bool.noConfusion h
theorem Layout.channelAccessComplete (mc bank : Nat) : Layout.Statement (.channelAccessComplete mc bank) := fun h => Bool.noConfusion h
theorem Layout.refreshComplete (mc bank : Nat) : Layout.Statement (.refreshComplete mc bank) := fun h => Bool.noConfusion h
theorem Layout.groupPortFailure (peer : Nat × Option (List Nat)) : Layout.Statement (.groupPortFailure peer) := fun h => Bool.noConfusion h
theorem Layout.bhctlWrite (bh : Nat) (v : BitVec 64) : Layout.Statement (.bhctlWrite bh v) := fun h => Bool.noConfusion h

end Sys2Proof.Laws
end

