-- ==== Sys2Proof/Laws/Registers.lean ====
section
/-! SUPPORT. What the writes of register fields do (02_encoding R40; 03_strands R71, R77; 04_integer R104; 06_vector R180): which field
reads differently afterwards, and what stays. -/

namespace Sys2Proof.Machine

theorem regIx_val (r : Reg) : (regIx r).val = r.toNat % 16 := rfl

/-- A list of older values with the first live one replaced still has its live entries at the same places. -/
theorem find_overwriteFirst (p : Stale → Bool) (v : Vec) (l : List Stale) (h : ∀ e, p { e with value := v } = p e) :
    (overwriteFirst p v l).find? p = (l.find? p).map (fun e => { e with value := v }) := by
  induction l with
  | nil => rfl
  | cons e rest ih =>
    by_cases hp : p e
    · simp [overwriteFirst, hp, h]
    · simp [overwriteFirst, hp, ih]

theorem find_overwriteFirst_other (p q : Stale → Bool) (v : Vec) (l : List Stale) (h : ∀ e, p e = true → q e = false)
    (hq : ∀ e, q { e with value := v } = q e) : (overwriteFirst p v l).find? q = l.find? q := by
  induction l with
  | nil => rfl
  | cons e rest ih =>
    by_cases hp : p e
    · simp [overwriteFirst, hp, hq, h e hp]
    · simp only [overwriteFirst, if_neg hp, List.find?_cons, ih]

/-- The older value of a register after a write that lands while another is in flight. -/
@[simp] theorem Core.staleOf_overwrite (x : Core) (d : Dest) (v : Vec) :
    (x.overwrite d v).staleOf d = (x.staleOf d).map (fun e => { e with value := v }) :=
  find_overwriteFirst _ _ _ (fun _ => rfl)

theorem Core.staleOf_overwrite_other (x : Core) {d e : Dest} (v : Vec) (h : e ≠ d) : (x.overwrite d v).staleOf e = x.staleOf e :=
  find_overwriteFirst_other _ _ _ _ (fun y hy => by
    have h1 : y.reg = d := (of_decide_eq_true hy).1
    simp only [decide_eq_false_iff_not, not_and]
    intro h2; exact absurd (h2.symm.trans h1) h) (fun _ => rfl)

/-- Keeping an old value: an entry that is already live is read first. -/
theorem Core.staleOf_keepOld (x : Core) (k : Nat) (d e : Dest) (v : Vec) (p : Bool) :
    (x.keepOld k d v p).staleOf e =
      match x.staleOf e with
      | some y => some y
      | none => if e = d then some ⟨d, k, x.cycle + 5, v, p⟩ else none := by
  have hf : ((x.stale.filter (fun a => decide (x.cycle ≤ a.till))).find? (fun a => decide (a.reg = e ∧ x.cycle < a.till)))
      = x.stale.find? (fun a => decide (a.reg = e ∧ x.cycle < a.till)) := by
    induction x.stale with
    | nil => rfl
    | cons a rest ih =>
      by_cases h1 : x.cycle ≤ a.till
      · simp only [List.filter_cons, decide_eq_true h1, if_true, List.find?_cons, ih]
      · have h2 : ¬ x.cycle < a.till := by omega
        rw [List.filter_cons_of_neg (by simpa using h1), ih, List.find?_cons_of_neg (by simp [h2])]
  have hx : (x.keepOld k d v p).staleOf e = ((x.stale.filter (fun (a : Stale) => decide (x.cycle ≤ a.till))) ++ [(⟨d, k, x.cycle + 5, v, p⟩ : Stale)]).find?
      (fun (a : Stale) => decide (a.reg = e ∧ x.cycle < a.till)) := rfl
  rw [hx, List.find?_append, hf]
  change _ = match x.stale.find? (fun a => decide (a.reg = e ∧ x.cycle < a.till)) with
    | some y => some y
    | none => if e = d then some ⟨d, k, x.cycle + 5, v, p⟩ else none
  cases x.stale.find? (fun a => decide (a.reg = e ∧ x.cycle < a.till)) with
  | some y => rfl
  | none =>
    by_cases h : e = d
    · subst h; simp
    · have h' : ¬ d = e := fun g => h g.symm
      simp [h, h']

/-- A write at WB leaves behind its value, in its own field only. -/
theorem lastReg_backReg_self (s : State) (c : CoreId) (k : Nat) {r : Reg} (v : Word) (h : r ≠ 0) : lastReg (backReg s c k r v) c k r = v := by
  by_cases h16 : 16 ≤ r.toNat
  · have h1 : ¬ r.toNat < 16 := by omega
    simp only [backReg, if_pos h16, storeReg, if_neg h, if_neg h1, lastReg, State.core_modCore_self]
    simp
  · have h1 : r.toNat < 16 := by omega
    simp only [backReg, if_neg h16, storeReg, if_neg h, if_pos h1, lastReg, State.slot_modSlot_self]
    simp

/-- A private register is read as it was written. -/
theorem readReg_backReg_private (s : State) (c : CoreId) (k : Nat) {r : Reg} (v : Word) (h : r ≠ 0) (hp : r.toNat < 16) :
    readReg (backReg s c k r v) c k r = v := by
  rw [readReg, if_pos hp]; exact lastReg_backReg_self s c k v h

/-- A shared register reads as before until the write lands (R77). -/
theorem readReg_backReg_shared (s : State) (c : CoreId) (k : Nat) {r : Reg} (v : Word) (hp : 16 ≤ r.toNat) :
    readReg (backReg s c k r v) c k r = readReg s c k r := by
  have h1 : ¬ r.toNat < 16 := by omega
  have h0 : r ≠ 0 := by intro e; subst e; simp at hp
  simp only [readReg, if_neg h1, backReg, if_pos hp, storeReg, if_neg h0, lastReg, State.core_modCore_self]
  have e : ∀ y : Core, Core.staleOf { y with s := y.s.set (regIx r) v } (.scalar r) = y.staleOf (.scalar r) := fun _ => rfl
  rw [e, Core.staleOf_keepOld]
  cases (s.core c).staleOf (.scalar r) with
  | some y => rfl
  | none => simp

end Sys2Proof.Machine
end

