-- ==== Sys2Proof/Tests/Slice0.lean ====
section
/-! SUPPORT. Tests: ill-formed terms, the decoding of one word for each encoded instruction, and states that meet the hypotheses of the
statements. -/

namespace Sys2Proof.Tests

open Sys2Proof Sys2Proof.Machine
set_option Elab.async false

/-! ### Decoding: words written from the field tables of 02_encoding R42-R49 -/

/-- A word decodes to an instruction, and is its encoding. -/
abbrev reads (w : Nat) (i : Instr) : Prop := decodeTableWord 32 w = some i ∧ encodeWord i = w

/-- A parcel decodes to a compact instruction, and is its encoding. -/
abbrev readsParcel (w : Nat) (i : Instr) : Prop := decodeTableWord 16 w = some i ∧ encodeWord i = w

theorem test_decode_op00_0 :
    reads (0xC0000000 + 12 * 2 ^ 19 + 3 * 2 ^ 14 + 26 * 2 ^ 9) (.add 12 3 26)
    ∧ reads (0xC0000001 + 12 * 2 ^ 19 + 3 * 2 ^ 14 + 26 * 2 ^ 9) (.sub 12 3 26)
    ∧ reads (0xC0000002 + 12 * 2 ^ 19 + 3 * 2 ^ 14 + 26 * 2 ^ 9) (.and 12 3 26)
    ∧ reads (0xC0000003 + 31 * 2 ^ 19 + 22 * 2 ^ 14 + 13 * 2 ^ 9) (.or 31 22 13)
    ∧ reads (0xC0000004 + 12 * 2 ^ 19 + 3 * 2 ^ 14 + 26 * 2 ^ 9) (.xor 12 3 26)
    ∧ reads (0xC0000005 + 25 * 2 ^ 19 + 16 * 2 ^ 14 + 7 * 2 ^ 9) (.andn 25 16 7)
    ∧ reads (0xC0000006 + 12 * 2 ^ 19 + 3 * 2 ^ 14 + 26 * 2 ^ 9) (.sll 12 3 26)
    ∧ reads (0xC0000007 + 12 * 2 ^ 19 + 3 * 2 ^ 14 + 26 * 2 ^ 9) (.srl 12 3 26)
    ∧ reads (0xC0000008 + 12 * 2 ^ 19 + 3 * 2 ^ 14 + 26 * 2 ^ 9) (.sra 12 3 26)
    ∧ reads (0xC0000009 + 12 * 2 ^ 19 + 3 * 2 ^ 14 + 26 * 2 ^ 9) (.rol 12 3 26)
    ∧ reads (0xC000000A + 12 * 2 ^ 19 + 3 * 2 ^ 14 + 26 * 2 ^ 9) (.mul 12 3 26)
    ∧ reads (0xC000000B + 25 * 2 ^ 19 + 16 * 2 ^ 14 + 7 * 2 ^ 9) (.mulh 25 16 7)
    ∧ reads (0xC000000C + 6 * 2 ^ 19 + 29 * 2 ^ 14 + 20 * 2 ^ 9) (.mulhu 6 29 20)
    ∧ reads (0xC000000D + 12 * 2 ^ 19 + 3 * 2 ^ 14 + 26 * 2 ^ 9) (.div 12 3 26)
    ∧ reads (0xC000000E + 25 * 2 ^ 19 + 16 * 2 ^ 14 + 7 * 2 ^ 9) (.divu 25 16 7)
    ∧ reads (0xC000000F + 12 * 2 ^ 19 + 3 * 2 ^ 14 + 26 * 2 ^ 9) (.rem 12 3 26)
    ∧ reads (0xC0000010 + 25 * 2 ^ 19 + 16 * 2 ^ 14 + 7 * 2 ^ 9) (.remu 25 16 7)
    ∧ reads (0xC0000011 + 12 * 2 ^ 19 + 3 * 2 ^ 14 + 26 * 2 ^ 9) (.slt 12 3 26)
    ∧ reads (0xC0000012 + 25 * 2 ^ 19 + 16 * 2 ^ 14 + 7 * 2 ^ 9) (.sltu 25 16 7)
    ∧ reads (0xC0000013 + 12 * 2 ^ 19 + 3 * 2 ^ 14 + 26 * 2 ^ 9) (.min 12 3 26)
    ∧ reads (0xC0000014 + 12 * 2 ^ 19 + 3 * 2 ^ 14 + 26 * 2 ^ 9) (.max 12 3 26)
    ∧ reads (0xC0000015 + 25 * 2 ^ 19 + 16 * 2 ^ 14 + 7 * 2 ^ 9) (.minu 25 16 7)
    ∧ reads (0xC0000016 + 25 * 2 ^ 19 + 16 * 2 ^ 14 + 7 * 2 ^ 9) (.maxu 25 16 7)
    ∧ reads (0xC0000017 + 25 * 2 ^ 19 + 16 * 2 ^ 14 + 7 * 2 ^ 9) (.addw 25 16 7) := by decide +kernel

theorem test_decode_op00_1 :
    reads (0xC0000018 + 25 * 2 ^ 19 + 16 * 2 ^ 14 + 7 * 2 ^ 9) (.subw 25 16 7)
    ∧ reads (0xC0000019 + 12 * 2 ^ 19 + 3 * 2 ^ 14) (.clz 12 3)
    ∧ reads (0xC000001A + 12 * 2 ^ 19 + 3 * 2 ^ 14) (.ctz 12 3)
    ∧ reads (0xC000001B + 25 * 2 ^ 19 + 16 * 2 ^ 14) (.popc 25 16)
    ∧ reads (0xC000001C + 25 * 2 ^ 19 + 16 * 2 ^ 14) (.brev 25 16)
    ∧ reads (0xC000001D + 6 * 2 ^ 19 + 29 * 2 ^ 14) (.bswap 6 29)
    ∧ reads (0xC000001E + 6 * 2 ^ 19 + 29 * 2 ^ 14) (.sextb 6 29)
    ∧ reads (0xC000001F + 6 * 2 ^ 19 + 29 * 2 ^ 14) (.sexth 6 29)
    ∧ reads (0xC0000020 + 6 * 2 ^ 19 + 29 * 2 ^ 14) (.sextw 6 29)
    ∧ reads (0xC0000021 + 6 * 2 ^ 19 + 29 * 2 ^ 14) (.zextw 6 29)
    ∧ reads (0xC0000022 + 25 * 2 ^ 19 + 16 * 2 ^ 14 + 7 * 2 ^ 9) (.selz 25 16 7)
    ∧ reads (0xC0000023 + 6 * 2 ^ 19 + 29 * 2 ^ 14 + 20 * 2 ^ 9) (.selnz 6 29 20)
    ∧ reads (0xC0000024 + 25 * 2 ^ 19 + 16 * 2 ^ 14 + 7 * 2 ^ 9) (.extv 25 16 7)
    ∧ reads (0xC0000025 + 25 * 2 ^ 19 + 16 * 2 ^ 14 + 7 * 2 ^ 9) (.insv 25 16 7)
    ∧ reads (0xC0000026 + 25 * 2 ^ 19 + 16 * 2 ^ 14 + 7 * 2 ^ 9) (.adds 25 16 7)
    ∧ reads (0xC0000027 + 25 * 2 ^ 19 + 16 * 2 ^ 14 + 7 * 2 ^ 9) (.subs 25 16 7) := by decide +kernel

theorem test_decode_op01 :
    reads (0xC1000000 + 25 * 2 ^ 19 + 16 * 2 ^ 14 + 3463) (.addi 25 16 3463) := by decide +kernel

theorem test_decode_op02 :
    reads (0xC2000000 + 25 * 2 ^ 19 + 16 * 2 ^ 14 + 3463) (.andi 25 16 3463) := by decide +kernel

theorem test_decode_op03 :
    reads (0xC3000000 + 12 * 2 ^ 19 + 3 * 2 ^ 14 + 3386) (.ori 12 3 3386) := by decide +kernel

theorem test_decode_op04 :
    reads (0xC4000000 + 25 * 2 ^ 19 + 16 * 2 ^ 14 + 3463) (.xori 25 16 3463) := by decide +kernel

theorem test_decode_op05 :
    reads (0xC5000000 + 25 * 2 ^ 19 + 16 * 2 ^ 14 + 3463) (.slti 25 16 3463) := by decide +kernel

theorem test_decode_op06 :
    reads (0xC6000000 + 6 * 2 ^ 19 + 29 * 2 ^ 14 + 3540) (.sltiu 6 29 3540) := by decide +kernel

theorem test_decode_op07 :
    reads (0xC7000000 + 25 * 2 ^ 19 + 16 * 2 ^ 14 + 7) (.slli 25 16 7)
    ∧ reads (0xC7001000 + 25 * 2 ^ 19 + 16 * 2 ^ 14 + 7) (.srli 25 16 7)
    ∧ reads (0xC7002000 + 25 * 2 ^ 19 + 16 * 2 ^ 14 + 7) (.srai 25 16 7)
    ∧ reads (0xC7003000 + 25 * 2 ^ 19 + 16 * 2 ^ 14 + 7) (.roli 25 16 7) := by decide +kernel

theorem test_decode_op08 :
    reads (0xC8000000 + 25 * 2 ^ 19 + 16 * 2 ^ 14 + 7 * 2 ^ 8 + 30) (.extu 25 16 7 30)
    ∧ reads (0xC8000040 + 25 * 2 ^ 19 + 16 * 2 ^ 14 + 7 * 2 ^ 8 + 30) (.exts 25 16 7 30)
    ∧ reads (0xC8000080 + 12 * 2 ^ 19 + 3 * 2 ^ 14 + 58 * 2 ^ 8 + 17) (.ins 12 3 58 17) := by decide +kernel

theorem test_decode_op09 :
    reads (0xC9000000 + 31 * 2 ^ 19 + 375190) (.li 31 375190) := by decide +kernel

theorem test_decode_op0A :
    reads (0xCA000000 + 25 * 2 ^ 19 + 47664) (.lish 25 47664) := by decide +kernel

theorem test_decode_op0B :
    reads (0xCB000000 + 6 * 2 ^ 19 + 375421) (.addpc 6 375421) := by decide +kernel

theorem test_decode_op10 :
    reads (0xD0000000 + 12 * 2 ^ 19 + 3 * 2 ^ 14 + 3386) (.beq 12 3 3386) := by decide +kernel

theorem test_decode_op11 :
    reads (0xD1000000 + 12 * 2 ^ 19 + 3 * 2 ^ 14 + 3386) (.bne 12 3 3386) := by decide +kernel

theorem test_decode_op12 :
    reads (0xD2000000 + 12 * 2 ^ 19 + 3 * 2 ^ 14 + 3386) (.blt 12 3 3386) := by decide +kernel

theorem test_decode_op13 :
    reads (0xD3000000 + 12 * 2 ^ 19 + 3 * 2 ^ 14 + 3386) (.bge 12 3 3386) := by decide +kernel

theorem test_decode_op14 :
    reads (0xD4000000 + 25 * 2 ^ 19 + 16 * 2 ^ 14 + 3463) (.bltu 25 16 3463) := by decide +kernel

theorem test_decode_op15 :
    reads (0xD5000000 + 25 * 2 ^ 19 + 16 * 2 ^ 14 + 3463) (.bgeu 25 16 3463) := by decide +kernel

theorem test_decode_op16 :
    reads (0xD6000000 + 12 * 2 ^ 19 + 375267) (.jal 12 375267) := by decide +kernel

theorem test_decode_op17 :
    reads (0xD7000000 + 25 * 2 ^ 19 + 16 * 2 ^ 14 + 3463) (.jalr 25 16 3463) := by decide +kernel

theorem test_decode_op18 :
    reads (0xD8000000 + 25 * 2 ^ 19 + 16 * 2 ^ 14 + 7 * 2 ^ 9) (.fork 25 16 7)
    ∧ reads (0xD8000001) .halt
    ∧ reads (0xD8000002 + 6 * 2 ^ 14 + 29 * 2 ^ 9) (.haltk 6 29)
    ∧ reads (0xD8000003 + 6 * 2 ^ 14) (.yield 6)
    ∧ reads (0xD8000004 + 25 * 2 ^ 14) (.wake 25) := by decide +kernel

theorem test_decode_op19 :
    reads (0xD9000000 + 10856153) (.bsig 10856153) := by decide +kernel

theorem test_decode_op1C :
    reads (0xDC000000 + 12 * 2 ^ 19 + 3 * 2 ^ 14 + 3386) (.ldb 12 3 3386) := by decide +kernel

theorem test_decode_op1D :
    reads (0xDD000000 + 25 * 2 ^ 19 + 16 * 2 ^ 14 + 3463) (.ldbu 25 16 3463) := by decide +kernel

theorem test_decode_op1E :
    reads (0xDE000000 + 12 * 2 ^ 19 + 3 * 2 ^ 14 + 3386) (.ldh 12 3 3386) := by decide +kernel

theorem test_decode_op1F :
    reads (0xDF000000 + 25 * 2 ^ 19 + 16 * 2 ^ 14 + 3463) (.ldhu 25 16 3463) := by decide +kernel

theorem test_decode_op20 :
    reads (0xE0000000 + 12 * 2 ^ 19 + 3 * 2 ^ 14 + 3386) (.ldw 12 3 3386) := by decide +kernel

theorem test_decode_op21 :
    reads (0xE1000000 + 25 * 2 ^ 19 + 16 * 2 ^ 14 + 3463) (.ldwu 25 16 3463) := by decide +kernel

theorem test_decode_op22 :
    reads (0xE2000000 + 12 * 2 ^ 19 + 3 * 2 ^ 14 + 3386) (.ldd 12 3 3386) := by decide +kernel

theorem test_decode_op23 :
    reads (0xE3000000 + 12 * 2 ^ 19 + 3 * 2 ^ 14 + 3386) (.stb 12 3 3386) := by decide +kernel

theorem test_decode_op24 :
    reads (0xE4000000 + 12 * 2 ^ 19 + 3 * 2 ^ 14 + 3386) (.sth 12 3 3386) := by decide +kernel

theorem test_decode_op25 :
    reads (0xE5000000 + 12 * 2 ^ 19 + 3 * 2 ^ 14 + 3386) (.stw 12 3 3386) := by decide +kernel

theorem test_decode_op26 :
    reads (0xE6000000 + 12 * 2 ^ 19 + 3 * 2 ^ 14 + 3386) (.std 12 3 3386) := by decide +kernel

theorem test_decode_op27 :
    reads (0xE7000000 + 6 * 2 ^ 19 + 29 * 2 ^ 14 + 0) (.ldacq 6 29 0)
    ∧ reads (0xE7000004 + 6 * 2 ^ 19 + 29 * 2 ^ 14 + 0) (.strel 6 29 0)
    ∧ reads (0xE7000008 + 4 * 2 ^ 9) (.fence 4)
    ∧ reads (0xE7000009) .fenceI := by decide +kernel

theorem test_decode_op28 :
    reads (0xE8000000 + 25 * 2 ^ 19 + 16 * 2 ^ 14 + 7 * 2 ^ 9) (.send 25 16 7)
    ∧ reads (0xE8000001 + 25 * 2 ^ 19 + 16 * 2 ^ 14 + 7 * 2 ^ 9) (.actm 25 16 7)
    ∧ reads (0xE8000002 + 6 * 2 ^ 19 + 29 * 2 ^ 14 + 20 * 2 ^ 9) (.mbpop 6 29 20)
    ∧ reads (0xE8000003 + 19 * 2 ^ 19 + 10 * 2 ^ 14) (.mbpeek 19 10)
    ∧ reads (0xE8000004 + 19 * 2 ^ 19 + 10 * 2 ^ 14 + 1 * 2 ^ 9) (.mbwait 19 10 1)
    ∧ reads (0xE8000005 + 25 * 2 ^ 19 + 16 * 2 ^ 14 + 7 * 2 ^ 9) (.chld 25 16 7)
    ∧ reads (0xE8000006 + 6 * 2 ^ 19 + 29 * 2 ^ 14 + 20 * 2 ^ 9) (.chldv 6 29 20) := by decide +kernel

theorem test_decode_op29 :
    reads (0xE9000000 + 19 * 2 ^ 19 + 10 * 2 ^ 14 + 1 * 2 ^ 9 + 0 * 2 ^ 4) (.amoadd 19 10 1 0)
    ∧ reads (0xE9000001 + 19 * 2 ^ 19 + 10 * 2 ^ 14 + 1 * 2 ^ 9 + 0 * 2 ^ 4) (.amoand 19 10 1 0)
    ∧ reads (0xE9000002 + 6 * 2 ^ 19 + 29 * 2 ^ 14 + 20 * 2 ^ 9 + 1 * 2 ^ 4) (.amoor 6 29 20 1)
    ∧ reads (0xE9000003 + 19 * 2 ^ 19 + 10 * 2 ^ 14 + 1 * 2 ^ 9 + 0 * 2 ^ 4) (.amoxor 19 10 1 0)
    ∧ reads (0xE9000004 + 19 * 2 ^ 19 + 10 * 2 ^ 14 + 1 * 2 ^ 9 + 0 * 2 ^ 4) (.amomin 19 10 1 0)
    ∧ reads (0xE9000005 + 19 * 2 ^ 19 + 10 * 2 ^ 14 + 1 * 2 ^ 9 + 0 * 2 ^ 4) (.amomax 19 10 1 0)
    ∧ reads (0xE9000006 + 0 * 2 ^ 19 + 23 * 2 ^ 14 + 14 * 2 ^ 9 + 1 * 2 ^ 4) (.amominu 0 23 14 1)
    ∧ reads (0xE9000007 + 0 * 2 ^ 19 + 23 * 2 ^ 14 + 14 * 2 ^ 9 + 1 * 2 ^ 4) (.amomaxu 0 23 14 1)
    ∧ reads (0xE9000008 + 0 * 2 ^ 19 + 23 * 2 ^ 14 + 14 * 2 ^ 9 + 1 * 2 ^ 4) (.amoswap 0 23 14 1)
    ∧ reads (0xE9000009 + 19 * 2 ^ 19 + 10 * 2 ^ 14 + 1 * 2 ^ 9 + 0 * 2 ^ 4) (.amocas 19 10 1 0)
    ∧ reads (0xE900000A + 0 * 2 ^ 19 + 23 * 2 ^ 14 + 14 * 2 ^ 9 + 1 * 2 ^ 4) (.amofadd 0 23 14 1) := by decide +kernel

theorem test_decode_op2A :
    reads (0xEA000000 + 9 * 2 ^ 19 + 10 * 2 ^ 14 + 1 * 2 ^ 9) (.logapp 9 10 1)
    ∧ reads (0xEA000001 + 0 * 2 ^ 19) (.logseal 0)
    ∧ reads (0xEA000002 + 19 * 2 ^ 19 + 10 * 2 ^ 14 + 1 * 2 ^ 9) (.barset 19 10 1)
    ∧ reads (0xEA000003 + 25 * 2 ^ 19 + 16 * 2 ^ 14) (.barj 25 16)
    ∧ reads (0xEA000004 + 25 * 2 ^ 19 + 16 * 2 ^ 14 + 7 * 2 ^ 9) (.barw 25 16 7)
    ∧ reads (0xEA000005 + 25 * 2 ^ 19 + 16 * 2 ^ 14) (.barq 25 16)
    ∧ reads (0xEA000006 + 6 * 2 ^ 19 + 29 * 2 ^ 14 + 20 * 2 ^ 9) (.tladd 6 29 20)
    ∧ reads (0xEA000007 + 6 * 2 ^ 19 + 29 * 2 ^ 14 + 20 * 2 ^ 9) (.tlset 6 29 20)
    ∧ reads (0xEA000008 + 25 * 2 ^ 19 + 16 * 2 ^ 14) (.tlrd 25 16)
    ∧ reads (0xEA000009 + 19 * 2 ^ 19 + 10 * 2 ^ 14 + 1 * 2 ^ 9) (.tlwait 19 10 1)
    ∧ reads (0xEA00000A + 12 * 2 ^ 19 + 3 * 2 ^ 14) (.tkt 12 3)
    ∧ reads (0xEA00000B + 19 * 2 ^ 19 + 10 * 2 ^ 14 + 1 * 2 ^ 9) (.tkwait 19 10 1)
    ∧ reads (0xEA00000C + 19 * 2 ^ 19 + 10 * 2 ^ 14) (.tkdone 19 10) := by decide +kernel

theorem test_decode_op2B :
    reads (0xEB000000 + 19 * 2 ^ 19 + 10 * 2 ^ 14 + 1 * 2 ^ 9) (.clinit 19 10 1)
    ∧ reads (0xEB000001 + 6 * 2 ^ 19 + 29 * 2 ^ 14) (.cldec 6 29)
    ∧ reads (0xEB000002 + 19 * 2 ^ 19 + 10 * 2 ^ 14) (.clpush 19 10)
    ∧ reads (0xEB000003 + 6 * 2 ^ 9) (.clend 6)
    ∧ reads (0xEB000004 + 6 * 2 ^ 19 + 29 * 2 ^ 14 + 20 * 2 ^ 9) (.qpush 6 29 20)
    ∧ reads (0xEB000005 + 25 * 2 ^ 19 + 16 * 2 ^ 14) (.qpop 25 16)
    ∧ reads (0xEB000006 + 6 * 2 ^ 19 + 29 * 2 ^ 14 + 20 * 2 ^ 9) (.qpopw 6 29 20)
    ∧ reads (0xEB000007 + 25 * 2 ^ 19 + 16 * 2 ^ 14 + 7 * 2 ^ 9) (.chnk 25 16 7) := by decide +kernel

theorem test_decode_op2C :
    reads (0xEC000000 + 12 * 2 ^ 19 + 3 * 2 ^ 14) (.cpy 12 3)
    ∧ reads (0xEC000001 + 25 * 2 ^ 19 + 16 * 2 ^ 14) (.cpyg 25 16)
    ∧ reads (0xEC000002 + 25 * 2 ^ 19 + 16 * 2 ^ 14) (.cpys 25 16)
    ∧ reads (0xEC000003 + 0 * 2 ^ 19 + 23 * 2 ^ 14 + 14 * 2 ^ 9) (.publish 0 23 14)
    ∧ reads (0xEC000004 + 25 * 2 ^ 19 + 16 * 2 ^ 14) (.htst 25 16)
    ∧ reads (0xEC000005 + 6 * 2 ^ 19 + 29 * 2 ^ 14) (.hwait 6 29)
    ∧ reads (0xEC000006 + 25 * 2 ^ 19 + 16 * 2 ^ 14) (.hdet 25 16)
    ∧ reads (0xEC000007 + 25 * 2 ^ 19 + 16 * 2 ^ 14) (.hcan 25 16)
    ∧ reads (0xEC000008 + 25 * 2 ^ 19 + 16 * 2 ^ 14) (.mcrd 25 16)
    ∧ reads (0xEC000009 + 25 * 2 ^ 19 + 16 * 2 ^ 14) (.mcwr 25 16)
    ∧ reads (0xEC00000A + 6 * 2 ^ 19 + 29 * 2 ^ 14) (.pusht 6 29) := by decide +kernel

theorem test_decode_op2D :
    reads (0xED000000 + 2 * 2 ^ 21 + 3 * 2 ^ 19 + 26 * 2 ^ 14 + 17 * 2 ^ 9) (.mma 2 3 26 17)
    ∧ reads (0xED000001 + 2 * 2 ^ 21 + 0 * 2 ^ 19 + 7 * 2 ^ 14 + 30 * 2 ^ 9) (.mmag 2 0 7 30)
    ∧ reads (0xED000002 + 19 * 2 ^ 19 + 3 * 2 ^ 9) (.mxzero 19 3)
    ∧ reads (0xED000003 + 6 * 2 ^ 19 + 29 * 2 ^ 14 + 3 * 2 ^ 9) (.mxlda 6 29 3)
    ∧ reads (0xED000004 + 25 * 2 ^ 19 + 16 * 2 ^ 14 + 3 * 2 ^ 9) (.mxst 25 16 3)
    ∧ reads (0xED000005 + 6 * 2 ^ 14) (.mxepi 6) := by decide +kernel

theorem test_decode_op2E :
    reads (0xEE000000 + 19 * 2 ^ 19 + 10 * 2 ^ 14) (.fitset 19 10)
    ∧ reads (0xEE000001 + 19 * 2 ^ 19 + 10 * 2 ^ 14) (.fitget 19 10)
    ∧ reads (0xEE000002 + 0 * 2 ^ 19 + 23 * 2 ^ 14) (.poprank 0 23)
    ∧ reads (0xEE000003 + 6 * 2 ^ 19 + 29 * 2 ^ 14) (.blend 6 29)
    ∧ reads (0xEE000004 + 19 * 2 ^ 19 + 10 * 2 ^ 14) (.blendx 19 10)
    ∧ reads (0xEE000005 + 6 * 2 ^ 19 + 29 * 2 ^ 14 + 20 * 2 ^ 9) (.linrd 6 29 20) := by decide +kernel

theorem test_decode_op2F :
    reads (0xEF000000 + 25 * 2 ^ 19 + 16 * 2 ^ 14) (.coll 25 16)
    ∧ reads (0xEF000001 + 19 * 2 ^ 19 + 10 * 2 ^ 14) (.cabort 19 10)
    ∧ reads (0xEF000002 + 25 * 2 ^ 19 + 16 * 2 ^ 14 + 7 * 2 ^ 9) (.catt 25 16 7) := by decide +kernel

theorem test_decode_op30 :
    reads (0xF0000000 + 25 * 2 ^ 19 + 16 * 2 ^ 14 + 7 * 2 ^ 9 + 0) (.fadd 25 16 7 0)
    ∧ reads (0xF0000002 + 25 * 2 ^ 19 + 16 * 2 ^ 14 + 7 * 2 ^ 9 + 0) (.fsub 25 16 7 0)
    ∧ reads (0xF0000004 + 25 * 2 ^ 19 + 16 * 2 ^ 14 + 7 * 2 ^ 9 + 0) (.fmul 25 16 7 0)
    ∧ reads (0xF0000006 + 25 * 2 ^ 19 + 16 * 2 ^ 14 + 7 * 2 ^ 9 + 0) (.fdiv 25 16 7 0)
    ∧ reads (0xF0000008 + 6 * 2 ^ 19 + 29 * 2 ^ 14 + 0) (.fsqrt 6 29 0)
    ∧ reads (0xF000000A + 25 * 2 ^ 19 + 16 * 2 ^ 14 + 7 * 2 ^ 9 + 0) (.fmin 25 16 7 0)
    ∧ reads (0xF000000C + 25 * 2 ^ 19 + 16 * 2 ^ 14 + 7 * 2 ^ 9 + 0) (.fmax 25 16 7 0)
    ∧ reads (0xF000000E + 12 * 2 ^ 19 + 3 * 2 ^ 14 + 26 * 2 ^ 9 + 1) (.feq 12 3 26 1)
    ∧ reads (0xF0000010 + 12 * 2 ^ 19 + 3 * 2 ^ 14 + 26 * 2 ^ 9 + 1) (.flt 12 3 26 1)
    ∧ reads (0xF0000012 + 12 * 2 ^ 19 + 3 * 2 ^ 14 + 26 * 2 ^ 9 + 1) (.fle 12 3 26 1)
    ∧ reads (0xF0000014 + 19 * 2 ^ 19 + 10 * 2 ^ 14 + 1) (.fclass 19 10 1)
    ∧ reads (0xF0000016 + 6 * 2 ^ 19 + 29 * 2 ^ 14 + 20 * 2 ^ 9 + 1) (.fsgnj 6 29 20 1)
    ∧ reads (0xF0000018 + 19 * 2 ^ 19 + 10 * 2 ^ 14 + 1 * 2 ^ 9 + 0) (.fsgnjn 19 10 1 0)
    ∧ reads (0xF000001A + 19 * 2 ^ 19 + 10 * 2 ^ 14 + 1 * 2 ^ 9 + 0) (.fcvtFi 19 10 1 0)
    ∧ reads (0xF000001C + 19 * 2 ^ 19 + 10 * 2 ^ 14 + 1 * 2 ^ 9 + 0) (.fcvtIf 19 10 1 0)
    ∧ reads (0xF000001E + 6 * 2 ^ 19 + 29 * 2 ^ 14 + 0) (.fcvtP 6 29 0)
    ∧ reads (0xF0000020 + 25 * 2 ^ 19 + 16 * 2 ^ 14 + 1) (.fsin 25 16 1)
    ∧ reads (0xF0000022 + 25 * 2 ^ 19 + 16 * 2 ^ 14 + 1) (.fcos 25 16 1)
    ∧ reads (0xF0000024 + 6 * 2 ^ 19 + 29 * 2 ^ 14 + 0) (.fexp2 6 29 0)
    ∧ reads (0xF0000026 + 6 * 2 ^ 19 + 29 * 2 ^ 14 + 0) (.flog2 6 29 0) := by decide +kernel

theorem test_decode_op31 :
    reads (0xF1000000 + 12 * 2 ^ 19 + 3 * 2 ^ 14 + 26 * 2 ^ 9 + 1) (.fma 12 3 26 1)
    ∧ reads (0xF1000002 + 12 * 2 ^ 19 + 3 * 2 ^ 14 + 26 * 2 ^ 9 + 1) (.fms 12 3 26 1)
    ∧ reads (0xF1000004 + 25 * 2 ^ 19 + 16 * 2 ^ 14 + 7 * 2 ^ 9 + 0) (.fnma 25 16 7 0) := by decide +kernel

theorem test_decode_op32 :
    reads (0xF2000000 + 12 * 2 ^ 19 + 3 * 2 ^ 14) (.mfc 12 3)
    ∧ reads (0xF2000001 + 12 * 2 ^ 14 + 3 * 2 ^ 9) (.mtc 12 3)
    ∧ reads (0xF2000002 + 25 * 2 ^ 14) (.trap 25)
    ∧ reads (0xF2000003) .eret
    ∧ reads (0xF2000004 + 6 * 2 ^ 19 + 29 * 2 ^ 14 + 20 * 2 ^ 9) (.segld 6 29 20)
    ∧ reads (0xF2000005 + 6 * 2 ^ 19 + 29 * 2 ^ 14 + 20 * 2 ^ 9) (.segst 6 29 20)
    ∧ reads (0xF2000006) .bkpt := by decide +kernel

theorem test_decode_op34 :
    reads (0xF4000000 + 25 * 2 ^ 19 + 16 * 2 ^ 14 + 7 * 2 ^ 9 + 2 * 2 ^ 5) (.vadd 25 16 7 2)
    ∧ reads (0xF4000001 + 25 * 2 ^ 19 + 16 * 2 ^ 14 + 7 * 2 ^ 9 + 2 * 2 ^ 5) (.vsub 25 16 7 2)
    ∧ reads (0xF4000002 + 25 * 2 ^ 19 + 16 * 2 ^ 14 + 7 * 2 ^ 9 + 2 * 2 ^ 5) (.vmul 25 16 7 2)
    ∧ reads (0xF4000003 + 25 * 2 ^ 19 + 16 * 2 ^ 14 + 7 * 2 ^ 9 + 2 * 2 ^ 5) (.vfma 25 16 7 2)
    ∧ reads (0xF4000004 + 25 * 2 ^ 19 + 16 * 2 ^ 14 + 7 * 2 ^ 9 + 2 * 2 ^ 5) (.vmin 25 16 7 2)
    ∧ reads (0xF4000005 + 25 * 2 ^ 19 + 16 * 2 ^ 14 + 7 * 2 ^ 9 + 2 * 2 ^ 5) (.vmax 25 16 7 2)
    ∧ reads (0xF4000006 + 25 * 2 ^ 19 + 16 * 2 ^ 14 + 2 * 2 ^ 5) (.vabs 25 16 2)
    ∧ reads (0xF4000007 + 25 * 2 ^ 19 + 16 * 2 ^ 14 + 2 * 2 ^ 5) (.vneg 25 16 2)
    ∧ reads (0xF4000008 + 25 * 2 ^ 19 + 16 * 2 ^ 14 + 7 * 2 ^ 9 + 2 * 2 ^ 5) (.vand 25 16 7 2)
    ∧ reads (0xF4000009 + 12 * 2 ^ 19 + 3 * 2 ^ 14 + 26 * 2 ^ 9 + 2 * 2 ^ 5) (.vor 12 3 26 2)
    ∧ reads (0xF400000A + 25 * 2 ^ 19 + 16 * 2 ^ 14 + 7 * 2 ^ 9 + 2 * 2 ^ 5) (.vxor 25 16 7 2)
    ∧ reads (0xF400000B + 25 * 2 ^ 19 + 16 * 2 ^ 14 + 7 * 2 ^ 9 + 2 * 2 ^ 5) (.vshl 25 16 7 2)
    ∧ reads (0xF400000C + 25 * 2 ^ 19 + 16 * 2 ^ 14 + 7 * 2 ^ 9 + 2 * 2 ^ 5) (.vshr 25 16 7 2)
    ∧ reads (0xF400000D + 25 * 2 ^ 19 + 16 * 2 ^ 14 + 7 * 2 ^ 9 + 2 * 2 ^ 5) (.vsra 25 16 7 2)
    ∧ reads (0xF400000E + 6 * 2 ^ 19 + 29 * 2 ^ 14 + 20 * 2 ^ 9 + 2 * 2 ^ 5) (.vadds 6 29 20 2)
    ∧ reads (0xF400000F + 6 * 2 ^ 19 + 29 * 2 ^ 14 + 20 * 2 ^ 9 + 2 * 2 ^ 5) (.vsubs 6 29 20 2)
    ∧ reads (0xF4000010 + 6 * 2 ^ 19 + 29 * 2 ^ 14 + 20 * 2 ^ 9 + 2 * 2 ^ 5) (.vmulh 6 29 20 2)
    ∧ reads (0xF4000011 + 25 * 2 ^ 19 + 16 * 2 ^ 14 + 7 * 2 ^ 9 + 2 * 2 ^ 5) (.vdiv 25 16 7 2) := by decide +kernel

theorem test_decode_op35 :
    reads (0xF5000000 + 19 * 2 ^ 19 + 10 * 2 ^ 14 + 1 * 2 ^ 9 + 2 * 2 ^ 5) (.vcmpeq 19 10 1 2)
    ∧ reads (0xF5000001 + 19 * 2 ^ 19 + 10 * 2 ^ 14 + 1 * 2 ^ 9 + 2 * 2 ^ 5) (.vcmplt 19 10 1 2)
    ∧ reads (0xF5000002 + 19 * 2 ^ 19 + 10 * 2 ^ 14 + 1 * 2 ^ 9 + 2 * 2 ^ 5) (.vcmple 19 10 1 2)
    ∧ reads (0xF5000003 + 25 * 2 ^ 19 + 16 * 2 ^ 14 + 7 * 2 ^ 9 + 2 * 2 ^ 5) (.vsel 25 16 7 2)
    ∧ reads (0xF5000004 + 6 * 2 ^ 19 + 29 * 2 ^ 14 + 20 * 2 ^ 9 + 2 * 2 ^ 5) (.vshuf 6 29 20 2)
    ∧ reads (0xF5000005 + 19 * 2 ^ 19 + 10 * 2 ^ 14 + 2 * 2 ^ 5) (.vbcast 19 10 2)
    ∧ reads (0xF5000006 + 6 * 2 ^ 19 + 29 * 2 ^ 14 + 20 * 2 ^ 9 + 2 * 2 ^ 5) (.vextr 6 29 20 2)
    ∧ reads (0xF5000007 + 25 * 2 ^ 19 + 16 * 2 ^ 14 + 7 * 2 ^ 9 + 2 * 2 ^ 5) (.vins 25 16 7 2)
    ∧ reads (0xF5000008 + 0 * 2 ^ 19 + 23 * 2 ^ 14 + 2 * 2 ^ 5) (.vredadd 0 23 2)
    ∧ reads (0xF5000009 + 0 * 2 ^ 19 + 23 * 2 ^ 14 + 2 * 2 ^ 5) (.vredmax 0 23 2)
    ∧ reads (0xF500000A + 0 * 2 ^ 19 + 23 * 2 ^ 14 + 2 * 2 ^ 5) (.vredmin 0 23 2)
    ∧ reads (0xF500000B + 25 * 2 ^ 19 + 16 * 2 ^ 14 + 7 * 2 ^ 9 + 9 * 2 ^ 5) (.vdot 25 16 7 9)
    ∧ reads (0xF500000C + 25 * 2 ^ 19 + 16 * 2 ^ 14 + 2 * 2 ^ 5) (.vmov 25 16 2) := by decide +kernel

theorem test_decode_op36 :
    reads (0xF6000000 + 25 * 2 ^ 19 + 16 * 2 ^ 14 + 4 * 2 ^ 9 + 12 * 2 ^ 5 + 3) (.vcvt 25 16 4 12 3) := by decide +kernel

theorem test_decode_op37 :
    reads (0xF7000000 + 25 * 2 ^ 19 + 16 * 2 ^ 14 + 11 * 2 ^ 5) (.vrcp 25 16 11)
    ∧ reads (0xF7000001 + 25 * 2 ^ 19 + 16 * 2 ^ 14 + 11 * 2 ^ 5) (.vrsq 25 16 11)
    ∧ reads (0xF7000002 + 6 * 2 ^ 19 + 29 * 2 ^ 14 + 11 * 2 ^ 5) (.vexp2 6 29 11)
    ∧ reads (0xF7000003 + 6 * 2 ^ 19 + 29 * 2 ^ 14 + 11 * 2 ^ 5) (.vlog2 6 29 11)
    ∧ reads (0xF7000004 + 25 * 2 ^ 19 + 16 * 2 ^ 14 + 11 * 2 ^ 5) (.vsin 25 16 11)
    ∧ reads (0xF7000005 + 25 * 2 ^ 19 + 16 * 2 ^ 14 + 11 * 2 ^ 5) (.vcos 25 16 11)
    ∧ reads (0xF7000006 + 6 * 2 ^ 19 + 29 * 2 ^ 14 + 11 * 2 ^ 5) (.vtanh 6 29 11)
    ∧ reads (0xF7000007 + 6 * 2 ^ 19 + 29 * 2 ^ 14 + 11 * 2 ^ 5) (.vsigm 6 29 11) := by decide +kernel

theorem test_decode_op38 :
    reads (0xF8000000 + 12 * 2 ^ 19 + 3 * 2 ^ 14 + 3386) (.vld 12 3 3386) := by decide +kernel

theorem test_decode_op39 :
    reads (0xF9000000 + 12 * 2 ^ 19 + 3 * 2 ^ 14 + 3386) (.vst 12 3 3386) := by decide +kernel

theorem test_decode_compact :
    readsParcel (0x0000 + 9 * 2 ^ 8 + 0 * 2 ^ 4) (.movK 9 0)
    ∧ readsParcel (0x1000 + 9 * 2 ^ 8 + 0 * 2 ^ 4 + 7) (.addK 9 0 7)
    ∧ readsParcel (0x2000 + 9 * 2 ^ 8 + 0 * 2 ^ 4 + 7) (.subK 9 0 7)
    ∧ readsParcel (0x3000 + 9 * 2 ^ 8 + 0 * 2 ^ 4 + 7) (.andK 9 0 7)
    ∧ readsParcel (0x4000 + 12 * 2 ^ 8 + 3 * 2 ^ 4 + 10) (.orK 12 3 10)
    ∧ readsParcel (0x5000 + 9 * 2 ^ 8 + 0 * 2 ^ 4 + 7) (.xorK 9 0 7)
    ∧ readsParcel (0x6000 + 6 * 2 ^ 8 + 13 * 2 ^ 4 + 4) (.addiK 6 13 4)
    ∧ readsParcel (0x7000 + 6 * 2 ^ 8 + 13 * 2 ^ 4 + 4) (.slliK 6 13 4)
    ∧ readsParcel (0x8000 + 9 * 2 ^ 8 + 0 * 2 ^ 4 + 7) (.lddK 9 0 7)
    ∧ readsParcel (0x9000 + 9 * 2 ^ 8 + 0 * 2 ^ 4 + 7) (.stdK 9 0 7)
    ∧ readsParcel (0xA000 + 9 * 2 ^ 8 + 48) (.beqz 9 48)
    ∧ readsParcel (0xB000 + 9 * 2 ^ 8 + 48) (.bnez 9 48) := by decide +kernel

/-! ### Worked examples of the manual -/

/-- 02_encoding, 08_messages, 09_sync: words that the examples write out. -/
theorem test_example_words : reads 0xC1048007 (.addi 0 18 7) ∧ reads 0xE8088605 (.chld 1 2 3) ∧ reads 0xE9088610 (.amoadd 1 2 3 1) := by decide +kernel

/-- 01_machine: the physical GA of a byte of core (6, 19, 21), and the home of a byte of stack 5. -/
theorem test_example_homes :
    0xFFF * 2 ^ 48 + scratchAddr (coreAt 6 19 21) 0x40100 = 0x0FFF34EA00040100 ∧ homeOf (2 ^ 48 + 5 * 2 ^ 45 + 0x300001A40) = coreAt 29 0 26 := by
  decide +kernel

/-- p3 after an instruction with these values in p4. -/
def resultOf (i : Instr) (v : Word) : Word :=
  match exec i (State.reset.modSlot 0 0 (fun t => { t with st := .run, p := t.p.set 4 v })) with
  | .next t => readReg t 0 0 3
  | _ => 0

/-- 05_numbers: FCLASS.S of 1.0, -0.75, the canonical NaN and the smallest subnormal. -/
theorem test_example_fclass :
    [0x3F800000#64, 0xBF400000#64, 0x7FC00000#64, 1#64].map (resultOf (.fclass 3 4 0)) = [0x14, 0xFFFF0005, 0x28, 0xFF6B0002] := by decide +kernel

/-- Lane 0 and the flags after a conversion from FP32. -/
def converted (tgt mode : Nat) (v : Nat) : Nat × Nat :=
  match exec (.vcvt 3 4 (BitVec.ofNat 4 tgt) 12 (BitVec.ofNat 5 mode))
      (State.reset.modSlot 0 0 (fun t => { t with st := .run, vp := t.vp.set 4 (BitVec.ofNat 256 v) })) with
  | .next t => ((readVec t 0 0 3).toNat % 2 ^ laneWidth tgt, (t.slot 0 0).fpst.toNat)
  | _ => (0, 0)

/-- 05_numbers: the table of conversions from FP32 (types 8 E4M3, 9 E5M2, 10 FP16, 14 FP4; modes 0 RNE, 1 RZ, 3 RUP, 5 SATRNE). -/
theorem test_example_conversions :
    [converted 8 0 0x43960000, converted 8 0 0x43E10000, converted 8 0 0x43FA0000, converted 8 5 0x43FA0000, converted 9 0 0x43FA0000,
      converted 9 1 0x43FA0000, converted 14 0 0x40A00000, converted 14 3 0x40E00000, converted 14 0 0xBE4CCCCD, converted 10 0 0x4788B800,
      converted 10 1 0x4788B800]
    = [(0x79, 1), (0x7E, 1), (0x7F, 5), (0x7E, 5), (0x60, 1), (0x5F, 1), (6, 1), (7, 5), (8, 3), (0x7C00, 5), (0x7BFF, 5)] := by decide +kernel

/-- 13_tasks: 1,000 iterations with DIVS 8 and MINCH 16. -/
theorem test_example_chunks :
    (Chunk.reset.init 0x00801000000003E8#64).1.take.2 = 0x00007D0000000000#64
    ∧ (Chunk.reset.init 0x00801000000003E8#64).1.take.1.take.2 = 0x00006E000000007D#64 := by decide +kernel

/-- 14_population: the sum of 1.0 and four times 2^-24. -/
theorem test_example_collective :
    collTree 0 12 5 [[0x3F800000], [0x33800000], [0x33800000], [0x33800000], [0x33800000]] 0 = ([0x3F800002], flagNX) := by decide +kernel

/-- 15_system: the block that the grinder turns into 56 bytes. -/
theorem test_example_grinder :
    (grind 256 ([(7, false), (9, false)] ++ List.replicate 100 (0x3F8000003F800000#64, false) ++ List.replicate 154 (0, false)) []).map (fun z => z.1)
      = [4, 7, 9, 0x18E, 0x3F8000003F800000#64, 0x265, 3] := by decide +kernel

/-- 16_package: the rectangle of the word 0x95031. -/
theorem test_example_create : (createRectangle 0x95031#64).map (fun e => e.2) = [34, 35, 42, 43] := by decide +kernel

/-! ### Ill-formed terms, each refused by one check of 02_encoding R41-R49 -/

theorem test_ill_formed :
    [Instr.fence 6, .logapp 11 1 2, .mma 7 0 1 2, .mmag 7 0 1 2, .mxzero 1 4, .mxlda 1 2 4, .mxst 1 2 4, .vadd 1 2 3 8, .vabs 1 2 1, .vand 1 2 3 15,
      .vshr 1 2 3 10, .vshuf 1 2 3 14, .vshuf 1 2 3 15, .vdot 1 2 3 4, .vcvt 1 2 15 0 0, .vcvt 1 2 0 15 0, .vcvt 1 2 0 2 7, .vrcp 1 2 0, .movK 0 0,
      .generationAdvance 0 16].map (fun i => i.wf) = List.replicate 20 false := by decide +kernel

/-! ### A step that fetches -/

/-- What ADDI p3, p4, -1 left after the step that ran it: p3, CYCLE and the pc's move from where it was. -/
def afterAddi : Word × Nat × SlotState :=
  match step (State.reset.withFetchWord 32 (0xC1000000 + 3 * 2 ^ 19 + 4 * 2 ^ 14 + 0x3FFF)) with
  | .next t => (readReg t 0 0 3, (t.core 0).cycle, (t.slot 0 0).st)
  | _ => (0, 0, .free)

theorem test_step_runs_addi : afterAddi = (0xFFFFFFFFFFFFFFFF#64, 1, .run) := by decide +kernel

/-! ### Witnesses: states and operands that meet the hypotheses of the statements -/

/-- A thread in slot 0 of core 0: segment 1 over its own scratchpad, segment 2 over that of core 1, segment 3 over HBM4E, all with every
right; p1 to p3 point into them. -/
def base : State := State.reset.modSlot 0 0 (fun t =>
  { t with st := .run,
           segBase := ((t.segBase.set 1 0x0FFFFFFE00000000#64).set 2 0x0FFF000200000000#64).set 3 0x1FFF000000000000#64,
           segLim := ((t.segLim.set 1 0xFC00000000080000#64).set 2 0xFC00000000080000#64).set 3 0xFC00000100000000#64,
           p := ((((t.p.set 1 0x2000000000000100#64).set 2 0x4000000000000100#64).set 3 0x6000000000004000#64).set 4 5#64).set 5 0xFFFFFFFFFFFFFFF9#64 })

/-- Its slot changed. -/
def slotIs (f : Slot → Slot) : State := base.modSlot 0 0 f

/-- Its core changed. -/
def coreIs (f : Core → Core) : State := base.modCore 0 f

/-- A packet from slot 0 of one core to another. -/
def packet (src dst : CoreId) (body : Body) : Msg := ⟨src, dst, 0, 0, none, none, 0, 0, 0, 0xFFF, none, false, none, body⟩

/-- A state in which one packet is in flight. -/
def flying (s : State) (m : Msg) : State := { s with net := [m] }

/-- A check passes with this answer. -/
def passes {ε α : Type} [DecidableEq α] (r : Except ε α) (x : α) : Bool := match r with | .ok y => decide (y = x) | .error _ => false

theorem eq_ok_of_passes {ε α : Type} [DecidableEq α] {r : Except ε α} {x : α} (h : passes r x = true) : r = .ok x := by
  cases r with
  | error e => cases h
  | ok y => exact congrArg Except.ok (of_decide_eq_true h)

/-- The packet can arrive, and is answered. -/
abbrev Arrives (s : State) (m : Msg) : Prop :=
  (flying s m).pick 0 = some (m, { s with net := [] }) ∧ (flying s m).isAbsent m = false ∧ m.src < 32768

/-- A state with bytes of one doubleword. -/
def holding (s : State) (a : Nat) (w : Word) : State := s.writeWord a w

/-- A partition with one mapped bulkhead and an admitted root RCB, which owns the thread's bulkhead. -/
def rootRcb : Rcb := ⟨0, 0, 0, 0, 0xFFFFFFFFFFFFFFFF#64, 100, 10, 0, 0, 0, List.replicate 8 0, List.replicate 8 0, false⟩

def somePart : Part :=
  { Part.reset with used := true, map := [(0, 64)], height := 1, width := 1, rcbs := [(0x1FFF000000001000#64, rootRcb)], root := 0x1FFF000000001000#64 }

def parted : State := { base with parts := [(0, somePart)], bulkheads := [(0, { Bulkhead.reset with owner := some 0 })] }

/-- Its partition changed. -/
def partIs (f : Part → Part) : State := parted.modPart 0 f

theorem witness_ScalarFieldsNameTheirRegisters :
    (15 : Reg) ≠ 0 ∧ (16 : Reg) ≠ 15 ∧ 16 ≤ (16 : Reg).toNat ∧ (16 : Reg) ≠ 0 ∧ (15 : Reg).toNat < 16 ∧ slotIx 15 ≠ slotIx 0 := by decide

theorem witness_RetirementAdvancesOnlyThePc : bf (base.slot 0 0).sigctl 1 0 = 0 ∧ (⟨4, [1], 0⟩ : Retire).len < 2 ^ 61 := by decide +kernel

/-- Words in mode 1, ST 1 to 3; with N 0 and H 0 a branch on p0 is expected where EXP is 2^19 + 2^16. -/
theorem witness_SignatureCheckerFollowsItsTable :
    (bf (5 : Word) 1 0 ≠ 0 ∧ bf (5 : Word) 3 2 = 1) ∧ bf (9 : Word) 3 2 = 2 ∧ bf (0xD : Word) 3 2 = 3
    ∧ (bf (0x0009000000000009 : Word) 3 2 = 2 ∧ bf (0x0009000000000009 : Word) 55 32 = 1 * 2 ^ 19 + 1 * 2 ^ 16 + 0)
    ∧ (⟨4, [1], 4⟩ : Retire).kind ≤ 4 ∧ bf (9 : Word) 55 32 ≠ 1 * 2 ^ 19 + 1 * 2 ^ 16 + 0 := by decide +kernel

theorem witness_PendingRegisterCancels : (slotIs (fun t => { t with pendP := 8 })).anyPending (scalars [3, 1, 2]) = true := by decide +kernel

theorem witness_IntegerTableOfR108 : base.Ready (scalars [31, 4, 5]) ∧ base.Ready (scalars [0, 0, 0]) := by decide +kernel

theorem witness_ProductsWordsAndSaturation : base.Ready (scalars [4, 4, 5]) := by decide +kernel

/-- A division by zero, the most negative number by -1, and a quotient that waits. -/
theorem witness_DivisionsAndIterativeUnits :
    base.Ready (scalars [3, 4, 5]) ∧ base.reg 6 = 0 ∧ base.reg 5 ≠ 0
    ∧ (slotIs (fun t => { t with p := (t.p.set 7 0x8000000000000000#64).set 8 0xFFFFFFFFFFFFFFFF#64 })).reg 7 = 0x8000000000000000#64
    ∧ (slotIs (fun t => { t with p := (t.p.set 7 0x8000000000000000#64).set 8 0xFFFFFFFFFFFFFFFF#64 })).reg 8 = 0xFFFFFFFFFFFFFFFF#64
    ∧ (let s := slotIs (fun t => { t with st := .blocked, wait := .iter .divider (.scalar 3) 7 0 25 ⟨4, [3, 4, 5], 0⟩ })
       (s.slot 0 0).st = .blocked ∧ (s.slot 0 0).wait = .iter .divider (.scalar 3) 7 0 25 ⟨4, [3, 4, 5], 0⟩ ∧ (s.core 0).cycle + 2 < 25)
    ∧ (let s := (slotIs (fun t => { t with st := .blocked, wait := .iter .fp (.scalar 3) 7 0 25 ⟨4, [3, 4, 5], 0⟩ })).modCore 0
        (fun x => { x with cycle := 23 })
       (s.slot 0 0).st = .blocked ∧ (s.slot 0 0).wait = .iter .fp (.scalar 3) 7 0 25 ⟨4, [3, 4, 5], 0⟩ ∧ 25 ≤ (s.core 0).cycle + 2) := by decide +kernel

/-- Fields that end at bit 63, and offsets of 63 and 64 in a register. -/
theorem witness_OneOperandSelectionAndBitFields :
    base.Ready (scalars [3, 4, 5]) ∧ (63 + (63 : BitVec 6).toNat : Nat) ≥ 64 ∧ (63#64).toNat % 256 < 64 ∧ 64 ≤ (64#64).toNat % 256 := by decide +kernel

theorem witness_ImmediatesAndConstants : base.Ready (scalars [3, 4]) := by decide +kernel

theorem witness_CompactFormsMatchTheirEquivalents :
    base.Ready (scalars [wideReg 7, wideReg 8, wideReg 15]) ∧ wideReg 7 = 7 ∧ wideReg 8 = 16 ∧ wideReg 15 = 23 := by decide +kernel

theorem witness_BranchesAndJumps : base.Ready (scalars [3, 4, 5]) := by decide +kernel

/-- Slot 1 is free beside the thread; and no slot can take a context. -/
theorem witness_ForkStartsAChild :
    base.Ready (scalars [3, 4, 5]) ∧ bf base.cur.sigctl 1 0 = 0 ∧ base.curSlot < 16 ∧ base.cur.st = .run ∧ forkSlots 0 0 = (0, 16)
    ∧ ((base.slot 0 1).st = .free ∧ (base.slot 0 1).readyAt ≤ (base.core 0).cycle + 1 ∧ (base.slot 0 1).nextGen.isSome = true)
    ∧ (∀ j, j < 1 → ¬ (base.slot 0 j).st = .free)
    ∧ (let s := coreIs (fun x => { x with slots := x.slots.map (fun t => { t with st := .run }) })
       s.cur.st = .run ∧ ∀ k, k < 16 → ¬ (s.slot 0 k).st = .free) := by decide +kernel

/-- A wake of core 1, one of a core that does not exist, and a yield of 0 and of 5 cycles. -/
theorem witness_StrandInstructions :
    base.Ready (scalars [4, 5]) ∧ bf base.cur.sigctl 1 0 = 0 ∧ base.curSlot < 16 ∧ base.cur.spilled = none ∧ base.cur.origin.disp = false
    ∧ (base.reg 4).toNat % 65536 = 5 ∧ (base.reg 0).toNat % 65536 = 0
    ∧ passes (base.coreTarget (16 / 16 % 2 ^ 15)) (1, none) ∧ (base.coreTarget 0x7FFF).isOk = false := by decide +kernel

/-- LDD and STD: an odd address, one past the limit, segments without R, W and S, and classes 4, 1, 2 and 3. -/
theorem witness_AccessChecksFaultInOrder :
    let seg := fun (b l : Word) => slotIs (fun t => { t with segBase := t.segBase.set 4 b, segLim := t.segLim.set 4 l, p := t.p.set 6 0x8000000000000000#64 })
    let full := 0xFC00000000001000#64
    let fits := fun (s : State) => s.Ready (scalars [3, 6]) ∧ (s.reg 6).toNat % 8 = 0 ∧ (s.reg 6).toNat % 2 ^ 61 + 8 ≤ (s.cur.segWord (s.reg 6)).toNat % 2 ^ 58
    (¬ (base.reg 4).toNat % 8 = 0) ∧ ¬ ((seg 0 7#64).reg 6).toNat % 2 ^ 61 + 8 ≤ ((seg 0 7#64).cur.segWord ((seg 0 7#64).reg 6)).toNat % 2 ^ 58
    ∧ fits (seg 0 8#64) ∧ ((seg 0 8#64).cur.segWord ((seg 0 8#64).reg 6)).getLsbD 63 = false
    ∧ fits (seg 0x0FFF000200000000#64 0xF800000000001000#64)
    ∧ fits (seg 0x4FFF000000000000#64 full) ∧ 4 ≤ ((seg 0x4FFF000000000000#64 full).cur.segGa ((seg 0x4FFF000000000000#64 full).reg 6)).toNat / 2 ^ 60
    ∧ fits (seg 0x1FFF000000000000#64 full) ∧ ((seg 0x1FFF000000000000#64 full).cur.segGa ((seg 0x1FFF000000000000#64 full).reg 6)).toNat / 2 ^ 60 = 1
    ∧ fits (seg 0x2FFF000000000000#64 full) ∧ ((seg 0x2FFF000000000000#64 full).cur.segGa ((seg 0x2FFF000000000000#64 full).reg 6)).toNat / 2 ^ 60 = 2
    ∧ fits (seg 0x3FFF000000000000#64 full) ∧ ((seg 0x3FFF000000000000#64 full).cur.segGa ((seg 0x3FFF000000000000#64 full).reg 6)).toNat / 2 ^ 60 = 3
    ∧ base.isOwnPkg 0xFFF = true ∧ isCore 0 = true ∧ controlListed 0 = true ∧ base.cur.level = 0 := by decide +kernel

/-- Offsets of the own scratchpad, the last doubleword among them. -/
theorem witness_LocalLoadsReadTheirBytes :
    base.Ready (scalars [3, 1]) ∧ base.Ready [.vector 3, .scalar 1] ∧ base.Ready (scalars [wideReg 3, wideReg 1])
    ∧ (∀ n ∈ [1, 2, 4, 8], passes (base.checkAccess 0 0 (base.reg 1 + (0 : BitVec 14).signExtend 64) (scalarForm n rightR false)) (.self 0x100))
    ∧ passes (base.checkAccess 0 0 0x200000000007FFF8#64 (scalarForm 8 rightR false)) (.self 0x7FFF8)
    ∧ passes (base.checkAccess 0 0 (base.reg (wideReg 1) + 0) (scalarForm 8 rightR false)) (.self 0x100)
    ∧ passes (base.checkAccess 0 0 (base.reg 1 + (0 : BitVec 14).signExtend 64 * 32) (vectorForm rightR false)) (.self 0x100)
    ∧ base.isHeld 0x100 32 = false ∧ base.isPoisoned 0x100 32 = false ∧ 0x100 + 32 ≤ scratchSize 0
    ∧ (let s := slotIs (fun t => { t with segLim := t.segLim.set 1 0xFC00000000100000#64 })
       passes (s.checkAccess 0 0 0x200000000007FFE8#64 (vectorForm rightR false)) (.self 0x7FFE8) ∧ scratchSize 0 < 0x7FFE8 + 32) := by decide +kernel

theorem witness_LocalStoresWriteTheirBytes :
    base.CanonicalMemory ∧ isCore base.curCore = true ∧ base.CheckerOff 0 0 ∧ base.cur.posted = [] ∧ (base.core 0).landing = []
    ∧ (∀ n ∈ [1, 2, 4, 8], passes (base.checkAccess 0 0 (base.reg 1 + (0 : BitVec 14).signExtend 64) (scalarForm n rightW true)) (.self 0x100))
    ∧ passes (base.checkAccess 0 0 (base.reg 1 + (0 : BitVec 14).signExtend 64 * 32) (vectorForm rightW true)) (.self 0x100)
    ∧ base.Ready (scalars [3, 1]) ∧ base.isHeld 0x100 32 = false ∧ 0x100 + 32 ≤ scratchSize 0 := by decide +kernel

/-- Another core's scratchpad; a full posted table; a fence with and without an entry in its scope. -/
theorem witness_RemoteAccessesAndFences :
    base.Ready (scalars [3, 2]) ∧ base.CheckerOff 0 0
    ∧ (∀ n ∈ [1, 2, 4, 8], passes (base.checkAccess 0 0 (base.reg 2 + (0 : BitVec 14).signExtend 64) (scalarForm n rightR false)) (.scratch 1 0x100)
        ∧ passes (base.checkAccess 0 0 (base.reg 2 + (0 : BitVec 14).signExtend 64) (scalarForm n rightW true)) (.scratch 1 0x100))
    ∧ base.cur.posted.length < 32 ∧ 32 ≤ (slotIs (fun t => { t with posted := List.replicate 32 ⟨0, some 1⟩ })).cur.posted.length
    ∧ base.cur.posted.any (fun e => e.inScope 5 0) = false
    ∧ (slotIs (fun t => { t with posted := [⟨0, some 1⟩] })).cur.posted.any (fun e => e.inScope 1 0) = true
    ∧ (base.core 0).sb = [] ∧ ((coreIs (fun x => { x with sb := [⟨0, 0, 8, .press⟩] })).core 0).sb ≠ []
    ∧ isCompute 0 = true ∧ isCompute 16383 = true := by decide +kernel

/-- A load, a poisoned one and a posted store at core 1, also of 32 bytes, between two pieces and before the last; replies to a waiting load, one of another generation, and acknowledgements of a
running and of a fencing thread. -/
theorem witness_HomesAndRepliesOfAccesses :
    Arrives base (packet 0 1 (.load (scratchAddr 1 0x100) 8)) ∧ Arrives base { packet 0 1 (.store (scratchAddr 1 0x100) 8 7) with post := some 0 }
    ∧ addrClass (scratchAddr 1 0x100) = 0 ∧ base.isHeld (scratchAddr 1 0x100) 8 = false
    ∧ base.spillRefused (packet 0 1 (.load (scratchAddr 1 0x100) 8)) (scratchAddr 1 0x100) 8 = false
    ∧ base.isPoisoned (scratchAddr 1 0x100) 8 = false
    ∧ ({ base with poison := [((2 ^ 33 + 0x100) / 8, true)] }).isPoisoned (scratchAddr 1 0x100) 8 = true ∧ base.CanonicalMemory
    ∧ base.spillRefused { packet 0 1 (.store (scratchAddr 1 0x100) 8 7) with post := some 0 } (scratchAddr 1 0x100) 8 = false := by decide +kernel

theorem witness_HomesAndRepliesOfAccesses_2 :
    (let a := scratchAddr 1 0x100
       let w := packet 0 1 (.load a 32)
       let v := { packet 0 1 (.store a 32 7) with post := some 0 }
       Arrives base w ∧ base.isHeld a 32 = false ∧ base.spillRefused w a 32 = false ∧ base.spillRefused v a 32 = false ∧ Arrives base v
       ∧ Arrives base (packet 0 1 (.pieces (a + 24) 8 [])) ∧ Arrives base { packet 0 1 (.storing (a + 24) 8 7 a) with post := some 0 }
       ∧ base.spillRefused v (a + 24) 8 = false) := by decide +kernel

theorem witness_HomesAndRepliesOfAccesses_3 :
    (let m := packet 1 0 (.dataReply .done 7 0)
       let s := slotIs (fun t => { t with st := .blocked, wait := .reply (.load 3 8 false false) ⟨4, [3, 2], 0⟩ (.load (scratchAddr 1 0x100) 8) 1 })
       Arrives s m ∧ s.gateAdmits m = true ∧ s.delivers m.src m.dst = true ∧ s.CheckerOff 0 0 ∧ (s.slot 0 0).accepts m.gen = true
       ∧ (s.slot 0 0).wait = .reply (.load 3 8 false false) ⟨4, [3, 2], 0⟩ (.load (scratchAddr 1 0x100) 8) 1
       ∧ Arrives s (packet 1 0 (.dataReply .absent 0 0)) ∧ Arrives s (packet 1 0 (.dataReply .poisoned 0 0))
       ∧ Arrives s { m with gen := 1 } ∧ (s.slot 0 0).accepts 1 = false)
    ∧ (let m := packet 1 0 (.ack .done 0 0 0)
       let s := slotIs (fun t => { t with posted := [⟨0, some 1⟩], nextPost := 1 })
       let f := slotIs (fun t => { t with posted := [⟨0, some 1⟩], nextPost := 1, st := .blocked, wait := .fence 1 ⟨4, [], 0⟩ })
       Arrives s m ∧ s.gateAdmits m = true ∧ s.delivers m.src m.dst = true ∧ s.CheckerOff 0 0 ∧ (s.core 0).owed = [] ∧ (s.slot 0 0).st = .run
       ∧ Arrives s (packet 1 0 (.ack .absent 0 0 0))
       ∧ Arrives f m ∧ (f.slot 0 0).st = .blocked ∧ (f.slot 0 0).wait = .fence 1 ⟨4, [], 0⟩
       ∧ ((f.slot 0 0).posted.filter (fun p => p.id != 0)).all (fun p => !p.inScope 1 0) = true) := by decide +kernel

theorem witness_AtomicsReplaceAndReturnTheOldValue :
    base.Ready (scalars [3, 1, 4]) ∧ base.CanonicalMemory ∧ isCore base.curCore = true ∧ base.CheckerOff 0 0
    ∧ passes (base.checkAccess 0 0 (base.reg 1) (atomicForm 0 8)) (.self 0x100) ∧ passes (base.checkAccess 0 0 (base.reg 1) (atomicForm 0 4)) (.self 0x100)
    ∧ base.isHeld 0x100 8 = false ∧ base.isPoisoned 0x100 8 = false
    ∧ (let m := packet 0 1 (.atomic 9 true (scratchAddr 1 0x100) 5 7)
       Arrives base m ∧ addrClass (scratchAddr 1 0x100) = 0 ∧ base.isHeld (scratchAddr 1 0x100) (amoSize true) = false
       ∧ base.spillRefused m (scratchAddr 1 0x100) (amoSize true) = false ∧ base.isPoisoned (scratchAddr 1 0x100) (amoSize true) = false
       ∧ Arrives base { m with post := some 0 }) := by decide +kernel

/-- A word of 0 has reached 0 and -7, not 5. -/
theorem witness_TimelinesAndTickets :
    base.Ready (scalars [3, 1, 4]) ∧ base.CanonicalMemory ∧ isCore base.curCore = true ∧ base.CheckerOff 0 0 ∧ base.cur.posted = []
    ∧ passes (base.checkAccess 0 0 (base.reg 1) (atomicForm 0 8)) (.self 0x100) ∧ passes (base.checkAccess 0 0 (base.reg 1) (atomicForm 0 16)) (.self 0x100)
    ∧ (base.isHeld 0x100 8 = false ∧ base.isPoisoned 0x100 8 = false) ∧ (base.isHeld 0x108 8 = false ∧ base.isPoisoned 0x108 8 = false)
    ∧ (0 ≤ (base.readWord 0x100 - base.reg 0).toInt ∧ 0 ≤ (base.readWord 0x100 - base.reg 5).toInt) ∧ ¬ 0 ≤ (base.readWord 0x100 - base.reg 4).toInt
    ∧ (base.core 0).waiters.length < 64 := by decide +kernel

theorem witness_WaitsAreServedRetriedAndReleased :
    (let a := scratchAddr 1 0x100
     let m := packet 0 1 (.sync 9 a 1)
     let full := base.modCore 1 (fun x => { x with waiters := List.replicate 64 ⟨.word 0 1, 0, 0, 0⟩ })
     Arrives base m ∧ Arrives full m ∧ m.post = none ∧ addrClass a = 0 ∧ base.isHeld a 8 = false ∧ base.spillRefused m a 8 = false
     ∧ base.isPoisoned a 8 = false ∧ ¬ 0 ≤ (base.readWord a - 1).toInt ∧ 0 ≤ (base.readWord a - 0).toInt ∧ (base.core 1).waiters.length < 64
     ∧ 64 ≤ (full.core 1).waiters.length)
    ∧ (let w := Wait.retry (.word 3 true) ⟨4, [3, 2, 4], 0⟩ (.sync 9 (scratchAddr 1 0x100) 5) 1 256
       let s := slotIs (fun t => { t with st := .blocked, wait := w })
       (s.slot 0 0).st = .blocked ∧ (s.slot 0 0).wait = w ∧ s.fc < 256 ∧ 256 ≤ ({ s with fc := 256 }).fc)
    ∧ (let w := Wait.retry (.word 3 true) ⟨4, [3, 2, 4], 0⟩ (.sync 9 (scratchAddr 1 0x100) 5) (coreName 1) 256
       let s := { parted.modSlot 0 0 (fun t => { t with st := .blocked, wait := w }) with fc := 256 }
       (s.slot 0 0).st = .blocked ∧ (s.slot 0 0).wait = w ∧ 256 ≤ s.fc ∧ s.partOf 0 0 = some 0 ∧ s.xlate 0 1 = .at_ 1)
    ∧ isCore 31 = true ∧ 0x7FFF8 % 8 = 0 ∧ 0x7FFF8 < 2 ^ 33
    ∧ (∀ w ∈ ((coreIs (fun x => { x with waiters := [⟨.word 0x100 1, 1, 0, 0⟩] })).core 0).waiters, w.core < 32768) := by decide +kernel

/-- An open log of 64 bytes at 0x1000, one that is full, and one that is closed. -/
theorem witness_DripLogsAppendAndSeal :
    let open_ := coreIs (fun x => { x with logbase := 0x1000, logsize := 64 })
    let full := coreIs (fun x => { x with logbase := 0x1000, logsize := BitVec.ofNat 64 (64 + 2 * 2 ^ 33) })
    let m := { packet 1 0 (.logApp [1, 2, 3, 0]) with post := some 0 }
    let sealing := fun (s : State) => s.modSlot 0 1 (fun t => { t with st := .blocked, wait := .seal 8 0 0 3 0 0 ⟨4, [3], 0⟩ })
    let isOpen := fun (w : Word) => logSize w ≠ 0 ∧ 32 * logCount w ≠ logSize w ∧ logSorted w = false ∧ logNext w = 0
    open_.Ready (scalars [3, 1, 4]) ∧ open_.CanonicalMemory ∧ isCore open_.curCore = true ∧ open_.CheckerOff 0 0
    ∧ (∀ n ∈ [4, 8], passes (open_.checkScratch 0 0 (open_.reg 1) ⟨n, n, [rightA], false, true, false, n⟩) (.self 0x100))
    ∧ open_.isHeld (open_.logAddr 0 0) 32 = false ∧ isOpen (open_.core 0).logsize ∧ (open_.core 0).logBase + 32 * 0 + 32 ≤ 0x80000
    ∧ ¬ isOpen (full.core 0).logsize ∧ full.isHeld (full.logAddr 0 2) 32 = false ∧ ¬ isOpen (base.core 0).logsize
    ∧ (logCount (open_.core 0).logsize = 0 ∧ logNext (open_.core 0).logsize = 0) ∧ logSize (base.core 0).logsize = 0
    ∧ (open_.core 0).sealing = false ∧ (full.core 0).sealing = false ∧ ((sealing full).core 0).sealing = true ∧ (sealing full).Ready (scalars [3])
    ∧ ¬ (logSize (full.core 0).logsize = 0 ∨ (logCount (full.core 0).logsize = 0 ∧ logNext (full.core 0).logsize = 0))
    ∧ Arrives open_ m ∧ Arrives full m := by decide +kernel

theorem waits_of_initial (c k : Nat) : ((Core.initial c).slot k).wait = .none := by
  have h : ∀ j : Fin 16, Core.reset.slots[j].wait = .none := by decide +kernel
  unfold Core.initial Core.slot
  split
  · exact h (slotIx k)
  · simp only [Vector.getElem_ofFn, Fin.getElem_fin]
    split <;> rfl

theorem waits_of_base (c k : Nat) : (base.slot c k).wait = .none := by
  have h : ∀ j : Fin 16, (base.core 0).slots[j].wait = .none := by decide +kernel
  by_cases hc : c = 0
  · subst hc; exact h (slotIx k)
  · have h0 : base.cores = [(0, base.core 0)] := by decide +kernel
    have : base.core c = Core.initial c := by
      rw [State.core, h0]
      exact if_neg (Ne.symm hc)
    rw [State.slot, this, waits_of_initial]

theorem witness_BarriersCountTheirMembers :
    (base.Ready (scalars [3, 4, 5]) ∧ base.CheckerOff 0 0 ∧ base.cur.posted = [] ∧ (base.barrier 0 5).members = 0)
    ∧ (∀ t ∈ clusterSlots base.curCore, ∀ o p q r, (base.slot t.1 t.2).wait ≠ .barrier o p q r)
    ∧ (let at_ := fun (b : Barrier) => ({ base with clusters := [(0, { Cluster.reset with bars := [(5, b)] })] }).barrier 0 5
       let arrives := fun (b : Barrier) => (b.arrived ||| BitVec.ofNat 8 (2 ^ posOf 0))
       (at_ ⟨false, 0, 2⟩).members.getLsbD (posOf 0) = false
       ∧ ((at_ ⟨false, 1, 3⟩).members.getLsbD (posOf 0) = true ∧ (at_ ⟨false, 1, 3⟩).arrived.getLsbD (posOf 0) = true)
       ∧ ((at_ ⟨false, 0, 3⟩).arrived.getLsbD (posOf 0) = false ∧ arrives ⟨false, 0, 3⟩ ≠ (at_ ⟨false, 0, 3⟩).members)
       ∧ arrives ⟨true, 2, 3⟩ = (at_ ⟨true, 2, 3⟩).members
       ∧ (at_ ⟨true, 0, 3⟩).members ≠ 0 ∧ (at_ ⟨true, 0, 3⟩).phase = (base.reg 4).getLsbD 0 ∧ (at_ ⟨true, 0, 3⟩).phase ≠ (base.reg 0).getLsbD 0) := by
  refine ⟨by decide +kernel, ?_, by decide +kernel⟩
  intro t _ o p q r h
  rw [waits_of_base] at h
  cases h

/-- A message of one doubleword to mailbox 0 of core 1: its mailbox closed, too small, full, and with room. -/
theorem witness_MessagesLeaveAndArrive :
    (let s := slotIs (fun t => { t with p := (t.p.set 6 (BitVec.ofNat 64 (16 + 2 ^ 24))).set 7 16 })
     let long := slotIs (fun t => { t with p := t.p.set 6 (BitVec.ofNat 64 (16 + 5 * 2 ^ 24)) })
     passes (long.targetWord (long.reg 6)) (1, none) ∧ (long.reg 6).toNat / 2 ^ 24 % 64 = 5
     ∧ passes (long.checkOwn 0 0 (long.reg 1) 8 40 [rightR] 0x21) 0x100 ∧ long.isHeld 0x100 40 = false
     ∧ s.Ready (scalars [3, 6, 1]) ∧ passes (s.targetWord (s.reg 6)) (1, none) ∧ (s.reg 6).toNat / 2 ^ 24 % 64 = 1
     ∧ passes (s.targetWord (s.reg 7)) (1, none) ∧ (s.reg 7).toNat / 2 ^ 24 % 64 = 0
     ∧ passes (s.checkOwn 0 0 (s.reg 1) 8 8 [rightR] 0x21) 0x100 ∧ s.isHeld 0x100 8 = false
     ∧ passes (s.checkOwn 0 0 (s.reg 1) 8 24 [rightR] 0x21) 0x100 ∧ s.isHeld 0x100 24 = false
     ∧ s.cur.posted.all (fun e => !e.inScope (narrowScope 0 1) 0) = true)
    ∧ (let m := packet 0 1 (.mail 0 [7] false [])
       let box := fun (size used : Nat) => base.modCore 1 (fun x =>
         { x with mbbase := x.mbbase.set 0 0x10000, mbsize := x.mbsize.set 0 (BitVec.ofNat 64 (size + used * 2 ^ 33)) })
       let taken := (box 256 0).modCore 1 (fun x => { x with arrived := some x.cycle })
       Arrives taken m ∧ taken.mailHeld 1 0 1 = false ∧ (taken.core 1).arrived = some (taken.core 1).cycle
       ∧ ((box 256 0).core 1).arrived ≠ some ((box 256 0).core 1).cycle
       ∧ Arrives (box 0 0) m ∧ ((box 0 0).core 1).mbSize 0 = 0
       ∧ Arrives (box 8 0) m ∧ ((box 8 0).core 1).mbSize 0 ≠ 0 ∧ ((box 8 0).core 1).mbSize 0 < 16
       ∧ Arrives (box 256 256) m ∧ ((box 256 256).core 1).mbUsed 0 = ((box 256 256).core 1).mbSize 0
       ∧ Arrives (box 256 0) m ∧ 8 + 8 * 1 ≤ ((box 256 0).core 1).mbSize 0 ∧ ((box 256 0).core 1).mbSize 0 ≤ 0x10000
       ∧ ((box 256 0).core 1).mbHead 0 + ((box 256 0).core 1).mbUsed 0 + 16 ≤ ((box 256 0).core 1).mbSize 0
       ∧ ((box 256 0).core 1).mbBase 0 + 256 ≤ 0x80000 ∧ (box 256 0).isHeld (scratchAddr 1 0x10000) 16 = false
       ∧ isCompute 1 = true ∧ (box 256 0).CanonicalMemory) := by decide +kernel

/-- A port that is free and one that reads; the last doublewords of a payload of five, and one of nine. -/
theorem witness_MessagesLeaveAndArrive_2 :
    let w := fun (left : Nat) => Wait.sending 0 3 1 none (some 0) 0x120 left [1, 2, 3, 4] [] ⟨4, [3, 6, 1], 0⟩
    let at_ := fun (left : Nat) => slotIs (fun t => { t with st := .blocked, wait := w left })
    let alone := fun (s : State) (k : Nat) => (List.range 16).all (fun j => j == k || match (s.slot 0 j).wait.sendSince with | some n => 0 < n | none => true)
    let later := (at_ 1).modSlot 0 3 (fun t => { t with wait := .sending 2 3 1 none none 0x100 3 [] [] ⟨4, [3, 6, 1], 0⟩ })
    let b := Body.mail 0 ([1, 2, 3, 4] ++ (at_ 1).readWords 0x120 1) false []
    (base.core 0).portBusy = false ∧ ((at_ 1).core 0).portBusy = true
    ∧ (∀ l ∈ [1, 5], ((at_ l).slot 0 0).st = .blocked ∧ ((at_ l).slot 0 0).wait = w l ∧ alone (at_ l) 0 = true) ∧ alone later 0 = true
    ∧ (match (at_ 1).homeNow ((at_ 1).partOf 0 0) none 1 b with | some (h, v, z) => decide (h = 1 ∧ v = none ∧ z = b) | none => false) = true := by
  decide +kernel

theorem witness_NoMailboxWait : ∀ k o d q r, ((base.modCore 1 (fun x => { x with mbsize := x.mbsize.set 0 256 })).slot 1 k).wait ≠ .mbwait o d q r := by
  intro k o d q r h
  have hs : ∀ j : Fin 16, ((base.modCore 1 (fun x => { x with mbsize := x.mbsize.set 0 256 })).core 1).slots[j].wait = .none := by decide +kernel
  have := hs (slotIx k)
  rw [State.slot, Core.slot, this] at h
  cases h

/-- A closed mailbox, an empty one, one with a record of one doubleword, one whose record is corrupt, and a wait before and after its time. -/
theorem witness_MailboxInstructionsAnswerWithHandles :
    (let box := fun (size used : Nat) => holding (coreIs (fun x =>
       { x with mbbase := x.mbbase.set 1 0x10000, mbsize := x.mbsize.set 1 (BitVec.ofNat 64 (size + used * 2 ^ 33)) })) 0x10000 (mailHeader 1 0 16 0xFFF)
     base.Ready (scalars [3, 4, 5]) ∧ base.CheckerOff 0 0 ∧ (base.reg 4).toNat % 4 = 1 ∧ ((box 0 0).core 0).mbSize 1 = 0
     ∧ ((box 256 0).core 0).mbSize 1 ≠ 0 ∧ ((box 256 0).core 0).mbUsed 1 = 0
     ∧ (∀ z ∈ [box 0 0, box 256 0, box 256 16, box 256 8], (z.core 0).mailboxBusy 1 = false)
     ∧ (((box 256 8).core 0).mbUsed 1 ≠ 0 ∧ (box 256 8).mbHeld 0 1 = false ∧ headerCorrupt ((box 256 8).core 0) 1 ((box 256 8).mbHeader 0 1) = true)
     ∧ passes ((box 256 16).checkOwn 0 0 ((box 256 16).reg 1) 8 8 [rightW] 0x22) 0x100 ∧ (1 : Reg) ≠ 0 ∧ (box 256 16).CanonicalMemory
     ∧ (rsizeOf ((box 256 16).mbHeader 0 1) - 8) / 8 = 1 ∧ (box 256 16).isHeld 0x10008 8 = false ∧ (box 256 16).isHeld 0x100 8 = false
     ∧ (box 256 16).isPoisoned 0x10008 8 = false ∧ (box 256 16).Ready (scalars [3, 4, 1])
     ∧ ((box 256 16).core 0).mbUsed 1 ≠ 0 ∧ (box 256 16).mbHeld 0 1 = false ∧ headerCorrupt ((box 256 16).core 0) 1 ((box 256 16).mbHeader 0 1) = false)
    ∧ (let w := Wait.mbwait 1 3 (some 9) ⟨4, [3, 4, 5], 0⟩
       let s := slotIs (fun t => { t with st := .blocked, wait := w })
       (s.slot 0 0).st = .blocked ∧ (s.slot 0 0).wait = w ∧ s.CheckerOff 0 0 ∧ (s.core 0).cycle + 2 < 9
       ∧ 9 ≤ ((s.modCore 0 (fun x => { x with cycle := 7 })).core 0).cycle + 2) := by decide +kernel

/-- An active message with room and without, a status that its thread waits for, and a wake of a parked thread. -/
theorem witness_ActiveMessagesStatusesAndWakes :
    (let m := packet 0 1 (.active 0x2000000000000001#64 1 2 0)
     let full := base.modCore 1 (fun x => { x with amq := List.replicate 16 ⟨0, 0, 0, 0, 0, 0, 0⟩ })
     Arrives base m ∧ Arrives full m ∧ isCompute m.dst = true ∧ (0x2000000000000001#64).getLsbD 0 = true ∧ (base.core 1).amq.length < 16
     ∧ 16 ≤ (full.core 1).amq.length)
    ∧ (let m := packet 1 0 (.msgStatus 3)
       let w := Wait.reply (.status 3) ⟨4, [3, 2, 1], 0⟩ (.mail 0 [7] false []) 1
       let s := slotIs (fun t => { t with st := .blocked, wait := w })
       Arrives s m ∧ s.gateAdmits m = true ∧ s.delivers m.src m.dst = true ∧ (s.slot 0 0).accepts m.gen = true ∧ (s.slot 0 0).wait = w ∧ s.CheckerOff 0 0
       ∧ m.slot < 64 ∧ 3 < 2 ^ 64 ∧ (3 : Reg).toNat < 16)
    ∧ (let m := packet 1 0 .wake
       let s := slotIs (fun t => { t with st := .parked, park := some ⟨0x10, 1, 0⟩ })
       Arrives s m ∧ (s.slot 0 0).spilled = none ∧ (s.slot 0 0).st = .parked ∧ (s.slot 0 0).park = some ⟨0x10, 1, 0⟩ ∧ (base.slot 0 0).st ≠ .parked) := by
  decide +kernel

/-- The last step of a chain of one, an earlier one whose next pointer is odd, a reply, and a descriptor of one step. -/
theorem witness_ChainsStepAndReply :
    (let a := scratchAddr 1 0x100
     let m := packet 0 1 (.chain 0x0FFF000200000100#64 a 0 [⟨0, ones⟩] false 0 0)
     let two := packet 0 1 (.chain 0x0FFF000200000100#64 a 0 [⟨0, ones⟩, ⟨1, ones⟩] false 0 0)
     Arrives base m ∧ Arrives base two ∧ addrClass a = 0 ∧ base.isHeld a 8 = false ∧ base.isPoisoned a 8 = false
     ∧ ((base.readWord a &&& ones) + 1).toNat % 8 ≠ 0 ∧ base.spillRefused m a 8 = false
     ∧ (let on := holding base a 0x0FFF000400000200#64
        let next := packet 0 1 (.chain 0x0FFF000200000100#64 a 0 [⟨0, ones⟩, ⟨0, ones⟩] false 0 0)
        Arrives on next ∧ on.isHeld a 8 = false ∧ on.isPoisoned a 8 = false ∧ on.spillRefused next a 8 = false
        ∧ on.chainCheck 1 none ((on.readWord a &&& ones) + 0) = .at_ (scratchAddr 2 0x200) ∧ homeOf (scratchAddr 2 0x200) < 32768))
    ∧ (let m := packet 1 0 (.chainReply 7 0 false)
       let w := Wait.reply (.chain 3 false) ⟨4, [3, 1, 2], 0⟩ (.chain 0 0 0 [⟨0, ones⟩] false 0 0) 1
       let s := slotIs (fun t => { t with st := .blocked, wait := w })
       Arrives s m ∧ s.gateAdmits m = true ∧ s.delivers m.src m.dst = true ∧ (s.slot 0 0).accepts m.gen = true ∧ (s.slot 0 0).wait = w ∧ s.CheckerOff 0 0)
    ∧ (let s := holding (slotIs (fun t => { t with p := t.p.set 6 0x2000000000000200#64 })) 0x200 1
       (s.readWord 0x200).toNat % 8 = 1 ∧ passes (s.checkOwn 0 0 (s.reg 6) 8 8 [rightR] 0x21) 0x200
       ∧ passes (s.checkOwn 0 0 (s.reg 6) 8 (8 + 16 * 1) [rightR] 0x21) 0x200 ∧ s.isHeld 0x200 8 = false ∧ s.isHeld 0x200 24 = false
       ∧ (match s.chainStart 0 0 (s.reg 1 + 0) with | .to (.self off) => off == 0x100 | _ => false) = true
       ∧ s.Ready (scalars [3, 1, 6]) ∧ s.Ready [.vector 3, .scalar 1, .scalar 6]) := by decide +kernel

/-- Single-precision operands of every class: NaN, infinity, zero, one, minus one, 2^20 and 2^19. -/
theorem witness_FpArithmeticAndIterative :
    base.Ready (scalars [3, 4, 5]) ∧ fp32.value 0x7FC00000 = .nan false ∧ fp32.value 0x7F800001 = .nan true ∧ fp32.value 0x7F800000 = .inf false
    ∧ fp32.value 0xFF800000 = .inf true ∧ fp32.value 0 = .fin false 0 (-149) ∧ fp32.value 0x3F800000 = .fin false 0x800000 (-23)
    ∧ fp32.value 0xBF800000 = .fin true 0x800000 (-23) ∧ fp32.value 0x49800000 = .fin false 0x800000 (-3)
    ∧ (20 : Int) ≤ (Nat.log2 0x800000 : Int) + (-3) ∧ ¬ (20 : Int) ≤ (Nat.log2 0x800000 : Int) + (-4) := by decide +kernel

theorem witness_FpCompareAndConvert :
    base.Ready (scalars [3, 4, 5]) ∧ (2 : Nat) ^ (fp32.width - 1) = 0x80000000 ∧ (fp32.value 0x7FC00000).isNan = true
    ∧ (fp32.value 0x3F800000).isNan = false ∧ fp32.value 0x5F000000 = .fin false 0x800000 40 ∧ fp32.value 0x3FC00000 = .fin false 0xC00000 (-23)
    ∧ (5 : BitVec 3).getLsbD 2 = true ∧ fp32.value 0x7F800000 = .inf false := by decide +kernel

theorem witness_VectorLanes :
    base.Ready (vectors [3, 4, 5]) ∧ (7 : BitVec 4).toNat < 8 ∧ 10 ≤ (10 : BitVec 4).toNat ∧ (13 : BitVec 4).toNat ≤ 13
    ∧ fp16.value 0x7C00 = .inf false ∧ fp16.value 0xFC00 = .inf true ∧ (fp16.value 0x7E00).isNan = true := by decide +kernel

theorem witness_VectorMovesReductionsAndConversions :
    base.Ready (vectors [3, 4, 5]) ∧ base.Ready [.vector 3, .scalar 4, .scalar 5] ∧ base.Ready [.scalar 3, .vector 4, .scalar 5]
    ∧ (14 : BitVec 4).toNat < 15 ∧ 10 ≤ (10 : BitVec 4).toNat ∧ (3 : BitVec 4).toNat < 4 ∧ 256 / laneWidth 6 ≤ (base.reg 4).toNat
    ∧ (base.reg 4).toNat < 256 / laneWidth 0 ∧ (6 : BitVec 5).toNat < 7 := by decide +kernel

/-- A descriptor at 0x1000 of the issuing core and of core 1; a codelet that ends; and a held push. -/
theorem witness_CodeletCountersAndEnds :
    (let s := slotIs (fun t => { t with p := t.p.set 6 0x2000000000001000#64 })
     passes (s.checkScratch 0 0 (s.reg 6) ⟨8, 48, [rightA], false, true, false, 48⟩) (.self 0x1000) ∧ s.Ready (scalars [3, 6, 4]) ∧ s.CheckerOff 0 0
     ∧ s.CanonicalMemory
     ∧ (∀ h ∈ [0, 1], isCompute h = true ∧ 0x1000 + 48 ≤ 0x7B800 ∧ 0x1000 % 8 = 0 ∧ s.isHeld (scratchAddr h 0x1000) 48 = false
         ∧ s.isPoisoned (scratchAddr h (0x1000 + 32)) 8 = false ∧ (s.core h).ringCount < 256 ∧ s.isHeld (s.ringSlot h) 8 = false)
     ∧ Arrives s (packet 0 1 (.codelet 2 (scratchAddr 1 0x1000) 0 0))
     ∧ s.spillRefused (packet 0 1 (.codelet 2 (scratchAddr 1 0x1000) 0 0)) (scratchAddr 1 0x1000) 48 = false)
    ∧ (let s := slotIs (fun t => { t with origin := ⟨true, true, 0x1000, [], 0⟩ })
       let armed := holding s 0x1020 0x4000000000#64
       s.Ready (scalars [4]) ∧ s.CheckerOff 0 0 ∧ s.cur.spilled = none ∧ s.cur.origin.disp = true ∧ s.cur.origin.ring = true
       ∧ s.isHeld 0x1000 48 = false ∧ s.isHeld (s.ringSlot 0) 8 = false
       ∧ (let busy := s.modCore 0 (fun x => { x with sb := [⟨0, 0x1000, 0x1008, .press⟩] })
          busy.Ready (scalars [4]) ∧ busy.isHeld 0x1000 48 = true)
       ∧ (s.readWord 0x1020).getLsbD 38 = false ∧ (armed.readWord 0x1020).getLsbD 38 = true ∧ armed.CanonicalMemory
       ∧ base.cur.origin.disp = false)
    ∧ (let m := packet 0 1 (.codelet 2 (scratchAddr 1 0x1000) 0 0)
       let own := coreIs (fun x => { x with heldPush := [(0x1000, none)] })
       let full := coreIs (fun x => { x with heldPush := [(0x1000, none)], ringCount := 256 })
       let asked := holding (base.modCore 1 (fun x => { x with heldPush := [(0x1000, some m)] })) (scratchAddr 1 0x1020) 0x100000000#64
       let ended := coreIs (fun x => { x with ending := [(0x1000, none)] })
       ((ended.core 0).heldPush = [] ∧ (ended.core 0).ending = (0x1000, none) :: [] ∧ ended.endHeld 0 0x1000 none = false) ∧ (base.core 0).ending = []
       ∧ own.isHeld 0x1000 48 = false ∧ own.isHeld (own.ringSlot 0) 8 = false ∧ (own.readWord 0x1020).getLsbD 38 = false
       ∧ asked.isHeld (scratchAddr 1 0x1000) 48 = false ∧ asked.isHeld (asked.ringSlot 1) 8 = false
       ∧ (own.core 0).heldPush = (0x1000, none) :: [] ∧ (own.core 0).ringCount < 256 ∧ 256 ≤ (full.core 0).ringCount ∧ (base.core 0).heldPush = []
       ∧ (asked.core 1).heldPush = (0x1000, some m) :: [] ∧ bf (asked.readWord (scratchAddr 1 0x1020)) 34 32 = 1 ∧ m.dst = 1 ∧ m.src < 32768
       ∧ m.post = none ∧ asked.CanonicalMemory) := by decide +kernel

/-- A READY descriptor at the ring's head, a ready codelet, and key records of a slice. -/
theorem witness_DispatcherAndKeys :
    (let s := holding (holding (parted.modCore 0 (fun x => { x with ringCount := 1 })) 0x7B800 0x8000000000001000#64) 0x1020 0x200000000#64
     s.CanonicalMemory ∧ isCompute 0 = true ∧ (s.core 0).halted = false ∧ (s.core 0).staging.length < 8 ∧ (s.core 0).amq = []
     ∧ 0 < (s.core 0).ringCount ∧ s.readWord 0x7B800 = BitVec.ofNat 64 (2 ^ 63 + 0x1000) ∧ bf ((s.readWords 0x1000 6).getD 4 0) 34 32 = 2
     ∧ s.descriptorOk 0 (s.readWords 0x1000 6) = true ∧ s.isHeld 0x7B800 8 = false ∧ s.isHeld 0x1000 48 = false)
    ∧ (let z : Stage := ⟨0, 0x1000, 0x2000000000000000#64, 7, none, [], 0, false, none, 0, 0, some 1⟩
       let s := parted.modCore 0 (fun x => { x with staging := [z] })
       (s.core 0).amClaim = none ∧ oldestReady (s.core 0).staging = some z ∧ (s.core 0).codeletWaits = true ∧ s.claimInBudget 0 z.rcb = true
       ∧ (s.slot 0 1).isFree (s.core 0).cycle = true ∧ (s.slot 0 1).nextGen.isSome = true ∧ (s.slot 0 0).isFree (s.core 0).cycle = false
       ∧ (s.core 0).amq = [] ∧ z.keyed = none ∧ z.desc = 0x1000 ∧ (s.core 0).granted ≠ some (s.core 0).cycle ∧ s.isHeld (scratchAddr 0 0x1000) 48 = false
       ∧ ((s.modCore 0 (fun x => { x with granted := some x.cycle })).core 0).granted = some (s.core 0).cycle) := by decide +kernel

theorem witness_DispatcherAndKeys_2 :
    (let mc := keySlice 0 5
       let m := fun (b : Body) => { packet 0 mc b with part := some 0 }
       let held := fun (w : List (Nat × Nat)) => partIs (fun p => { p with keys := [⟨0, 5, w⟩] })
       let here := fun (r : KeyRec) => r.ns == 0 && r.key == 5
       Arrives parted (m (.keyRequest 0 5 0)) ∧ (parted.part 0).keys.any here = false ∧ (parted.sliceKeys mc).length < 4096
       ∧ Arrives (held []) (m (.keyRequest 0 5 0)) ∧ ((held []).part 0).keys.any here = true
       ∧ Arrives (held []) (m (.keyRelease 0 5)) ∧ ((held []).part 0).keys.find? here = some ⟨0, 5, []⟩
       ∧ Arrives (held [(1, 2)]) (m (.keyRelease 0 5)) ∧ ((held [(1, 2)]).part 0).keys.find? here = some ⟨0, 5, [(1, 2)]⟩)
    ∧ (let z : Stage := ⟨0, 0x1000, 0x2000000000000000#64, 7, none, [5], 0, false, some 256, 0, 0, none⟩
       let s := parted.modCore 0 (fun x => { x with staging := [z] })
       Arrives s { packet (keySlice 0 5) 0 (.keyGrant 0) with part := some 0 } ∧ (s.core 0).staging.find? (fun z => z.id == 0) = some z
       ∧ (s.core 0).staging[0]? = some z ∧ z.retryAt = some 256 ∧ z.keys.drop z.granted = 5 :: [] ∧ s.fc < 256) := by decide +kernel

/-- Queue 0 of a partition closed, empty, full and with one entry; a chunk counter with work left; a QPOPW that times out. -/
theorem witness_QueuesKeepTheirOrder :
    (parted.Ready (scalars [3, 4, 5]) ∧ parted.CheckerOff 0 0 ∧ parted.cur.posted = [] ∧ (3 : Reg) ≠ 0)
    ∧ (let w := Wait.qpopw 3 (some 9) 0 24576 false none ⟨4, [3, 4, 5], 0⟩
       let s := slotIs (fun t => { t with st := .blocked, wait := w })
       (s.slot 0 0).st = .blocked ∧ (s.slot 0 0).wait = w ∧ (s.core 0).cycle < 9)
    ∧ (let m := fun (op : Nat) => { packet 0 (queueCore 0) (.queue op 0 7) with part := some 0 }
       let q := fun (cap : Nat) (e : List Word) => partIs (fun p => { p with queues := [(0, ⟨cap, e, []⟩)], chunks := [(0, ⟨3, 100, 1, 4⟩)] })
       (∀ op ∈ [4, 5, 6, 7, 8], Arrives (q 2 [1]) (m op)) ∧ Arrives parted (m 4)
       ∧ ((parted.part 0).queues.getD 0 HwQueue.reset).capacity = 0
       ∧ (((q 1 [1]).part 0).queues.getD 0 HwQueue.reset).capacity ≤ (((q 1 [1]).part 0).queues.getD 0 HwQueue.reset).entries.length
       ∧ (((q 2 [1]).part 0).queues.getD 0 HwQueue.reset).entries.length < (((q 2 [1]).part 0).queues.getD 0 HwQueue.reset).capacity
       ∧ (((q 2 []).part 0).queues.getD 0 HwQueue.reset).entries = [] ∧ (q 2 []).carafeWaiters (queueCore 0) < 1024
       ∧ (((q 2 []).part 0).chunks.getD 0 Chunk.reset).end_ - (((q 2 []).part 0).chunks.getD 0 Chunk.reset).next ≠ 0
       ∧ ((parted.part 0).chunks.getD 0 Chunk.reset).end_ - ((parted.part 0).chunks.getD 0 Chunk.reset).next = 0) := by decide +kernel

/-- A full core with one strand parked for 256 cycles; a spill, a fill and a yield before and after their time; a slot that owes a generation;
an idle bank, a bank that powers up, and a running thread. -/
theorem witness_SlotsBanksAndParity :
    (let z : Stage := ⟨0, 0x1000, 0x2000000000000000#64, 7, none, [], 0, false, none, 0, 0, some 1⟩
     let s := (coreIs (fun x => { x with lend := true, cycle := 256, staging := [z], slots := x.slots.map (fun t => { t with st := .run }) })).modSlot 0 2
       (fun t => { t with st := .parked, park := some ⟨0x10, 1, 0⟩ })
     (s.core 0).lend = true ∧ (s.core 0).halted = false ∧ (s.core 0).codeletWaits = true ∧ (s.core 0).anyFree (userSlots 0) (s.core 0).cycle = false ∧ s.claimHeld 0 (.codelet z) = false
     ∧ oldestReady (s.core 0).staging = some z ∧ s.claimInBudget 0 z.rcb = true ∧ (s.core 0).reservedSlot = none ∧ (s.core 0).lendable = some 2
     ∧ ((s.core 0).slot 2).park = some ⟨0x10, 1, 0⟩)
    ∧ (let o : Spilled := ⟨1, true, some ⟨0x10, 1, 0⟩, Origin.none, [], 0⟩
       let s := slotIs (fun t => { t with st := .spill, wait := .yield_ 40, spilled := some o })
       let f := slotIs (fun t => { t with st := .fill, wait := .yield_ 40, spilled := some o })
       let y := slotIs (fun t => { t with st := .blocked, wait := .yield_ 40 })
       let later := fun (s : State) => s.modCore 0 (fun x => { x with cycle := 40 })
       (s.slot 0 0).st = .spill ∧ (s.slot 0 0).wait = .yield_ 40 ∧ (s.slot 0 0).spilled = some o ∧ isCore 0 = true ∧ s.CanonicalMemory
       ∧ (s.core 0).cycle < 40 ∧ 40 ≤ ((later s).core 0).cycle ∧ oldestReady ((later s).core 0).staging = none
       ∧ (f.slot 0 0).st = .fill ∧ (f.slot 0 0).wait = .yield_ 40 ∧ (f.slot 0 0).spilled = some o
       ∧ (y.slot 0 0).st = .blocked ∧ (y.slot 0 0).wait = .yield_ 40)
    ∧ (let s := slotIs (fun t => { t with st := .contained, owes := true })
       (s.slot 0 0).owes = true ∧ (s.slot 0 0).st = .contained ∧ (s.slot 0 0).nextGen.isSome = true)
    ∧ (let s := { State.reset with bulkheads := [(0, { Bulkhead.reset with bankpd := true })] }
       let old := s.modCore 0 (fun x => { x with cycle := 4096 })
       let off := s.modCore 0 (fun x => { x with banks := [(3, { Bank.reset with powered := false, upAt := some 256 })] })
       isCompute 0 = true ∧ (s.bulkhead (bulkheadOf 0)).bankpd = true ∧ ((s.core 0).banks.getD 3 Bank.reset).powered = true ∧ s.bankInUse 0 3 = false
       ∧ ((s.core 0).banks.getD 3 Bank.reset).pinned = false ∧ (s.core 0).cycle < ((s.core 0).banks.getD 3 Bank.reset).lastUse + 4096
       ∧ ((old.core 0).banks.getD 3 Bank.reset).lastUse + 4096 ≤ (old.core 0).cycle ∧ old.bankInUse 0 3 = false
       ∧ ((off.core 0).banks.getD 3 Bank.reset).powered = false ∧ ((off.core 0).banks.getD 3 Bank.reset).upAt = some 256 ∧ (off.core 0).cycle < 256
       ∧ (base.slot 0 0).st = .run) := by decide +kernel

/-- A state with doublewords from an address. -/
def filled (s : State) (a : Nat) (ws : List Word) : State := s.writeWords a ws

theorem witness_NoWindow : ∀ q ∈ base.engine, ∀ due, q.2.phase ≠ .window due := by
  have h : base.engine = [] := by decide +kernel
  intro q hq
  rw [h] at hq
  cases hq

/-- Descriptors of CPY, CPYG, CPYS and PUSHT, a PUBLISH, and futures: pending, a status, a token that is stale, finished or running. -/
theorem witness_EngineCommandsAndFutures :
    let mem := fun (s : State) (z : Word) => match s.gaTarget 0 (s.partOf 0 0) (s.cur.segGa z) 1 with | .mem _ _ => false | _ => true
     let ok := fun (form first bytes : Nat) (ws : List Word) =>
    let s := filled (slotIs (fun t => { t with p := t.p.set 6 0x2000000000000200#64 })) 0x200 ws
    let q := copyDesc form (s.readWords 0x200 (bytes / 8))
    s.Ready (scalars [3, 6]) ∧ s.CheckerOff 0 0 ∧ (s.core 0).freeEntry = some 0 ∧ (s.cluster 0).faults = [] ∧ s.engine = []
    ∧ passes (s.checkOwn 0 0 (s.reg 6) 8 first [rightR] 0x21) 0x200 ∧ passes (s.checkOwn 0 0 (s.reg 6) 8 bytes [rightR] 0x21) 0x200
    ∧ s.isHeld 0x200 first = false ∧ s.isHeld 0x200 bytes = false ∧ copyFormatOk form (s.readWords 0x200 (bytes / 8)) = true
    ∧ q.sbuf = false ∧ q.dbuf = false ∧ s.firstRangeFault q.ranges = none ∧ s.copyPlaceFault q = none ∧ q.ranges.all (fun z => mem s z.1) = true
     let plain := [0x2000000000000300#64, 0x4000000000000400#64, 8#64, 0#64]
     ok 0 32 32 plain ∧ ok 1 48 48 (plain ++ [2, BitVec.ofNat 64 (8 + 8 * 2 ^ 32)]) ∧ ok 2 40 48 (plain ++ [1, 0]) := by decide +kernel

theorem witness_EngineCommandsAndFutures_2 :
    let s := filled (slotIs (fun t => { t with p := t.p.set 6 0x2000000000000200#64 })) 0x200
      [0x2000000000000300#64, 8#64, 0x400#64, BitVec.ofNat 64 (2 ^ 10 + 2 ^ 15 + 2 ^ 20)]
    let ws := s.readWords 0x200 4
    passes (s.checkOwn 0 0 (s.reg 6) 8 32 [rightR] 0x21) 0x200 ∧ s.isHeld 0x200 32 = false ∧ pushFormatOk ws = true
    ∧ passes (s.engineRange (ws.getD 0 0) 8 rightR) (.self 0x300) ∧ bf (ws.getD 1 0) 31 0 = 8 ∧ s.pushFault (s.partOf 0 0) ws = none
    ∧ 0x300 + 8 ≤ scratchSize 0 ∧ s.Ready (scalars [3, 6]) := by decide +kernel

theorem witness_EngineCommandsAndFutures_3 :
    base.Ready (scalars [4, 3, 4]) ∧ (base.reg 4).toNat % 2 ^ 32 ≠ 0 ∧ passes (base.engineRange (base.reg 3) 64 rightW) (.mem 1 0x4000)
    ∧ (base.cur.segGa (base.reg 3)).toNat / 2 ^ 60 = 1 ∧ (base.cur.segGa (base.reg 3)).toNat % 256 = 0
    ∧ base.scanGranules 0 0 (base.granules (base.partOf 0 0) 0 (base.cur.segGa (base.reg 3)) 64 4) [] = .pages [(2, 0)] := by decide +kernel

/-- A member of a command: the thread, with its completion entry 0. -/
def member : Member := ⟨0, 0, 0, 0, 0, 0, none, 0, 0, [], [], false, false⟩

/-- A command of one member in each of its phases, of one stretch. -/
def command (kind : Nat) (phase : Phase) (src dst : Place) (len : Nat) : EngCmd :=
  { kind := kind, phase := phase, members := [{ member with stretches := [⟨src, dst, .at_ 0, len⟩] }],
    desc := [0, 0, 0, BitVec.ofNat 64 len], sbuf := false, dbuf := false, header := .at_ (2 ^ 48 + 0x4000), front := 0, units := 0, nomerge := false,
    pairsTable := [], seqBase := none, flags := 0, code := 0, codes := [], level := 0, hga := 0, buf := none, granted := false, work := [], peer := none, inbound := none }

def running (cmd : EngCmd) : State := { base with engine := [(5, cmd)], nextCmd := 6 }

/-- One command of a press queue, of completion entry 7. -/
def pressCmd (fn fmt tile : Nat) : PressCmd := ⟨fn, fmt, tile, 0x1000, false, 0x2000, false, 32, 32, true, 0, 7, 0, 0, 0, 0, 0, 0x0FFFFFFE00001000#64, 0x0FFFFFFE00002000#64⟩

theorem witness_EngineCommandsAndFutures_4 :
    let token := fun (tag : Nat) => BitVec.ofNat 64 (2 ^ 62 + 0xFFF * 2 ^ 50 + tag * 2 ^ 16 + 7)
    let at_ := fun (q : Completion) (v : Word) => (slotIs (fun t => { t with p := t.p.set 6 v })).modCore 0 (fun x => { x with comp := [(7, q)] })
    let pend := (at_ ⟨1, .attached 0 0 6⟩ (BitVec.ofNat 64 (3 * 2 ^ 62 + 2 ^ 40 + 7))).modSlot 0 0 (fun t => { t with pendP := 64 })
    let good := fun (s : State) => s.anyPending (scalars [6]) = false ∧ bf (s.reg 6) 63 62 = 1 ∧ s.reg 6 ≠ 0x4000000000000000#64
      ∧ s.isOwnPkg (bf (s.reg 6) 61 50) = true ∧ bf (s.reg 6) 46 32 = s.virtual (s.partOf 0 0) 0
    let pressed := pend.modCore 0 (fun x => { x with press := { x.press with queue := [pressCmd 2 0 1] } })
    (pressed.core 0).press.queue.any (fun p => p.entry == 7) = true ∧ (pend.core 0).press.queue.any (fun p => p.entry == 7) = false
    ∧ pend.commandOf 0 7 = none ∧ (6 : Reg).toNat < 16
    ∧ (let m : Member := { member with entry := 7 }
       let with_ := fun (kind : Nat) (ph : Phase) => { pend with engine := [(5, { command kind ph (.at_ 0x300) (.virt 1 0x400) 8 with members := [m] })] }
       (match (with_ 0 (.window 16)).commandOf 0 7 with
        | some (id, cmd) => decide (id = 5 ∧ cmd.kind ≠ 5 ∧ cmd.phase ≠ .complete) && cmd.member 0 7 == some m
        | none => false) = true
       ∧ (match (with_ 0 .complete).commandOf 0 7 with | some (_, cmd) => decide (cmd.phase = .complete) | none => false) = true)
    ∧ pend.anyPending (scalars [6]) = true ∧ (3 : Reg) ≠ 6 ∧ pend.attachedEntry 6 = some ((pend.reg 6).toNat % 64) ∧ pend.Ready (scalars [3])
    ∧ (base.reg 4).toNat < 2 ^ 14 ∧ base.anyPending (scalars [4]) = false ∧ ¬ (bf (base.reg 5) 63 62 = 1) ∧ 2 ^ 14 ≤ (base.reg 5).toNat
    ∧ good (at_ ⟨2, .running⟩ (token 1)) ∧ (((at_ ⟨2, .running⟩ (token 1)).core 0).entryAt 7).tag.toNat ≠ bf (token 1) 31 16
    ∧ good (at_ ⟨1, .finished 9⟩ (token 1)) ∧ (((at_ ⟨1, .finished 9⟩ (token 1)).core 0).entryAt 7) = ⟨1, .finished 9⟩
    ∧ good (at_ ⟨1, .running⟩ (token 1)) ∧ (((at_ ⟨1, .running⟩ (token 1)).core 0).entryAt 7) = ⟨1, .running⟩
    ∧ bf (token 1) 31 16 = 1 ∧ (base.core 0).waiters.length < 64 := by decide +kernel

theorem witness_EngineCommandsMoveAndComplete :
    let here := Place.at_ 0x300
    let other := Place.virt 1 0x400
    let hbm := Place.at_ (2 ^ 49 + 0x10000)
    let live := fun (cmd : EngCmd) => (running cmd).engine.find 5 = some cmd ∧ cmd.live.length = 1
    let w := command 0 (.window 16) here other 8
    let m := command 0 (.window 16) here hbm 8
    let later := fun (s : State) => s.modCore 0 (fun x => { x with cycle := 16 })
    live w ∧ live m ∧ (running w).CanonicalMemory ∧ w.kind ≠ 4 ∧ ((running w).core 0).cycle < 16 ∧ 16 ≤ ((later (running w)).core 0).cycle
    ∧ (later (running w)).mapped w = true ∧ (later (running w)).commandCores w = 1 :: [] ∧ (later (running w)).answers none 0 1 = true
    ∧ (later (running m)).mapped m = true ∧ (later (running m)).commandCores m = [] := by decide +kernel

/-- The access of a command is in service at the channel of its header, and over. -/
def servedAt (s : State) (pa : Nat) : State :=
  s.modChannel (homeOf pa) (fun h => { h with banks := [(hbmBank pa, { HbmBank.reset with serving := some (⟨0, pa, .engine 5⟩, 0) })] })

theorem witness_EngineCommandsMoveAndComplete_2 :
    let pa := 2 ^ 48 + 0x4000
    let publish := { command 1 .header (.at_ 0) (.at_ 0) 0 with desc := [0, 0] }
    let flip := command 1 (.publishing 3) (.at_ 0) (.at_ 0) 0
    let two := { (running flip) with engine := [(5, flip), (4, { flip with phase := .publishing 2 })] }
    let ok := fun (s : State) (cmd : EngCmd) => s.engine.find 5 = some cmd ∧ cmd.live.length = 1 ∧ cmd.header = .at_ pa ∧ s.answers none 0 (homeOf pa) = true
      ∧ (∀ i, i < 24 → s.rowRetired (pa + i) = false) ∧ s.headerHeld cmd pa = false ∧ s.CanonicalMemory
    let served := fun (s : State) => ((s.channel (homeOf pa)).bank (hbmBank pa)).serving = some (⟨0, pa, .engine 5⟩, 0) ∧ 0 ≤ (s.core (homeOf pa)).cycle
    (ok (running publish) publish ∧ addrClass pa = 1 ∧ (((running publish).channel (homeOf pa)).bank (hbmBank pa)).serving = none
    ∧ ((running publish).channel (homeOf pa)).waiting.contains ⟨0, pa, .engine 5⟩ = false)
    ∧ (ok (servedAt (running publish) pa) publish ∧ served (servedAt (running publish) pa) ∧ publish.desc.getD 0 0 = 0)
    ∧ bf ((running publish).readWord (pa + 16)) 47 0 = 0 ∧ ({ publish with desc := [1, 9] }).desc.getD 0 0 ≠ 0
    ∧ bf ((running flip).readWord (pa + 16)) 47 32 = 0 ∧ bf ((holding (running flip) (pa + 16) 0x100000000#64).readWord (pa + 16)) 47 32 ≠ 0
    ∧ (running flip).publishWaits pa 3 = false ∧ two.publishWaits pa 3 = true ∧ served (servedAt (running flip) pa) := by decide +kernel

theorem witness_EngineCommandsMoveAndComplete_7 :
    let pa := 2 ^ 48 + 0x4000
    let copy := { command 0 .header (.at_ 0x300) (.at_ (2 ^ 49 + 0x10000)) 8 with sbuf := true, units := 4 }
    let sized := holding (servedAt (running copy) pa) (pa + 8) 1024
    let ok := fun (s : State) (cmd : EngCmd) => s.engine.find 5 = some cmd ∧ cmd.live.length = 1 ∧ cmd.header = .at_ pa ∧ s.answers none 0 (homeOf pa) = true
      ∧ (∀ i, i < 24 → s.rowRetired (pa + i) = false) ∧ s.headerHeld cmd pa = false ∧ s.CanonicalMemory
    let served := fun (s : State) => ((s.channel (homeOf pa)).bank (hbmBank pa)).serving = some (⟨0, pa, .engine 5⟩, 0) ∧ 0 ≤ (s.core (homeOf pa)).cycle
    (ok (servedAt (running copy) pa) copy ∧ served (servedAt (running copy) pa) ∧ copy.kind ≠ 1
      ∧ ((servedAt (running copy) pa).readWord (pa + 8)).toNat % 2 ^ 40 ≠ 256 * copy.units)
    ∧ (ok sized copy ∧ served sized ∧ (sized.readWord (pa + 8)).toNat % 2 ^ 40 = 256 * copy.units ∧ sized.commandCores copy = []) := by decide +kernel

theorem witness_EngineCommandsMoveAndComplete_3 :
    let g := command 0 (.grant [1]) (.at_ 0x300) (.virt 1 0x400) 8
    let asks := fun (o : SbOwner) => (running g).modCore 1 (fun x => { x with sbWait := [⟨0, 0x400, 0x408, o⟩] })
    let busy := (asks (.engine 5)).modCore 1 (fun x => { x with sb := [⟨1, 0x404, 0x40C, .press⟩] })
    let mid := flying (asks .press) { packet 0 1 (.storing (scratchAddr 1 0x408) 8 7 (scratchAddr 1 0x400)) with post := some 0 }
    let still := { asks .press with bulkheads := [(0, { Bulkhead.reset with stopped := true })] }
    ((asks (.engine 5)).core 1).sbWait = ⟨0, 0x400, 0x408, .engine 5⟩ :: [] ∧ ((asks (.engine 5)).core 1).canGrant 0x400 0x408 = true
    ∧ ((asks .press).core 1).canGrant 0x400 0x408 = true ∧ (busy.core 1).canGrant 0x400 0x408 = false ∧ (asks (.engine 5)).mapped g = true
    ∧ (asks .press).midAccess 1 0x400 0x408 = false ∧ mid.midAccess 1 0x400 0x408 = true ∧ (asks .press).isStopped 1 = false
    ∧ still.isStopped 1 = true := by decide +kernel

theorem witness_EngineCommandsMoveAndComplete_4 :
    let v := command 0 (.moving 0) (.at_ 0x300) (.at_ (2 ^ 33 + 0x400)) 16
    let u := command 0 (.moving 0) (.at_ (2 ^ 48 + 0x4000)) (.at_ (2 ^ 33 + 0x400)) 16
    let s := running v
    let own := fun (o : SbOwner) => o == SbOwner.engine 5
    s.answers none 0 (homeOf 0x300) = true ∧ s.answers none 0 (homeOf (2 ^ 33 + 0x400)) = true ∧ s.isStopped (homeOf 0x300) = false
    ∧ s.isStopped (homeOf (2 ^ 33 + 0x400)) = false ∧ s.pieceHeld own 0x300 8 = false
    ∧ s.pieceHeld own (2 ^ 33 + 0x400) 8 = false ∧ s.isPoisoned 0x300 8 = false ∧ s.rowRetired (2 ^ 33 + 0x400) = false
    ∧ addrClass 0x300 ≠ 1 ∧ addrClass (2 ^ 33 + 0x400) ≠ 1 ∧ ({ v with phase := .moving 16 }.piece 16).isNone = true ∧ (v.piece 8).isNone = false
    ∧ addrClass (2 ^ 48 + 0x4000) = 1 ∧ (running u).answers none 0 (homeOf (2 ^ 48 + 0x4000)) = true ∧ (running u).isPoisoned (2 ^ 48 + 0x4000) 8 = false
    ∧ (((running u).channel (homeOf (2 ^ 48 + 0x4000))).bank (hbmBank (2 ^ 48 + 0x4000))).serving = none
    ∧ (running u).isStopped (homeOf (2 ^ 48 + 0x4000)) = false ∧ (running u).pieceHeld own (2 ^ 48 + 0x4000) 8 = false := by decide +kernel

theorem witness_EngineCommandsMoveAndComplete_5 :
    let v := command 0 .complete (.at_ 0x300) (.at_ (2 ^ 33 + 0x400)) 16
    let s := (running v).modCore 0 (fun x => { x with comp := [(0, ⟨1, .attached 0 0 3⟩)] })
    s.engine.find 5 = some v ∧ (v.live.length = 1) ∧ ((s.core 0).entryAt 0).st = .attached 0 0 3 ∧ (s.slot 0 0).accepts 0 = true := by decide +kernel

theorem witness_EngineCommandsMoveAndComplete_6 :
    let at_ := fun (q : Completion) => base.modCore 1 (fun x => { x with comp := [(7, q)] })
    let m := fun (op : Nat) => packet 0 1 (.query op 1 7)
    Arrives (at_ ⟨2, .running⟩) (m 4) ∧ (((at_ ⟨2, .running⟩).core 1).entryAt 7).tag.toNat ≠ 1
    ∧ Arrives (at_ ⟨1, .running⟩) (m 5) ∧ (((at_ ⟨1, .running⟩).core 1).entryAt 7) = ⟨1, .running⟩ ∧ ((at_ ⟨1, .running⟩).core 1).waiters.length < 64
    ∧ Arrives (at_ ⟨1, .finished 9⟩) (m 6) ∧ (((at_ ⟨1, .finished 9⟩).core 1).entryAt 7) = ⟨1, .finished 9⟩ := by decide +kernel

theorem witness_Piece :
    let m := { member with stretches := [⟨.at_ 0x300, .at_ (2 ^ 33 + 0x400), .at_ 0, 16⟩] }
    (command 0 (.moving 0) (.at_ 0x300) (.at_ (2 ^ 33 + 0x400)) 16).piece 0 = some (.at_ 0x300, 8, [⟨m, .at_ (2 ^ 33 + 0x400), 0, 8⟩]) := by
  decide +kernel

theorem witness_PressQueueAndExecution :
    let s := slotIs (fun t => { t with p := (t.p.set 6 0x2000000000001000#64).set 7 0x2000000000004000#64 })
     let out := slotIs (fun t => { t with geom := 1 })
     s.CheckerOff 0 0 ∧ (s.core 0).press.queue.length < 8 ∧ (s.core 0).freeEntry = some 0 ∧ s.Ready (scalars [6, 7]) ∧ s.Ready (scalars [3])
     ∧ (∀ f, f < 7 → passes (s.operand f (s.reg 6) 0 32) 0x1000 ∧ passes (s.operand f (s.reg 7) 0 32) 0x4000)
     ∧ (groupPlace s.cur.geom (s.virtual (s.partOf 0 0) 0)).1 = true ∧ (groupPlace out.cur.geom (out.virtual (out.partOf 0 0) 0)).1 = false
     ∧ (groupPlace s.cur.geom (s.virtual (s.partOf 0 0) 0)).2 = (32, 32, 0, 0) ∧ operandFormatOk 5 (s.reg 6) = true
     ∧ (s.reg 6).toNat % 64 = 0 ∧ s.Ready (scalars [3, 6]) ∧ passes (s.pressRange (s.reg 6) 4096) 0x1000
     ∧ passes (s.pressRange (s.reg 6) (outBytes (bf ((s.core 0).press.bank0.getD 0 0) 3 0))) 0x1000 := by decide +kernel

theorem witness_PressQueueAndExecution_2 :
    let s := filled (slotIs (fun t => { t with p := t.p.set 6 0x2000000000001000#64 })) 0x1000 identityEpilogue
    s.Ready (scalars [6]) ∧ passes (s.checkOwn 0 0 (s.reg 6) 32 160 [rightR] 0x21) 0x1000 ∧ s.isHeld 0x1000 160 = false ∧ s.bankBusy 0 1 = false
    ∧ epilogueOk (s.readWords 0x1000 20) = true := by decide +kernel

theorem witness_PressQueueAndExecution_3 :
    let queue := fun (p : PressCmd) => coreIs (fun x => { x with press := { x.press with queue := [p] } })
    let p := pressCmd 0 5 1
    let read := fun (op : Nat) (base next : Nat) (bytes : List Byte) =>
      (⟨0, 7, op, if op = 0 then p.aGa else p.bGa, 5, false, 32, base, 0, next, bytes, false, true, false⟩ : TileFetch)
    let with_ := fun (fs : List TileFetch) => (queue p).modCluster 0 (fun u => { u with fetches := fs })
    let other := { read 0 0x1000 0 [] with pos := 1, began := 9 }
    let f0 : TileFetch := ⟨0, 7, 0, p.aGa, 5, false, 32, 0x1000, (queue p).tick, 0, [], false, true, false⟩
    ((queue p).core 0).press.queue = p :: [] ∧ p.fn ≠ 4 ∧ (queue p).pressRuns 0 = true
    ∧ (0, p.aGa, false, 32, 0x1000) ∈ p.operands ∧ ((queue p).modCore 0 (fun x => { x with halted := true })).pressRuns 0 = false
    ∧ ((queue p).cluster 0).fetchOf (posOf 0) p 0 = none ∧ ((queue p).cluster 0).fetches.any (fun h => h.serves f0 ((queue p).pressAcquire 0 p)) = false
    ∧ ((with_ [other]).cluster 0).fetchOf (posOf 0) p 0 = none
    ∧ ((with_ [other]).cluster 0).fetches.any (fun h => h.serves f0 ((with_ [other]).pressAcquire 0 p)) = true
    ∧ ((with_ [read 0 0x1000 1 []]).cluster 0).fetchOf (posOf 0) p 0 = some (read 0 0x1000 1 [])
    ∧ (fetchPieces 5 false 32)[1]? = some (8, 8) ∧ (with_ []).isHeld (0x1000 + 8) 8 = false
    ∧ ((with_ []).modCore 0 (fun x => { x with sb := [⟨0, 0x1008, 0x1010, .press⟩] })).isHeld (0x1000 + 8) 8 = true := by decide +kernel

theorem witness_PressQueueAndExecution_5 :
    let queue := fun (p : PressCmd) => coreIs (fun x => { x with press := { x.press with queue := [p] } })
    let p := pressCmd 0 5 1
    let full := fun (op : Nat) =>
      (⟨0, 7, op, if op = 0 then p.aGa else p.bGa, 5, false, 32, 0x1000 * (op + 1), 0, 256, List.replicate 2048 1, false, true, false⟩ : TileFetch)
    let s := (queue p).modCluster 0 (fun u => { u with fetches := [full 0, full 1] })
    (queue (pressCmd 2 0 1)).pressReady (clusterCore 0 0) = true ∧ ((queue p).cluster 0).arbCount < bf ((queue p).core (clusterCore 0 0)).pxw 3 0
    ∧ (queue (pressCmd 2 0 1)).arbitrate 0 = some (0, 1) ∧ clusterCore 0 0 = 0 ∧ ((queue p).cluster 0).running = none
    ∧ s.arbitrate 0 = some (0, 1) ∧ p.fmt = 5 ∧ p.inside = true ∧ (s.core 0).press.marks.getLsbD 1 = false ∧ p.tile < 4 ∧ (s.cluster 0).running = none
    ∧ (s.cluster 0).fetchOf (posOf 0) p 0 = some (full 0) ∧ (s.cluster 0).fetchOf (posOf 0) p 1 = some (full 1) := by decide +kernel

theorem witness_PressQueueAndExecution_4 :
    let r : PressRun := ⟨0, pressCmd 2 0 1, none, 0⟩
    let s := (coreIs (fun x => { x with comp := [(7, ⟨1, .attached 0 0 3⟩)] })).modCluster 0 (fun u => { u with running := some r })
    (s.cluster 0).running = some r ∧ r.span = none ∧ s.clockRuns 0 = true ∧ ((s.core (clusterCore 0 r.pos)).entryAt r.cmd.entry).st = .attached 0 0 3 ∧ (s.slot (clusterCore 0 r.pos) 0).accepts 0 = true := by decide +kernel

/-- FITSET, FITGET of another core, POPRANK over two members, and LINRD without and with records. -/
theorem witness_FitnessRankingAndBlends :
    let rank := [BitVec.ofNat 64 (1 * 2 ^ 16), 0#64, 0#64, 0x2000000000000400#64, 3#64, 0#64, 0#64, 0#64]
    let s := filled (parted.modSlot 0 0 (fun t => { t with p := (t.p.set 6 0x2000000000000200#64).set 7 16#64 })) 0x200 rank
    let ws := s.readWords 0x200 8
    s.CheckerOff 0 0 ∧ s.CanonicalMemory ∧ s.Ready (scalars [3, 6]) ∧ passes (s.targetWord (s.reg 7)) (1, none) ∧ (7 : Reg) ≠ 0
    ∧ passes (s.checkOwn 0 0 (s.reg 6) 8 64 [rightR] 0x21) 0x200 ∧ s.isHeld 0x200 64 = false
    ∧ s.membersOf (s.partOf 0 0) s.cur.rcbptr (ws.drop 4) = [0, 1] ∧ rankFormatOk ws 2 = true
    ∧ passes (s.checkOwn 0 0 (ws.getD 3 0) 8 (8 * bf (ws.getD 0 0) 27 16) [rightW] 0x22) 0x400 ∧ s.coreAbsent (cuppingCore (dieOf 0)) = false
    ∧ passes (s.coreTarget 1) (1, none) ∧ Arrives base (packet 0 1 (.fitRead none)) := by decide +kernel

theorem witness_FitnessRankingAndBlends_2 :
    let lin := partIs (fun p => { p with linbase := 0x100000#64, linsize := 10, linhead := 2, ptroot1 := 0 })
    base.Ready (scalars [3, 1, 4]) ∧ passes (base.checkOwn 0 0 (base.reg 1) 32 2048 [rightW] 0x22) 0x100 ∧ base.partOf 0 0 = none
    ∧ parted.partOf 0 0 = some 0 ∧ (parted.part 0).linRecords = 0 ∧ passes (parted.checkOwn 0 0 (parted.reg 1) 32 2048 [rightW] 0x22) 0x100
    ∧ (lin.part 0).linRecords ≠ 0 ∧ ((lin.reg 4).toNat % 2 ^ 48 = 5 ∧ (lin.part 0).linhead.toNat % 2 ^ 48 = 2) ∧ 2 ≤ 5 + 0
    ∧ (lin.slot 0 0).st = .run := by decide +kernel

/-- A BLEND of one pair from core 1 to core 2 of the partition, and its pair. -/
def blendWords : List Word :=
  [BitVec.ofNat 64 (1 + 12 * 2 ^ 12), 0x2000000000000400#64, BitVec.ofNat 64 (0x1000 + 0x2000 * 2 ^ 32), 4#64, 0#64, 0#64, 0#64, 0#64]

def blendTable : Word := BitVec.ofNat 64 (2 + 1 * 2 ^ 16)

theorem witness_FitnessRankingAndBlends_3 :
    let s := holding (filled (parted.modSlot 0 0 (fun t => { t with p := t.p.set 6 0x2000000000000200#64 })) 0x200 blendWords) 0x400 blendTable
    let ws := s.readWords 0x200 8
    s.Ready (scalars [3, 6]) ∧ s.CheckerOff 0 0 ∧ passes (s.checkOwn 0 0 (s.reg 6) 8 64 [rightR] 0x21) 0x200 ∧ s.isHeld 0x200 64 = false
    ∧ bf (ws.getD 0 0) 11 0 = 1 ∧ passes (s.checkOwn 0 0 (ws.getD 1 0) 8 (8 * 1) [rightR] 0x21) 0x400 ∧ blendFormatOk ws false = true
    ∧ s.isHeld 0x400 8 = false ∧ blendLog ws = false ∧ s.pairsFault (s.partOf 0 0) ws (s.readWords 0x400 1) false s.cur.level = none
    ∧ (s.core 0).freeEntry = some 0 := by decide +kernel

/-- A BLENDX whose target package, 1, is a peer. -/
theorem witness_FitnessRankingAndBlends_4 :
    let ws := (BitVec.ofNat 64 (1 + 12 * 2 ^ 12 + 1 * 2 ^ 48)) :: blendWords.tail
    let s := { parted with pkg := { parted.pkg with groups := [(1, 0x8000000000000000#64)] } }
    blendFormatOk ws true = true ∧ s.isOwnPkg (blendDpkg ws) = false ∧ s.isPeer (blendDpkg ws) = true
    ∧ s.pairsFault (s.partOf 0 0) ws [blendTable] true s.cur.level = none := by decide +kernel

/-- Its pair not begun, and between two pieces. -/
theorem witness_FitnessRankingAndBlends_5 :
    let m := { member with part := some 0 }
    let cmd := { command 4 (.pairs [0]) (.at_ 0) (.at_ 0) 0 with desc := blendWords, pairsTable := [blendTable], members := [m] }
    let begun := { cmd with work := [⟨0, some 8, [], [], 0⟩] }
    let st := fun (c : EngCmd) => { parted with engine := [(5, c)] }
    let s := st cmd
    let busy := (st begun).modCore 1 (fun x => { x with sb := [⟨0, 0x1000, 0x1010, .press⟩] })
    let w := cmd.pairsTable.getD 0 0
    let own := fun (o : SbOwner) => o == SbOwner.pair 5 0
    s.engine.find 5 = some cmd ∧ s.CanonicalMemory ∧ cmd.live = m :: [] ∧ 0 ∈ [0] ∧ blendDpkg cmd.desc = 0 ∧ blendFmt cmd.desc = 12
    ∧ blendFitclr cmd.desc = false ∧ cmd.seqBase = none ∧ s.pairBehind 5 0 m (s.pairCluster m none w) = false
    ∧ cmd.work.find? (fun y => y.pair == 0) = none ∧ (st begun).engine.find 5 = some begun
    ∧ s.resolve m.part (.virt (bf w 30 16) (blendSoff cmd.desc + 0)) = some (scratchAddr 1 0x1000)
    ∧ s.resolve m.part (.virt (bf w 14 0) (blendDoff cmd.desc + 0)) = some (scratchAddr 2 0x2000) ∧ homeOf (scratchAddr 2 0x2000) = 2
    ∧ s.answers m.part m.core 2 = true ∧ s.answers m.part 2 1 = true
    ∧ (∀ off ∈ [0, 8], s.resolve m.part (.virt (bf w 30 16) (blendSoff cmd.desc + off)) = some (scratchAddr 1 (0x1000 + off))
        ∧ s.resolve m.part (.virt (bf w 14 0) (blendDoff cmd.desc + off)) = some (scratchAddr 2 (0x2000 + off)))
    ∧ begun.work.find? (fun y => y.pair == 0) = some ⟨0, some 8, [], [], 0⟩ ∧ 8 < blendBytes cmd.desc ∧ 8 % 4 = 0 ∧ addrClass (scratchAddr 2 0x2008) = 0
    ∧ (st begun).pieceHeld own (scratchAddr 1 0x1008) 8 = false ∧ (st begun).pieceHeld own (scratchAddr 2 0x2008) 8 = false
    ∧ (st begun).isPoisoned (scratchAddr 1 0x1008) 8 = false ∧ busy.pieceHeld own (scratchAddr 1 0x1008) 8 = true := by decide +kernel

/-- A sum of one doubleword over cores 0 and 1, of which core 0 has contributed. -/
def collWords : List Word :=
  [BitVec.ofNat 64 (1 + 6 * 2 ^ 8 + 1 * 2 ^ 20), BitVec.ofNat 64 (0xFFF * 2 ^ 16), 0x2000000000000400#64, 0x2000000000000500#64, 0#64, 3#64, 0#64, 0#64, 0#64]

theorem witness_CollectivesCombineAndAbort :
    let s := filled (parted.modSlot 0 0 (fun t => { t with p := t.p.set 6 0x2000000000000200#64 })) 0x200 collWords
    let ws := s.readWords 0x200 9
    let others := filled (parted.modSlot 0 0 (fun t => { t with p := t.p.set 6 0x2000000000000200#64 })) 0x200 ((collWords.take 5) ++ [2#64, 0#64, 0#64, 0#64])
    s.curCore < 32768 ∧ s.Ready (scalars [3, 6]) ∧ s.Ready (scalars [3, 4, 5]) ∧ s.CheckerOff 0 0 ∧ passes (s.collDescriptor 6) (0x200, collWords)
    ∧ s.isHeld 0x200 72 = false ∧ passes (s.collRange (ws.getD 2 0) (collNdw ws) rightR 0x21) 0x400
    ∧ passes (s.collRange (ws.getD 3 0) (collNdw ws) rightW 0x22) 0x500 ∧ ((s.core 0).coll (collId ws)).pending = none ∧ (s.core 0).freeEntry = some 0
    ∧ s.isMember 0 (s.partOf 0 0) ws (s.membersOf (s.partOf 0 0) s.cur.rcbptr (ws.drop 5)) = true ∧ s.cur.posted = []
    ∧ others.isMember 0 (others.partOf 0 0) (others.readWords 0x200 9) (others.membersOf (others.partOf 0 0) others.cur.rcbptr ((others.readWords 0x200 9).drop 5)) = false
    ∧ collGroup ws = false ∧ passes (s.coreTarget 1) (1, none)
    ∧ ((s.modCore 0 (fun x => { x with colls := [(collId ws, ⟨0, 0, some 3⟩)] })).core 0).coll (collId ws) = ⟨0, 0, some 3⟩
    ∧ (s.modSlot 0 0 (fun t => { t with posted := [⟨0, some 1⟩] })).cur.posted ≠ []
    ∧ ((s.modCore 0 (fun x => { x with comp := (List.range 64).map (fun i => (i, ⟨0, .running⟩)) })).core 0).freeEntry = none
    ∧ (base.checkOwn 0 0 (base.reg 2) 8 72 [rightR] 0x21).isOk = false ∧ (base.core 0).freeEntry ≠ none := by decide +kernel

theorem witness_CollectivesCombineAndAbort_2 :
    let y : Contribution := ⟨memberKey 0 0, collWords, [0, 1], [5], [], some (0, scratchAddr 0 0x500, 0)⟩
    let m := { packet 1 1 (.contribution 0 0 0 collWords [0, 1] (scratchAddr 1 0x400) (scratchAddr 1 0x500) 0) with part := some 0 }
    let late := { packet 1 1 (.contribution 0 7 0 collWords [0, 1] (scratchAddr 1 0x400) (scratchAddr 1 0x500) 0) with part := some 0 }
    let s := { parted with colls := [⟨0, 0, 0, 0, [y], false⟩] }
    let alone := { packet 1 1 (.contribution 0 0 0 collWords [0, 1] (scratchAddr 1 0x400) (scratchAddr 1 0x500) 0) with part := some 0 }
    let busy := parted.modCore 1 (fun x => { x with sb := [⟨0, 0x400, 0x408, .press⟩] })
    let g : Gathered := ⟨0, 0, 0, collWords, [0, 1], scratchAddr 1 0x400, scratchAddr 1 0x500, 0, [], []⟩
    let x : Contribution := ⟨memberKey s.pkgNo (s.virtual (some 0) m.dst), collWords, [0, 1], (s.gather g).got, (s.gather g).bad, some (1, scratchAddr 1 0x500, 0)⟩
    Arrives s m ∧ Arrives s late ∧ m.body.gathered = some g ∧ (flying s m).gatherHeld 0 g = false ∧ ((s.core 1).coll 0).att = 0 ∧ x.bad = []
    ∧ (s.gather g).whole = true ∧ s.gatherHeld 0 (s.gather g) = false ∧ (s.gather g).got.length = 1 ∧ late.body.gathered.isSome
    ∧ collNdw collWords = 1 ∧ collGroup collWords = false ∧ collOp collWords = 1 ∧ collFn collWords = 0 ∧ collType collWords = 6 ∧ y.data.length = 1
    ∧ collAgrees s.pkgNo x y = true ∧ collComplete s.pkgNo [y, x] = true
    ∧ (Arrives parted alone ∧ (flying parted alone).gatherHeld 0 g = false ∧ parted.colls = [] ∧ parted.memberAbsent 0 [0, 1] = false
      ∧ collComplete parted.pkgNo [x] = false) ∧ (flying busy alone).gatherHeld 0 g = true
    ∧ y.home = some (0, scratchAddr 0 0x500, 0) ∧ y.bad = [] ∧ y.desc = collWords ∧ isCore 0 = true ∧ isCore 1 = true ∧ (0 : CoreId) ≠ 1
    ∧ 0x500 + 64 ≤ 0x7C000 ∧ 0x500 % 8 = 0 ∧ ((s.core 0).coll 0).pending = none ∧ ((s.core 1).coll 0).pending = none ∧ s.memberAbsent 0 [0, 1] = false ∧ s.CanonicalMemory
    ∧ Arrives parted { packet 0 1 (.abort 0 1 true) with part := some 0 } ∧ ((parted.core 1).coll 0).pending = none := by decide +kernel

/-- A contribution of two doublewords of which none is read, and one held between them. -/
theorem witness_CollectivesCombineAndAbort_3 :
    let g : Gathered := ⟨0, 0, 0, (BitVec.ofNat 64 (1 + 6 * 2 ^ 8 + 2 * 2 ^ 20)) :: collWords.tail, [0, 1], scratchAddr 1 0x400, scratchAddr 1 0x500, 0, [], []⟩
    let m := { packet 1 1 g.body with part := some 0 }
    g.whole = false ∧ Arrives parted m ∧ m.body.gathered = some g ∧ (flying parted m).gatherHeld 0 g = false ∧ ((parted.core 1).coll 0).att = 0
    ∧ ((flying parted m).gather g).whole = false := by decide +kernel

/-- A thread of memory core (24, 0, 0). -/
def memCore : CoreId := 24576

def onMemory : State := ({ State.reset with curCore := memCore, curSlot := 0 }).modSlot memCore 0 (fun t =>
  { t with st := .run, segBase := t.segBase.set 3 0x1FFF000000000000#64, segLim := t.segLim.set 3 0xFC00000100000000#64, privst := 2,
           p := (t.p.set 1 0x6000000000000000#64).set 4 5#64 })

theorem witness_ChannelsServeAndRefresh :
    let s := onMemory
    s.Ready (scalars [3, 1]) ∧ (s.cluster (clusterOf memCore)).faults = [] ∧ homeOf (2 ^ 48) = memCore ∧ s.cur.level = 2
    ∧ passes (s.checkAccess memCore 0 (s.reg 1) ⟨8, 8, [rightR], false, true, false, 8⟩) (.mem 1 0) ∧ s.translate memCore 0 1 0 0 = .ok (2 ^ 48)
    ∧ passes (s.checkAccess memCore 0 (s.reg 1) ⟨8, 8, [rightW], false, true, false, 8⟩) (.mem 1 0) ∧ s.translate memCore 0 1 0 1 = .ok (2 ^ 48)
    ∧ s.curSlot < 8 ∧ 8 ≤ ({ s with curSlot := 9 }).curSlot ∧ ({ s with curSlot := 9 }).Ready (scalars [3, 1]) := by decide +kernel

theorem witness_ChannelsServeAndRefresh_2 :
    let x : Access := ⟨memCore, 2 ^ 48, .thread 0 0 none⟩
    let y : Access := ⟨0, 2 ^ 48, .engine 5⟩
    let w := Wait.channel 3 5 ⟨4, [3, 1], 0⟩
    let at_ := fun (f : Channel → Channel) => (onMemory.modChannel memCore f).modSlot memCore 0 (fun t => { t with st := .blocked, wait := w })
    let later := fun (n : Nat) (s : State) => s.modCore memCore (fun c => { c with cycle := n })
    let s := at_ (fun h => { h with waiting := [x] })
    let serving := at_ (fun h => { h with banks := [(0, { HbmBank.reset with serving := some (x, 69) })] })
    let writing := at_ (fun h => { h with banks := [(0, { HbmBank.reset with serving := some ({ x with for_ := .thread 0 0 (some 7) }, 69) })] })
    let open_ := at_ (fun h => { h with banks := [(0, { HbmBank.reset with row := some 0, lastEnd := 5 })] })
    let other := at_ (fun h => { h with banks := [(0, { HbmBank.reset with serving := some (y, 69) })] })
    ((other.channel memCore).banks.getD 0 HbmBank.reset).serving = some (y, 69) ∧ other.wantsAccess y = false
    ∧ ({ other with engine := [(5, { command 1 .header (.at_ 0) (.at_ 0) 0 with header := .at_ (2 ^ 48) })] }).wantsAccess y = true ∧ hbmBank (2 ^ 48) = 0
    ∧ (s.channel memCore).began ≠ some (s.core memCore).cycle
    ∧ ((s.modChannel memCore (fun h => { h with began := some 0 })).channel memCore).began = some (s.core memCore).cycle
    ∧ (s.channel memCore).drain = none ∧ nextAccess (s.channel memCore) (s.channel memCore).waiting [] 0 = some (0, x)
    ∧ (onMemory.modChannel memCore (fun h => { h with drain := some 9 })).channel memCore = { Channel.reset with drain := some 9 }
    ∧ (((serving.channel memCore).banks.getD 0 HbmBank.reset).serving = some (x, 69)) ∧ (serving.slot memCore 0).wait = w
    ∧ (serving.slot memCore 0).accepts 0 = true ∧ serving.CheckerOff memCore 0 ∧ (serving.core memCore).cycle < 69 ∧ 69 ≤ ((later 69 serving).core memCore).cycle
    ∧ serving.isPoisoned (2 ^ 48) 8 = false ∧ writing.rowRetired (2 ^ 48) = false ∧ writing.CanonicalMemory ∧ 2 ^ 48 % 8 = 0
    ∧ ((open_.channel memCore).banks.getD 0 HbmBank.reset).row = some 0 ∧ (open_.core memCore).cycle < 5 + 512 ∧ 5 + 512 ≤ ((later 517 open_).core memCore).cycle := by
  decide +kernel

theorem witness_ChannelsServeAndRefresh_3 :
    let at_ := fun (f : Channel → Channel) (n : Nat) => (onMemory.modChannel memCore f).modCore memCore (fun c => { c with cycle := n })
    let bank := fun (s : State) (k : Nat) => (s.channel memCore).banks.getD k HbmBank.reset
    let slot := at_ id (240 + 390 * 15)
    let busy := fun (d : Nat) => at_ (fun h => { h with banks := [(15, { HbmBank.reset with row := some 3, debt := d })] }) (240 + 390 * 15)
    let drain := at_ (fun h => { h with drain := some 1 }) 100
    let run := fun (n : Nat) => at_ (fun h => { h with drain := some 1, refab := some 548 }) n
    (slot.core memCore).cycle % 6240 = 240 + 390 * 15 ∧ (slot.channel memCore).drain = none ∧ (slot.channel memCore).slotAt ≠ some (slot.core memCore).cycle
    ∧ ((at_ (fun h => { h with slotAt := some 240 }) 240).channel memCore).slotAt = some ((at_ id 240).core memCore).cycle
    ∧ ((bank slot 15).row = none ∧ (slot.channel memCore).waiting.any (fun a => hbmBank a.addr == 15) = false ∧ (bank slot 15).serving = none)
    ∧ (bank (busy 7) 15).row ≠ none ∧ (bank (busy 7) 15).debt ≠ 8 ∧ (bank (busy 8) 15).debt = 8
    ∧ (drain.channel memCore).drain = some 1 ∧ (drain.channel memCore).refab = none
    ∧ (∀ j, j < 16 → (bank drain j).serving = none ∧ (bank drain j).refreshEnd = none)
    ∧ ((run 547).channel memCore).refab = some 548 ∧ ((run 547).core memCore).cycle < 548 ∧ 548 ≤ ((run 548).core memCore).cycle
    ∧ isCompute 0 = true ∧ (base.core 0).bankDown (8 * 65535) 8 = false ∧ isMemoryCore memCore = true
    ∧ capacityOk 1 (unitAddr memCore 5 % 2 ^ 45) = true ∧ base.rowRetired (unitAddr memCore 5) = false
    ∧ (bank slot 15).retired.contains 3 = false ∧ ([] : List Nat).length < (bank slot 15).spares
    ∧ (bank (at_ (fun h => { h with banks := [(15, { HbmBank.reset with spares := 0 })] }) 0) 15).spares ≤ ([] : List Nat).length := by decide +kernel

/-- Register numbers in p4, at each level that they need. -/
theorem witness_ControlRegistersReadAndWrite :
    let at_ := fun (level n : Nat) => slotIs (fun t => { t with privst := BitVec.ofNat 64 level, p := t.p.set 4 (BitVec.ofNat 64 n) })
    base.CheckerOff 0 0 ∧ base.Ready (scalars [3, 4]) ∧ base.Ready (scalars [4, 5]) ∧ (base.reg 4).toNat % 2 ^ 14 = 5
    ∧ ((at_ 0 0x100).reg 4).toNat % 2 ^ 14 = 0x100 ∧ (at_ 0 0x100).cur.level < 1 ∧ 1 ≤ (at_ 1 0x1FF).cur.level ∧ (at_ 1 0x200).cur.level < 2
    ∧ 2 ≤ (at_ 2 0x260).cur.level ∧ ((at_ 2 0x260).reg 4).toNat % 2 ^ 14 = 0x260 ∧ isMemoryCore memCore = true ∧ isMemoryCore 0 = false
    ∧ (let s := parted.modSlot 0 0 (fun t => { t with privst := 1, p := t.p.set 4 0x111 })
       (s.reg 4).toNat % 2 ^ 14 = 0x111 ∧ 1 ≤ s.cur.level ∧ s.partOf 0 0 = some 0)
    ∧ (bf (3#64) 1 0 = 3 ∧ bf (1#64) 1 0 ≠ bf (base.slot 0 0).sigctl 1 0 ∧ bf (0#64) 1 0 = bf (base.slot 0 0).sigctl 1 0)
    ∧ bf ((slotIs (fun t => { t with sigctl := 5 })).slot 0 0).sigctl 1 0 ≠ 0
    ∧ (base.core 0).mbBase 3 = ((base.core 0).mbbase[mbIx 3]).toNat ∧ mbIx 2 ≠ mbIx 3
    ∧ parted.xlate 0 1 = .at_ 1 ∧ parted.xlate 0 16 = .outside
    ∧ (partIs (fun p => { p with map := [(0, 64), (1, 129)] })).xlate 0 16 = .held := by decide +kernel

theorem witness_SupervisorEntryAndReturn :
    let at_ := fun (level : Nat) => slotIs (fun t => { t with privst := BitVec.ofNat 64 level, p := t.p.set 6 2 })
    let kernel := coreIs (fun x => { x with ksegbase := 0x0FFFFFFE00000000#64, kseglim := 0xFC00000000080000#64, tvec := 0xE000000000001000#64 })
    base.Ready (scalars [4]) ∧ (at_ 1).cur.level ≠ 0 ∧ base.cur.level = 0 ∧ (base.core 0).kseglim.toNat % 2 ^ 58 = 0
    ∧ kernel.cur.level = 0 ∧ (kernel.core 0).kseglim.toNat % 2 ^ 58 ≠ 0 ∧ kernel.CheckerOff 0 0
    ∧ ((at_ 1).cur.level = 1 ∧ bf (at_ 1).cur.privst 3 2 = 0 ∧ (at_ 1).CheckerOff 0 0)
    ∧ (at_ 1).Ready (scalars [3, 1, 6]) ∧ passes ((at_ 1).checkOwn 0 0 ((at_ 1).reg 1) 8 128 [rightR] 0x21) 0x100
    ∧ passes ((at_ 1).checkOwn 0 0 ((at_ 1).reg 1) 8 128 [rightW] 0x21) 0x100 ∧ (at_ 1).isHeld 0x100 128 = false ∧ (at_ 1).cur.st = .run
    ∧ (at_ 1).CanonicalMemory ∧ 0x100 + 128 ≤ 2 ^ 48 ∧ ((at_ 1).reg 0).toNat % 16 = 0
    ∧ (((at_ 1).reg 6).toNat % 16 = 2 ∧ ((at_ 1).slot 0 2).spilled = none ∧ ((at_ 1).slot 0 2).st = .free)
    ∧ (((at_ 1).modSlot 0 2 (fun t => { t with st := .parked })).slot 0 2).st = .parked
    ∧ (((at_ 1).modSlot 0 2 (fun t => { t with st := .blocked })).slot 0 2).st = .blocked := by decide +kernel

/-- Slots in each state that a handler reaches, and control-space requests of level 2, of the partition and of another one. -/
theorem witness_HandlersReachSlotsAndControlSpace :
    let parked := slotIs (fun t => { t with st := .parked, park := some ⟨0x10, 1, 0⟩, pc := 0x2000000000001000#64 })
    let contained := slotIs (fun t => { t with st := .contained })
    let keyed := slotIs (fun t => { t with st := .lost, origin := ⟨true, false, 0x1000, [5], 0⟩ })
    ((parked.slot 0 0).st = .parked ∧ (parked.slot 0 0).park = some ⟨0x10, 1, 0⟩ ∧ (parked.slot 0 0).spilled = none ∧ (parked.slot 0 0).origin.disp = false
      ∧ parked.lengthAt 0 0 = some 2)
    ∧ (slotIs (fun t => { t with st := .parked, pc := 1 })).lengthAt 0 0 = none
    ∧ ((keyed.slot 0 0).st = .lost ∧ (keyed.slot 0 0).origin.disp = true ∧ (keyed.slot 0 0).origin.ring = false ∧ (keyed.slot 0 0).posted = [])
    ∧ (base.slot 0 0).st ≠ .parked ∧ (base.slot 0 0).st ≠ .contained ∧ (base.slot 0 0).st ≠ .lost
    ∧ (contained.slot 0 0).st = .contained ∧ (contained.slot 0 0).owes = false
    ∧ ((slotIs (fun t => { t with st := .lost, owes := true })).slot 0 0).owes = true := by decide +kernel

theorem witness_HandlersReachSlotsAndControlSpace_2 :
    let m := fun (write : Bool) (off : Nat) (v : Word) (level : Nat) (p : Option Nat) => { packet 0 1 (.control write off v level) with part := p }
    let slot := fun (st : SlotState) => parted.modSlot 1 15 (fun t => { t with st := st })
    Arrives parted (m false 8 0 0 none) ∧ parted.controlHeld (m false 8 0 0 none) = false ∧ (none : Option Nat) ≠ some 0
    ∧ Arrives parted { m true 8 0 1 none with post := some 0 }
    ∧ Arrives parted (m false (8 * 6) 0 0 (some 0)) ∧ (some 0 : Option Nat) = parted.corePart 1 ∧ coreRegister 0x06 = true ∧ (0x06 : Nat) < 0x400
    ∧ coreRegister 0x3FF = false ∧ partRegister 0x3FF = false ∧ Arrives parted (m false (8 * 0x3FF) 0 2 none)
    ∧ Arrives parted (m false (0x10000 + 0x800 * 15 + 8 * 127) 0 2 none) ∧ Arrives parted (m false (0x20000 + 8 * 3) 0 2 none)
    ∧ Arrives parted (m true (8 * 0x105) 0x1001 2 none) ∧ Arrives (slot .parked) (m true (0x10000 + 0x800 * 15) 7 2 none)
    ∧ ((slot .parked).slot 1 15).recordOpen = true ∧ (parted.slot 1 15).recordOpen = false
    ∧ (slot .parked).controlHeld (m true (0x10400 + 0x800 * 15) 1 2 none) = false ∧ ((slot .parked).slot 1 15).st = .parked
    ∧ ((slot .contained).slot 1 15).st = .contained ∧ (slot .contained).controlHeld (m true (0x10400 + 0x800 * 15) 4 2 none) = false
    ∧ (parted.slotCommand 1 15 1).isNone = true := by decide +kernel

/-- Messages for a held core, and deliveries that are free to go and behind another packet of their source. -/
theorem witness_HandlersQueuesAndWalks :
    let heldPart := partIs (fun p => { p with map := [(0, 64), (1, 129)] })
    let m := { packet 1 24576 (.load (scratchAddr 16 0x100) 8) with part := some 0, held := some 16 }
    let mail := { packet 1 24576 (.mail 0 [7] false []) with part := some 0, held := some 16 }
    let flies := fun (m : Msg) => flying heldPart m
    let full := { (flies m) with parts := [(0, { (heldPart.part 0) with overflow := List.replicate 3 m })] }
    ((flies m).net[0]? = some m ∧ m.held = some 16 ∧ m.part = some 0 ∧ (flies m).reaches m.src m.dst = true
      ∧ ((flies m).net.take 0).any (fun y => y.src == m.src && y.dst == m.dst) = false
      ∧ ((flies m).part 0).overflow.length < 65536 ∧ (flies mail).net[0]? = some mail ∧ mail.src < 32768)
    ∧ (full.part 0).overflow.length = 3
    ∧ (let back := partIs (fun p => { p with map := [(0, 64), (1, 65)], overflow := [m] })
       let again := partIs (fun p => { p with map := [(0, 64), (1, 65)], overflow := [m], retryAt := [(1, 256)] })
       let queue := fun (s : State) => ¬((s.part 0).retryAhead 0 1 = true ∨ s.net.any (fun y => y.src == m.src && y.dst == 16) = true)
       queue back ∧ queue again ∧ ¬ queue (flying back (packet 1 16 .wake)) ∧ (back.part 0).retryAt.find 1 = none ∧ (again.part 0).retryAt.find 1 = some 256
       ∧ (back.part 0).oldestFor 1 = some 0 ∧ (back.part 0).overflow[0]? = some m ∧ (back.part 0).mappedCore 16 = some 16 ∧ (back.part 0).retryAt = []
       ∧ (again.part 0).retryAt = [(1, 256)] ∧ again.fc < 256) := by decide +kernel

theorem witness_HandlersQueuesAndWalks_2 :
    let f : FaultRec := ⟨some 0, 7, [1, 2, 3, 4, 5, 6]⟩
    let with_ := fun (s : State) => { s with faultRecs := [f] }
    let queue := with_ (partIs (fun p => { p with fqbase := 0x10000#64, fqsize := 8, ptroot1 := 0x20001#64 }))
    (with_ parted).faultRecs[0]? = some f ∧ ((with_ parted).faultRecs.take 0).any (fun g => g.sameAgent f) = false ∧ f.part = some 0
    ∧ ((with_ parted).part 0).fqEntries = 0 ∧ (queue.part 0).fqEntries ≠ 0 ∧ (queue.part 0).fqhead = 0 ∧ (queue.part 0).fqtail = 0
    ∧ f.payload.length = 6 ∧ queue.CanonicalMemory := by decide +kernel

/-- Page tables at 0x20000 of HBM4E that map page 1 of class 1; with them the fault queue's next entry and a walk translate. -/
def tables : State :=
  let e := fun (a : Nat) (w : Nat) (s : State) => holding s (2 ^ 48 + a) (BitVec.ofNat 64 w)
  let s := partIs (fun p => { p with fqbase := 0x10000#64, fqsize := 8, ptroot1 := 0x20001#64 })
  e 0x20000 (0x30000 + 1) (e 0x30000 (0x40000 + 1) (e 0x40000 (0x50000 + 1) (e 0x50008 (0x10000 + 29) s)))

theorem witness_HandlersQueuesAndWalks_3 :
    let s := tables
    s.translateNow (some 0) 1 (BitVec.ofNat 48 (bf (s.part 0).fqbase 47 6 * 64 + 64 * (0 % (s.part 0).fqEntries))) 1 = .ok (2 ^ 48 + 0x10000)
    ∧ s.coreAbsent (homeOf (2 ^ 48 + 0x10000)) = false ∧ (∀ i, i < 7 → s.rowRetired (2 ^ 48 + 0x10000 + 8 * i) = false) ∧ s.CanonicalMemory := by decide +kernel

/-- A walk of page 1 that begins, at the root or at a table of the pointer cache; that reads a pointer; and that reads its leaf. -/
theorem witness_HandlersQueuesAndWalks_4 :
    let r : WalkReq := ⟨0, 0, 0, 0, 0x1FFF000000010000#64⟩
    let w : Walk := ⟨1, 0x10000, 0, 0, [], true, [r]⟩
    let e : Pointer := ⟨1, 0x20000, 4, 0, 0x50000⟩
    let at_ := fun (ptrs : List Pointer) (x : Walk) => (tables.modSlot 0 0 (fun t => { t with st := .blocked, wait := .reissue .walk })).modCluster 0
      (fun c => { c with walks := [x], ptrs := ptrs })
    let found := fun (s : State) (x : Walk) => ((s.cluster (clusterOf 0)).walks.take 16).find? (fun z => z.cls == 1 && z.va == 0x10000) = some x
      ∧ s.partOf 0 0 = some 0
    found (at_ [] w) w ∧ found (at_ [e] w) w ∧ ((at_ [] w).part 0).ptroot1.getLsbD 0 = true ∧ ((at_ [] w).cluster 0).ptrs = []
    ∧ ((at_ [e] w).cluster 0).ptrs = [e] ∧ e.level = 4 ∧ e.covers 1 0x10000 = true := by decide +kernel

theorem witness_HandlersQueuesAndWalks_5 :
    let r : WalkReq := ⟨0, 0, 0, 0, 0x1FFF000000010000#64⟩
    let at_ := fun (lv t : Nat) => (⟨1, 0x10000, lv, t, [], true, [r]⟩ : Walk)
    let leaf : TlbEntry := ⟨1, 1, false, 0x10000, true, true, 0⟩
    let a := fun (lv t : Nat) => 2 ^ 48 + (t + walkIndex lv 0x10000 * 8)
    let s := fun (w : Walk) => (tables.modSlot 0 0 (fun t => { t with st := .blocked, wait := .reissue .walk })).modCluster 0 (fun c => { c with walks := [w] })
    let served := fun (w : Walk) (p : Nat) => (s w).modChannel (homeOf p) (fun h =>
      { h with banks := [(hbmBank p, { HbmBank.reset with serving := some (⟨0, p, .walk 0 1 0x10000⟩, 5) })] })
    let ripe := fun (w : Walk) (p : Nat) => (served w p).modCore (homeOf p) (fun x => { x with cycle := 5 })
    (∀ z ∈ [(1, 0x20000), (4, 0x50000)], let p := a z.1 z.2
      let w := at_ z.1 z.2
      capacityOk 1 (z.2 + walkIndex z.1 0x10000 * 8) = true ∧ (s w).coreAbsent (homeOf p) = false ∧ addrClass p = 1
      ∧ (((s w).channel (homeOf p)).bank (hbmBank p)).serving = none
      ∧ ((s w).channel (homeOf p)).waiting.contains ⟨0, p, .walk 0 1 0x10000⟩ = false
      ∧ (((served w p).channel (homeOf p)).bank (hbmBank p)).serving = some (⟨0, p, .walk 0 1 0x10000⟩, 5)
      ∧ ((served w p).core (homeOf p)).cycle < 5 ∧ 5 ≤ ((ripe w p).core (homeOf p)).cycle)
    ∧ walkRead (ripe (at_ 1 0x20000) (a 1 0x20000)) 1 0x10000 1 0x20000 = .table 0x30000
    ∧ walkRead (ripe (at_ 4 0x50000) (a 4 0x50000)) 1 0x10000 4 0x50000 = .leaf leaf
    ∧ (ripe (at_ 4 0x50000) (a 4 0x50000)).reqWaits r = true ∧ (match leaf.permit r.va r.access with | .fault _ _ => false | _ => true) = true
    ∧ ((s (at_ 4 0x50000)).cluster 0).walkReqs.length < 256 ∧ ((s (at_ 4 0x50000)).cluster 0).tlb = [] := by decide +kernel

/-- LINRD of two written records of a ring of 1,024 that the tables map, and its wait for each of them. -/
theorem witness_FitnessRankingAndBlends_6 :
    let s := tables.modPart 0 (fun p => { p with linbase := 0x10000#64, linsize := 10, linhead := 2 })
    let at_ := fun (n a left : Nat) => s.modSlot 0 0 (fun t => { t with st := .blocked, wait := .lineage 3 5 0 n a left ⟨4, [3, 1, 4], 0⟩ })
    let busy := (at_ 0 0x100 2).modCore 0 (fun x => { x with sb := [⟨0, 0x100, 0x110, .press⟩] })
    (s.part 0).linRecords = 1024 ∧ (s.reg 0).toNat % 2 ^ 48 = 0 ∧ (s.part 0).linhead.toNat % 2 ^ 48 = 2
    ∧ (∀ j, j < 2 → 0 + j < 2 ∧ 0 + j ∉ (s.part 0).linOpen) ∧ 2 ≤ 0 + 2 ∧ addrClass 0x100 = 0 ∧ addrClass 0x120 = 0
    ∧ (∀ z ∈ [(0, 0x100, 2), (1, 0x120, 1)], let q := at_ z.1 z.2.1 z.2.2
      q.CanonicalMemory ∧ q.CheckerOff 0 0 ∧ q.isHeld z.2.1 32 = false ∧ q.linAddr 0 z.1 = some (2 ^ 48 + 0x10000 + 32 * z.1)
      ∧ q.isPoisoned (2 ^ 48 + 0x10000 + 32 * z.1) 32 = false)
    ∧ busy.isHeld 0x100 32 = true ∧ (s.core 0).outranked 0 (.scalar 3) = false := by decide +kernel

/-- Each code of RCB_ADMIT: RCBs at GA 0x10000, under a root at 0x1000, of level 0 or 1. -/
theorem witness_PartitionRegistersAndAdmission :
    let v := 0x1FFF000000010000#64
    let pa := 2 ^ 48 + 0x10000
    let rcb := fun (ws : List Word) (up : Rcb) => filled (tables.modPart 0 (fun p => { p with rcbs := [(0x1FFF000000001000#64, up)] })) pa ws
    let g := fun (ws : List Word) (i : Nat) => ((rcb ws rootRcb).readWords pa 32).getD i 0
    let under := 0x1FFF000000001000#64
    let narrow := { rootRcb with bhmask := 1, cores := 4, share := 4 }
    let root := tables.modPart 0 (fun p => { p with root := v, rcbs := [] })
    tables.commands = [] ∧ v.toNat % 256 = 0 ∧ gaClass v = 1 ∧ tables.isOwnPkg (gaPkg v) = true ∧ tables.physical (some 0) v 0 = some pa
    ∧ tables.coreAbsent (homeOf pa) = false ∧ tables.isPoisoned pa 256 = false
    ∧ ((g [0] 0).toNat % 8 = 0 ∧ v ≠ (tables.part 0).root)
    ∧ ((root.part 0).root = v ∧ root.physical (some 0) v 0 = some pa ∧ (0x30000#64).toNat % 8 = 0 ∧ (0x30000#64).toNat / 2 ^ 16 % 4 = 3)
    ∧ ((g [1, 0x1FFF000000002000#64] 0).toNat % 8 ≠ 0 ∧ (tables.part 0).rcbAt 0x1FFF000000002000#64 = none)
    ∧ ((rcb [1, under] { rootRcb with withdrawn := true }).part 0).rcbAt under = some { rootRcb with withdrawn := true }
    ∧ ((rcb [2, under] rootRcb).part 0).rcbAt under = some rootRcb ∧ (g [2, under] 0).toNat % 8 ≠ 0 + 1
    ∧ ((0x101#64).toNat % 8 = 1 ∧ (0x101#64).getLsbD 8 = true ∧ 3 &&& ~~~narrow.bhmask ≠ 0)
    ∧ ((0x201#64).getLsbD 9 = true ∧ narrow.cores < 5 ∧ (0x401#64).getLsbD 10 = true ∧ narrow.share < 5)
    ∧ ((0x38001#64).getLsbD 15 = true ∧ (0x38001#64).toNat / 2 ^ 16 % 4 = 3) ∧ (1#64).toNat / 2 ^ 16 % 4 ≠ 3 := by decide +kernel

theorem witness_PartitionRegistersAndAdmission_2 :
    let q := partIs (fun p => { p with queues := [(0, ⟨4, [1, 2], []⟩)] })
    let cap := fun (n : Nat) => BitVec.ofNat 64 (n * 1024)
    (cap (2 ^ 20 + 1)).toNat / 1024 % 2 ^ 21 > 2 ^ 20 ∧ (cap 1).toNat / 1024 % 2 ^ 21 < ((q.part 0).queues.getD 0 HwQueue.reset).entries.length
    ∧ ((q.part 0).queues.getD 0 HwQueue.reset).entries.length ≤ (cap 2).toNat / 1024 % 2 ^ 21 ∧ (cap (2 ^ 20)).toNat / 1024 % 2 ^ 21 ≤ 2 ^ 20
    ∧ ((0x400000000000000#64).toNat / 2 ^ 58 % 4 = 1 ∧ parted.tlbBusy 0 0x400000000000000#64 = false)
    ∧ (parted.modCluster 0 (fun c => { c with walks := [⟨1, 0, 0, 0, [], true, []⟩] })).tlbBusy 0 0x8400000000000000#64 = true
    ∧ (0xC00000000000000#64).toNat / 2 ^ 58 % 4 = 3 ∧ ((0x100#64).getLsbD 0 = false ∧ (0x80#64).toNat % 256 ≠ 0)
    ∧ ((0x1FFF000000001001#64).getLsbD 0 = true ∧ (0x1FFF000000001001#64).toNat / 2 % 128 = 0
      ∧ (parted.part 0).rcbAt (0x1FFF000000001001#64 &&& ~~~255#64) = some rootRcb ∧ rootRcb.withdrawn = false)
    ∧ (parted.part 0).admitted (0x1FFF000000002001#64 &&& ~~~255#64) = false := by decide +kernel

/-- PREEMPT and RESUME of the root's region, and a region that is drained. -/
theorem witness_RegionsAndPartitions :
    let w := 0x1FFF000000001000#64
    let mapped := partIs (fun p => p)
    let held := partIs (fun p => { p with map := [(0, 128)] })
    let halted : State := { held with commands := [⟨0x11E, some 0, w, 32767, 0, 16, some [0]⟩] }
    let busy := halted.modSlot 0 0 (fun t => { t with st := .blocked, wait := .reply (.status 3) ⟨4, [3], 0⟩ .wake 1 })
    let idle := halted.modSlot 0 0 (fun t => { t with st := .free })
    mapped.commands = [] ∧ (mapped.part 0).rcbAt w = some rootRcb ∧ rootRcb.withdrawn = false ∧ w.toNat % 256 = 0 ∧ (mapped.part 0).inState rootRcb.bhmask 1 = [0]
    ∧ ((partIs (fun p => { p with rcbs := [(w, { rootRcb with withdrawn := true })] })).part 0).rcbAt w = some { rootRcb with withdrawn := true }
    ∧ (mapped.part 0).rcbAt 0 = none ∧ (held.part 0).entry 0 = BitVec.ofNat 8 (128 + 0) ∧ busy.drained 0 [0] = false ∧ idle.drained 0 [0] = true
    ∧ (held.part 0).inState rootRcb.bhmask 2 = [0] ∧ (∀ u, u < 64 → entryState ((held.part 0).entry u) = 0 → (held.part 0).inRectangle u = true → bit rootRcb.bhmask u = false)
    ∧ held.reservedFor 0 ((held.part 0).pbh 0) = true ∧ held.canLand ((held.part 0).landing [0]) = true
    ∧ (partIs (fun p => { p with map := [(0, 129)] })).reservedFor 0 1 = false := by decide +kernel

theorem witness_RegionsAndPartitions_2 :
    let held := partIs (fun p => { p with map := [(0, 128)] })
    (entryState ((parted.part 0).entry 1) ≠ 2 ∧ (65#64).toNat / 64 % 4 = 1 ∧ (65#64).toNat % 64 = 1 ∧ (parted.bulkhead 1).owner = none)
    ∧ ((0#64).toNat / 64 % 4 = 0 ∧ (parted.bulkhead ((parted.part 0).pbh 0)).owner = some 0
      ∧ (∀ u, u < 64 → u ≠ 0 → entryState ((parted.part 0).entry u) = 0 ∨ (parted.part 0).pbh u ≠ (parted.part 0).pbh 0))
    ∧ ((2#64).toNat % 16 = 2 ∧ (parted.part 0).used = true ∧ (parted.part 0).inState (-1) 1 ≠ [] ∧ (held.part 0).inState (-1) 1 = [] ∧ (base.part 0).used = false)
    ∧ ((3#64).toNat % 16 = 3 ∧ (parted.part 0).height ≤ (3#64).toNat / 2 ^ 16 % 8 + 1 ∧ (parted.part 0).width ≤ (3#64).toNat / 2 ^ 19 % 8 + 1
      ∧ (3#64).toNat / 2 ^ 16 % 8 + 1 < ((partIs (fun p => { p with height := 2 })).part 0).height)
    ∧ ((4#64).toNat % 16 = 4 ∧ entryState ((parted.part 0).entry ((4#64).toNat / 2 ^ 24 % 64)) = 1 ∧ entryState ((held.part 0).entry 0) = 2
      ∧ (held.bulkhead ((held.part 0).pbh 0)).owner = some 0 ∧ entryState ((parted.part 0).entry ((0x1000004#64).toNat / 2 ^ 24 % 64)) = 0)
    ∧ (let mc := carafeCore 0 0
       let taken := base.modSlot mc 15 (fun t => { t with st := .run })
       (0x4000#64).getLsbD 14 = true ∧ parted.coreAbsent mc = false ∧ (∀ k, k < 16 → 8 ≤ k → (parted.slot mc k).st = .free)
       ∧ ¬(∀ k, k < 16 → 8 ≤ k → (taken.slot mc k).st = .free)
       ∧ ({ base with pkg := { base.pkg with fencedDies := 0x1000000 } }).coreAbsent mc = true ∧ (0#64).getLsbD 14 = false) := by decide +kernel

/-- CREATE of partition 5 over bulkhead 1, its creation block at 0x60000 and its root RCB at GA 0x10000. -/
theorem witness_RegionsAndPartitions_3 :
    let w := BitVec.ofNat 64 (1 + 5 * 16 + 1 * 2 ^ 13 + 0x600 * 2 ^ 24)
    let pa := 2 ^ 48 + w.toNat / 2 ^ 24 * 256
    let s := filled { tables with parts := [], bulkheads := [] } (2 ^ 48 + 0x60000 + 16 * 8) [0x2000000000000000#64, 0, 0x20001#64, 0, 9, 0x1FFF000000010000#64]
    let ws := s.readWords pa 32
    let z := createPart w ws
    s.commands = [] ∧ w.toNat % 16 = 1 ∧ (s.part (w.toNat / 16 % 64)).used = false ∧ w.toNat / 2 ^ 10 % 8 + (w.toNat / 2 ^ 16 % 8 + 1) ≤ 8
    ∧ w.toNat / 2 ^ 13 % 8 + (w.toNat / 2 ^ 19 % 8 + 1) ≤ 8 ∧ createRectangle w = [(0, 1)] ∧ (s.bulkhead 1).owner = none ∧ (s.bulkhead 1).absent = false
    ∧ capacityOk 1 (w.toNat / 2 ^ 24 * 256) = true ∧ s.coreAbsent (homeOf pa) = false ∧ s.isPoisoned pa 256 = false
    ∧ coreXlate z ((ws.getD 17 0).toNat / 16 % 2 ^ 15) = .at_ 16
    ∧ ((s.modPart (w.toNat / 16 % 64) (fun _ => z)).admitRcb (w.toNat / 16 % 64) z.root).2 = 0
    ∧ (({ s with bulkheads := [(1, { Bulkhead.reset with absent := true })] }).bulkhead 1).absent = true
    ∧ (({ s with bulkheads := [(1, { Bulkhead.reset with owner := some 2 })] }).bulkhead 1).owner.isSome = true := by decide +kernel

/-- A bulkhead in each condition, and draws about the ceiling of 1,100. -/
theorem witness_BulkheadsAndPower :
    let at_ := fun (h : Bulkhead) => { State.reset with bulkheads := [(63, h)] }
    let r := Bulkhead.reset
    (at_ r).commands = [] ∧ ((at_ { r with absent := true }).bulkhead 63).absent = true
    ∧ (∀ k, k < 5 → ((at_ { r with park := k }).bulkhead 63).park = k ∧ ((at_ { r with park := k }).bulkhead 63).absent = false)
    ∧ (∀ k, k < 4 → ((at_ { r with park := 4, target := k }).bulkhead 63).target = k) ∧ (at_ r).CanonicalMemory ∧ (at_ r).engine = []
    ∧ (at_ r).pkg.pwrceil.toNat % 2 ^ 11 = 1100 ∧ (1101#11).toNat > 1100 ∧ (1100#11).toNat ≤ 1100 ∧ 100 * (1044#11).toNat < 95 * 1100
    ∧ ((at_ r).bulkhead 63).running = true ∧ ((at_ r).bulkhead 63).pcur < 4
    ∧ ((at_ { r with stopped := true }).bulkhead 63).stopped = true
    ∧ (((at_ { r with raising := true, preq := 0 }).bulkhead 63).raising = true ∧ 0 < ((at_ { r with raising := true, preq := 0 }).bulkhead 63).pcur)
    ∧ (at_ r).parts.all (fun e => (List.range 64).all (fun u => entryState (e.2.entry u) != 1 || e.2.pbh u != 63)) = true := by decide +kernel

theorem witness_BulkheadIsQuiet : ∀ c ∈ bulkheadCores 63, (State.reset.core c).sb = [] ∧ ∀ k, (State.reset.slot c k).st = .free := by
  have h : ∀ j : Fin 16, Core.reset.slots[j].st = .free := by decide +kernel
  intro c hc
  have hk : ∀ c ∈ bulkheadCores 63, isCompute c = true := by decide +kernel
  have e : State.reset.core c = Core.reset := by
    show Core.initial c = Core.reset
    rw [Core.initial, if_pos (hk c hc)]
  exact ⟨by rw [e]; rfl, fun k => by rw [State.slot, e]; exact h (slotIx k)⟩

/-- A parked bulkhead of all 64 stopped at P4; a link with 15, 16 and 256 replays; bound ports; and records of a function. -/
theorem witness_LinksGroupAndHost :
    let at_ := fun (l : Link) => { State.reset with pkg := { Pkg.reset with links := [(7, l)] } }
    let group := { parted with pkg := { Pkg.reset with groups := [(1, 0x8000000000000100#64)], bindings := [(1 + 16 * 0, 0x8000000000000003#64)] } }
    let func := { parted with pkg := { Pkg.reset with vfs := [(2, { VFun.reset with bind := 0x8000000000001000#64 })] } }
    17 ≤ (17 : BitVec 5).toNat ∧ (16 : BitVec 5).toNat < 17
    ∧ ((at_ ⟨15, 0, false, false⟩).pkg.links.getD 7 Link.reset).replays < 16 ∧ 16 ≤ ((at_ ⟨16, 0, false, false⟩).pkg.links.getD 7 Link.reset).replays
    ∧ ((at_ ⟨256, 2, true, false⟩).pkg.links.getD 7 Link.reset).retraining = true ∧ 2 ≤ ((at_ ⟨256, 2, true, false⟩).pkg.links.getD 7 Link.reset).fails
    ∧ ((at_ ⟨256, 1, true, false⟩).pkg.links.getD 7 Link.reset).fails < 2 ∧ (at_ Link.reset).commands = []
    ∧ ((group.pkg.groups.getD 1 0).getLsbD 63 = true ∧ (group.pkg.groups.getD 1 0).getLsbD 8 = true ∧ group.pkg.groupAlt.contains 1 = false)
    ∧ group.boundPart 1 3 = some 0 ∧ group.boundPart 1 4 = none ∧ (0x200000100#64).toNat / 2 ^ 60 = 0
    ∧ group.xlate 0 ((0x200000100#64).toNat / 2 ^ 33 % 2 ^ 15) = .at_ 1 ∧ bf (8#64) 31 28 = 0
    ∧ bf (8#64) 7 0 ≠ 0 ∧ bf (0x200000100#64) 32 0 + bf (8#64) 7 0 ≤ 0x80000
    ∧ ((func.pkg.vfs.getD 2 VFun.reset).bind.getLsbD 63 = true ∧ bf (func.pkg.vfs.getD 2 VFun.reset).bind 53 48 = 0
      ∧ func.isOwnPkg (bf (0x0FFF000000000010#64) 59 48) = true ∧ func.xlate 0 (bf (0x0FFF000000000010#64) 18 4) = .at_ 1)
    ∧ (group.pkg.vfs.getD 2 VFun.reset).bind.getLsbD 63 = false := by decide +kernel

theorem witness_StartsFenceAndKeepMemory :
    (1 : BitVec 4).getLsbD 0 = true ∧ (2 : BitVec 4).getLsbD 0 = false ∧ base.CanonicalMemory ∧ State.reset.channels = [] ∧ (0 ∈ bulkheadCores 0) := by
  decide +kernel

/-- ADDI in memory at the pc; the compact ADDI.K; the reserved parcel 0; and a class that a compute core does not have. -/
theorem witness_AStepRunsTheDecodedInstruction :
    let at_ := fun (n w : Nat) => State.reset.withFetchWord n w
    let s := at_ 32 (0xC1000000 + 3 * 2 ^ 19 + 4 * 2 ^ 14 + 0x3FFF)
    let q := ((({ s with tick := s.tick + 1, schedule := s.schedule.tail } : State).settleClock 0).watchBanks 0)
    let w := ({ q with curCore := 0, curSlot := 0 }).modSlot 0 0 (fun t => { t with readyAt := (q.core 0).cycle + 8, wokenAt := none })
    s.pkg.inReset = false ∧ s.schedule = .cycle 0 :: s.schedule.tail ∧ s.clockRuns 0 = true ∧ (q.core 0).halted = false ∧ (q.core 0).issueSlot = some 0
    ∧ w.parcelAt 0 0 w.cur.pc = .at_ 0 ∧ w.fetchHeld 0 = false ∧ w.isPoisoned 0 2 = false ∧ w.readNat 0 2 / 2 ^ 14 = 3
    ∧ w.parcelAt 0 0 (addOffset w.cur.pc 2) = .at_ 2 ∧ w.fetchHeld 2 = false ∧ w.isPoisoned 2 2 = false
    ∧ passes (decode (w.readBytes 0 2 ++ w.readBytes 2 2)) (.addi 3 4 0x3FFF, []) ∧ Sys2Proof.Machine.Instr.existsOn (.addi 3 4 0x3FFF) 0 = true
    ∧ Sys2Proof.Machine.Instr.existsOn (.mcrd 1 1) 0 = false := by decide +kernel

theorem witness_AStepRunsTheDecodedInstruction_2 :
    let s := State.reset.withFetchWord 16 0x622F
    s.parcelAt 0 0 s.cur.pc = .at_ 0 ∧ s.readNat 0 2 / 2 ^ 14 ≠ 3 ∧ passes (decode (s.readBytes 0 2)) (.addiK 2 2 0xF, [])
    ∧ Sys2Proof.Machine.Instr.existsOn (.addiK 2 2 0xF) 0 = true ∧ (State.reset.withFetchWord 16 0).readNat 0 2 / 2 ^ 14 ≠ 3
    ∧ (decode ((State.reset.withFetchWord 16 0).readBytes 0 2)).isOk = false := by decide +kernel

theorem witness_DecodeInvertsEncode :
    (Instr.add 3 4 5).wf = true ∧ (Instr.add 3 4 5).isDevice = false ∧ (Instr.addiK 2 2 0xF).wf = true ∧ (Instr.addiK 2 2 0xF).isDevice = false
    ∧ passes (decode (encode (.add 3 4 5) ++ [7])) (.add 3 4 5, [7]) := by decide +kernel

theorem witness_EveryStepKeepsCanonicalMemory :
    State.reset.CanonicalMemory ∧ (match step State.reset with | .next t => Memory.wf t.mem | _ => false) = true := by decide +kernel

theorem witness_OnlyAPackageInResetStops :
    State.reset.pkg.inReset = false ∧ ({ State.reset with pkg := { Pkg.reset with inReset := true } }).pkg.inReset = true := by decide +kernel

theorem witness_IntegerInstructionsFrame :
    base.CheckerOff 0 0 ∧ (7 : Reg) ≠ 3 ∧ (match exec (.add 3 4 5) base with | .next t => decide (readReg t 0 0 7 = 0) | _ => false) = true := by decide +kernel

theorem witness_MemoryInstructionsFrame :
    base.CheckerOff 0 0 ∧ base.CanonicalMemory ∧ passes (base.checkAccess 0 0 (base.reg 1 + (0 : BitVec 14).signExtend 64) (scalarForm 8 rightW true)) (.self 0x100)
    ∧ (base.core 0).landing = []
    ∧ (match exec (.std 4 1 0) base with | .next t => decide (t.readWord 0x100 = 0 ∧ (t.landAll 0).readWord 0x100 = 5 ∧ (t.slot 0 0).st ≠ .contained) | _ => false) = true := by decide +kernel

/-- 06_vector, the example after R180: an instruction that issues in cycle 24 writes in cycle 31, and cycle 32 is the first whose RR reads its
value, that of an issue in cycle 29; and R104: a write that lands in between is lost. -/
theorem test_shared_write_lands_at_wb :
    let at_ := fun (s : State) (n : Nat) => s.modCore 0 (fun x => { x with cycle := n })
    let t := backReg (at_ base 24) 0 0 19 5
    readReg t 0 0 19 = 0 ∧ readReg (at_ t 28) 0 0 19 = 0 ∧ readReg (at_ t 29) 0 0 19 = 5 ∧ lastReg t 0 0 19 = 5
    ∧ readReg (writeReg t 0 0 19 7) 0 1 19 = 7 ∧ readReg (at_ (writeReg t 0 0 19 7) 29) 0 1 19 = 5 := by decide +kernel

theorem witness_ScalarFieldsWhileAWriteIsInFlight :
    16 ≤ (19 : Reg).toNat ∧ (base.core 0).staleOf (.scalar 19) = none ∧ ((backReg base 0 0 19 5).core 0).staleOf (.scalar 19) ≠ none
    ∧ (3 : Reg) ≠ 19 := by decide +kernel

/-- HALT at its WB: a thread of its own slot, and one that a parity error has contained since (15_system R420). -/
theorem witness_StrandInstructions_2 :
    base.cur.st = .run ∧ base.Ready (scalars [4, 5]) ∧ (let s := slotIs (fun t => { t with st := .contained })
      s.Ready (scalars [4, 5]) ∧ bf s.cur.sigctl 1 0 = 0 ∧ s.cur.st = .contained) := by decide +kernel

/-- LDACQ, STREL, VLD and VST of another core's scratchpad, and STREL with an entry that is still posted. -/
theorem witness_RemoteAccessesAndFences_2 :
    let s := slotIs (fun t => { t with posted := [⟨0, some 1⟩], nextPost := 1 })
    base.Ready [.vector 3, .scalar 2] ∧ base.cur.posted = [] ∧ 0x100 + 32 ≤ scratchSize 1 ∧ s.cur.posted ≠ [] ∧ s.Ready (scalars [3, 2])
    ∧ (∀ n ∈ [1, 2, 4, 8], passes (base.checkAccess 0 0 (base.reg 2) (acquireForm n rightR false)) (.scratch 1 0x100)
        ∧ passes (base.checkAccess 0 0 (base.reg 2) (acquireForm n rightW true)) (.scratch 1 0x100)
        ∧ passes (s.checkAccess 0 0 (s.reg 2) (acquireForm n rightW true)) (.scratch 1 0x100))
    ∧ passes (base.checkAccess 0 0 (base.reg 2 + (0 : BitVec 14).signExtend 64 * 32) (vectorForm rightR false)) (.scratch 1 0x100)
    ∧ passes (base.checkAccess 0 0 (base.reg 2 + (0 : BitVec 14).signExtend 64 * 32) (vectorForm rightW true)) (.scratch 1 0x100) := by decide +kernel

/-- A fault reply in the cycle of a wake and in a later one. -/
theorem witness_HomesAndRepliesOfAccesses_4 :
    let at_ := fun (w : Option Nat) => slotIs (fun t => { t with wokenAt := w })
    ((at_ (some 0)).slot 0 0).wokenAt = some ((at_ (some 0)).core 0).cycle ∧ ((at_ none).slot 0 0).wokenAt ≠ some ((at_ none).core 0).cycle := by
  decide +kernel

/-- Atomics of both sizes on another core's scratchpad, with entries free and with none. -/
theorem witness_AtomicsReplaceAndReturnTheOldValue_2 :
    let full := slotIs (fun t => { t with posted := List.replicate 32 ⟨0, some 1⟩ })
    (∀ s ∈ [base, full], s.Ready (scalars [3, 2, 4]) ∧ s.Ready (scalars [0, 2, 4]) ∧ s.CheckerOff 0 0
      ∧ passes (s.checkAccess 0 0 (s.reg 2) (atomicForm 0 8)) (.scratch 1 0x100) ∧ passes (s.checkAccess 0 0 (s.reg 2) (atomicForm 0 4)) (.scratch 1 0x100))
    ∧ (1 : CoreId) < 32768 ∧ base.cur.posted.length < 32 ∧ 32 ≤ full.cur.posted.length := by decide +kernel

/-- Timelines and tickets of another core, with and without posted entries, and each operation at its home. -/
theorem witness_TimelinesAndTickets_2 :
    let s := slotIs (fun t => { t with posted := [⟨0, some 1⟩], nextPost := 1 })
    let a := scratchAddr 1 0x100
    (∀ q ∈ [base, s], q.Ready (scalars [3, 2, 4]) ∧ q.Ready (scalars [0, 2, 4]) ∧ q.CheckerOff 0 0
      ∧ passes (q.checkAccess 0 0 (q.reg 2) (atomicForm 0 8)) (.scratch 1 0x100) ∧ passes (q.checkAccess 0 0 (q.reg 2) (atomicForm 0 16)) (.scratch 1 0x100))
    ∧ base.cur.posted = [] ∧ s.cur.posted ≠ [] ∧ s.cur.posted.length < 32 ∧ addrClass a = 0 ∧ base.CanonicalMemory
    ∧ (∀ op ∈ [6, 7, 8, 10, 12], Arrives base (packet 0 1 (.sync op a 5)) ∧ Arrives base { packet 0 1 (.sync op a 5) with post := some 0 }
        ∧ base.spillRefused (packet 0 1 (.sync op a 5)) a 16 = false ∧ base.spillRefused (packet 0 1 (.sync op a 5)) a 8 = false)
    ∧ base.isHeld a 16 = false ∧ base.isHeld a 8 = false ∧ base.isPoisoned a 8 = false ∧ base.isPoisoned (a + 8) 8 = false := by decide +kernel

/-- A LOGSEAL whose next step is due: it sorts two records; it applies the first of two, one with an OP above 10, and the last. -/
theorem witness_DripLogsAppendAndSeal_2 :
    let at_ := fun (placed count size e0 : Nat) =>
      let s := (coreIs (fun x => { x with logbase := 0x1000, logsize := BitVec.ofNat 64 (64 + 2 * 2 ^ 33 + size), cycle := 8 })).modSlot 0 0 (fun t =>
        { t with st := .blocked, wait := .seal 8 placed count 3 0 0 ⟨4, [3], 0⟩ })
      holding s 0x1000 (BitVec.ofNat 64 e0)
    let fits := fun (s : State) (placed count : Nat) => (s.slot 0 0).st = .blocked ∧ s.CanonicalMemory ∧ (s.core 0).cycle = 8 ∧ s.CheckerOff 0 0
      ∧ (s.slot 0 0).wait = .seal 8 placed count 3 0 0 ⟨4, [3], 0⟩ ∧ placed ≤ count ∧ (s.core 0).logBase + 32 * count ≤ 0x80000
      ∧ s.isHeld (s.logAddr 0 0) 64 = false ∧ s.isHeld (s.logAddr 0 0) 32 = false
    let off := fun (s : State) (n : Nat) => ((s.readWords (s.logAddr 0 n) 4).getD 0 0).toNat % 2 ^ 19
    let op := fun (s : State) (n : Nat) => ((s.readWords (s.logAddr 0 n) 4).getD 0 0).toNat / 2 ^ 19 % 32
    isCore 0 = true ∧ fits (at_ 0 2 0 0) 0 2 ∧ logSorted ((at_ 0 2 0 0).core 0).logsize = false ∧ min (0 + 4) 2 = 2
    ∧ (let s := at_ 2 2 (2 ^ 62) 0x200
       fits s 2 2 ∧ logSorted (s.core 0).logsize = true ∧ logNext (s.core 0).logsize = 0 ∧ op s 0 = 0 ∧ off s 0 = 0x200 ∧ 0x200 % 8 = 0
       ∧ s.isHeld 0x200 8 = false ∧ s.isPoisoned 0x200 8 = false)
    ∧ (let s := at_ 2 2 (2 ^ 62) (11 * 2 ^ 19)
       fits s 2 2 ∧ 10 < op s 0)
    ∧ (let s := at_ 2 2 (2 ^ 62) 0x204
       fits s 2 2 ∧ op s 0 = 0 ∧ off s 0 % 8 ≠ 0)
    ∧ (let s := at_ 2 2 (2 ^ 62 + 2 ^ 48) 0
       fits s 2 2 ∧ logNext (s.core 0).logsize + 1 = 2 ∧ s.isHeld (s.logAddr 0 1) 32 = false ∧ (3 : Reg).toNat < 16) := by decide +kernel

/-- Comparisons with an infinity on either side, equal operands, zeros of both signs, and a value of 1.5 in each rounding mode of FPCTL. -/
theorem witness_FpCompareAndConvert_2 :
    fp32.value 0xFF800000 = .inf true ∧ fp32.value 0x3FC00000 = .fin false 0xC00000 (-23) ∧ fp32.value 0xBFC00000 = .fin true 0xC00000 (-23)
    ∧ (fp32.value 0x3F800000).isNan = false ∧ fp32.value 0x80000000 = .fin true 0 (-149) ∧ fp32.value 0 = .fin false 0 (-149)
    ∧ (3 : BitVec 3).getLsbD 2 = false ∧ (7 : BitVec 3).getLsbD 2 = true ∧ fp32.value 0x4B000000 = .fin false 0x800000 0
    ∧ (∀ n ∈ [0, 1, 2, 3], (slotIs (fun t => { t with fpctl := BitVec.ofNat 64 n })).Ready (scalars [3, 4, 5])) := by decide +kernel

/-- CLEND of a codelet whose descriptor the press covers, at its WB. -/
theorem witness_CodeletCountersAndEnds_2 :
    let s := slotIs (fun t => { t with origin := ⟨true, true, 0x1000, [], 0⟩ })
    let busy := s.modCore 0 (fun x => { x with sb := [⟨0, 0x1000, 0x1008, .press⟩] })
    s.cur.st = .run ∧ isCompute s.curCore = true ∧ (s.core 0).ringCount < 256 ∧ s.curSlot < 16 ∧ busy.cur.st = .run ∧ busy.CheckerOff 0 0
    ∧ busy.CanonicalMemory ∧ busy.isHeld (scratchAddr 0 0x1000) 48 = true ∧ 0x1000 + 48 ≤ 0x7B800 := by decide +kernel

/-- A key request and a QPOPW whose time has come. -/
theorem witness_QueuesKeepTheirOrder_2 :
    let w := Wait.qpopw 3 (some 9) 0 24576 false none ⟨4, [3, 4, 5], 0⟩
    let s := (slotIs (fun t => { t with st := .blocked, wait := w })).modCore 0 (fun x => { x with cycle := 9 })
    (s.slot 0 0).st = .blocked ∧ (s.slot 0 0).wait = w ∧ 9 ≤ (s.core 0).cycle ∧ (24576 : CoreId) < 32768 ∧ 256 ≤ ({ parted with fc := 256 }).fc := by
  decide +kernel

/-- A load and a store that wait for a bank, which nothing holds; and a FORK in flight. -/
theorem witness_SlotsBanksAndParity_2 :
    let at_ := fun (u : Option ReplyUse) => slotIs (fun t => { t with st := .blocked, wait := .bank u 0x100 8 7 ⟨4, [3, 1], 0⟩ })
    (∀ u ∈ [none, some (.load 3 8 false false)], ((at_ u).slot 0 0).st = .blocked ∧ ((at_ u).slot 0 0).wait = .bank u 0x100 8 7 ⟨4, [3, 1], 0⟩
      ∧ (at_ u).CheckerOff 0 0 ∧ (at_ u).isHeld 0x100 8 = false ∧ (at_ u).CanonicalMemory ∧ (at_ u).isPoisoned 0x100 8 = false)
    ∧ (3 : Reg).toNat < 16 ∧ base.isHeld (spillAddr 0 0) 1024 = false ∧ (base.slot 0 0).readyAt ≤ (base.core 0).cycle + 1
    ∧ (let s := coreIs (fun x => { x with flight := [⟨0, 0, base.slot 0 0, some 3, false⟩] })
       (s.slot 0 0).st = .run ∧ ∃ e ∈ (s.core 0).flight, e.committed = false ∧ e.child = some 3) := by decide +kernel

/-- A bank of core 0 whose power comes back in this cycle. -/
def powering : State := (State.reset.modCore 0 (fun x => { x with banks := [(3, { Bank.reset with powered := false, upAt := some 256 })] })).modCore 0
  (fun x => { x with cycle := 256 })

theorem witness_SlotsBanksAndParity_3 :
    (((powering.core 0).banks.getD 3 Bank.reset).powered = false ∧ ((powering.core 0).banks.getD 3 Bank.reset).upAt = some 256
      ∧ 256 ≤ (powering.core 0).cycle)
    ∧ ∀ i u a n v r, (powering.slot 0 i).wait ≠ .bank u a n v r := by
  refine ⟨by decide +kernel, fun i u a n v r h => ?_⟩
  have hs : ∀ j : Fin 16, (powering.core 0).slots[j].wait = .none := by decide +kernel
  rw [State.slot, Core.slot, hs (slotIx i)] at h
  cases h

/-- The rest of what a command needs of its cores: no stopped bulkhead or stalled link on its way, the ready step of a grant, a member's completion. -/
theorem witness_EngineCommandsMoveAndComplete_8 :
    let g := command 0 (.grant [1]) (.at_ 0x300) (.virt 1 0x400) 8
    let s := (running g).modCore 1 (fun x => { x with sbWait := [⟨0, 0x400, 0x408, .engine 5⟩] })
    let still := { s with bulkheads := [(0, { Bulkhead.reset with stopped := true })] }
    let landing := s.modCore 1 (fun x => { x with landing := [⟨0, 0, 2, .store (scratchAddr 1 0x400) (List.replicate 8 0)⟩] })
    s.engineWaits 0 1 = false ∧ s.engineWaits 0 (homeOf (2 ^ 48 + 0x4000)) = false ∧ s.engineWaits 0 0 = false ∧ still.engineWaits 0 1 = true
    ∧ s.spanWaits 1 ⟨0, 0x400, 0x408, .engine 5⟩ = false ∧ still.spanWaits 1 ⟨0, 0x400, 0x408, .engine 5⟩ = true
    ∧ landing.midAccess 1 0x400 0x408 = true ∧ g.phase = .grant [1] ∧ g.inbound = none ∧ g.sbuf = false ∧ g.dbuf = false ∧ g.buf = none
    ∧ (s.core 0).outranked 0 (.scalar 3) = false ∧ (base.core 1).collDone.contains 7 = false
    ∧ ((base.channel (homeOf (2 ^ 48 + 0x4000))).waiting.contains ⟨0, 2 ^ 48 + 0x4000, .engine 5⟩) = false := by decide +kernel

/-- The piece of a copy whose source is in HBM4E, before and after its place is served. -/
theorem witness_EngineCommandsMoveAndComplete_9 :
    let u := command 0 (.moving 0) (.at_ (2 ^ 48 + 0x4000)) (.at_ (2 ^ 33 + 0x400)) 16
    let s := servedAt (running u) (2 ^ 48 + 0x4000)
    s.engine.find 5 = some u ∧ s.CanonicalMemory ∧ addrClass (2 ^ 33 + 0x400) ≠ 1
    ∧ (match u.piece 0 with | some (a, len, ps) => decide (a = Place.at_ (2 ^ 48 + 0x4000) ∧ len = 8 ∧ ps.length = 1) | none => false) = true
    ∧ ((s.channel (homeOf (2 ^ 48 + 0x4000))).bank (hbmBank (2 ^ 48 + 0x4000))).serving = some (⟨0, 2 ^ 48 + 0x4000, .engine 5⟩, 0)
    ∧ 0 ≤ (s.core (homeOf (2 ^ 48 + 0x4000))).cycle ∧ s.pieceHeld (fun o => o == .engine 5) (2 ^ 48 + 0x4000) 8 = false := by decide +kernel

/-- MMAG in its group; MXLDA, MXST and MXEPI; and the landing of MXEPI at either bank. -/
theorem witness_PressQueueAndExecution_6 :
    let s := slotIs (fun t => { t with p := (t.p.set 6 0x2000000000001000#64).set 7 0x2000000000004000#64 })
    (s.core 0).reloading = false ∧ (s.core 0).press.current ≤ 1
    ∧ ((coreIs (fun x => { x with press := { x.press with current := 1 } })).core 0).press.current ≤ 1
    ∧ (∀ f ∈ [0, 5, 6], passes (s.operand f (s.reg 6) 0 32) 0x1000)
    ∧ (∀ f ∈ [0, 5], (match s.gaTarget 0 (s.partOf 0 0) (s.cur.segGa (((s.reg 6) &&& ~~~63#64) + BitVec.ofInt 64 0)) (operandBytes f false 32) with
        | .self o => o == 0x1000 | _ => false) = true) := by decide +kernel

/-- A fetch whose turn it is and one behind another of its source core; a piece whose gate admits it; a joined fetch. -/
theorem witness_PressQueueAndExecution_7 :
    let p := pressCmd 0 5 1
    let queue := coreIs (fun x => { x with press := { x.press with queue := [p] } })
    let f : TileFetch := ⟨0, 7, 0, p.aGa, 5, false, 32, 0x1000, 9, 1, [], false, true, false⟩
    let g : TileFetch := ⟨1, 7, 0, p.aGa, 5, false, 32, 0x3000, 3, 1, [], false, true, false⟩
    let with_ := fun (fs : List TileFetch) => queue.modCluster 0 (fun u => { u with fetches := fs })
    ((with_ [f]).cluster 0).turnOf f = true ∧ ((with_ [f, g]).cluster 0).turnOf f = false ∧ ((with_ [f]).cluster 0).fetchOf 0 p 0 = some f
    ∧ ((with_ [{ f with joined := true }]).cluster 0).fetchOf 0 p 0 = some { f with joined := true }
    ∧ (with_ [f]).isAbsent ((with_ [f]).operandPacket 0 (0x1000 + 8) 8) = false ∧ (with_ [f]).isHeld 0x1000 f.size = false := by decide +kernel

/-- Heads of the queue that start with an idle press: a clear, an MMAG outside its group, a load of a clean and of a poisoned tile, products of
clean and of marked operands, and stores by a plain and by a clearing epilogue. -/
theorem witness_PressQueueAndExecution_8 :
    let at_ := fun (p : PressCmd) (mark bad : Bool) (bank : List Word) =>
      let f := fun (op : Nat) => (⟨0, 7, op, 0, p.fmt, false, 32, 0x1000, 0, 256, List.replicate 2048 1, bad, true, false⟩ : TileFetch)
      (coreIs (fun x => { x with press := { x.press with queue := [p], marks := if mark then 2 else 0, bank0 := bank, bank1 := bank } })).modCluster 0
        (fun u => { u with fetches := [f 0, f 1] })
    let plain := identityEpilogue
    let clears := 0x200C#64 :: identityEpilogue.tail
    let q := fun (fn fmt : Nat) => pressCmd fn fmt 1
    let starts := fun (s : State) (p : PressCmd) => (s.cluster 0).running.isNone && s.arbitrate 0 == some (0, 1) && (s.core 0).press.queue == [p]
    let bad := fun (s : State) (p : PressCmd) => match (s.cluster 0).fetchOf (posOf 0) p 0 with | some f => f.bad | none => false
    clusterCore 0 0 = 0
    ∧ ([(q 2 0, false, false), ({ q 1 5 with inside := false }, false, false), (q 3 0, false, false), (q 3 0, false, true), (q 0 0, false, false),
        (q 0 0, true, false), (q 0 5, false, false), (q 0 5, true, false), (q 0 5, false, true), (q 4 0, false, false), (q 4 0, true, false),
        ({ q 4 0 with inside := false }, false, false)].all (fun z => [plain, clears].all (fun b =>
          let s := at_ z.1 z.2.1 z.2.2 b
          starts s z.1 && bad s z.1 == z.2.2 && (s.core 0).press.marks.getLsbD 1 == z.2.1 && decide s.CanonicalMemory && epilogueOk b)) = true)
    ∧ addrClass (0x1000 + 4096) = 0 ∧ (clears.getD 0 0).toNat.testBit 13 = true ∧ (plain.getD 0 0).toNat.testBit 13 = false := by decide +kernel

/-- Exact sums: a NaN, infinities of both signs, zeros, and finite numbers; and scaled elements. -/
theorem witness_PressQueueAndExecution_9 :
    let fin := fun (n : Bool) (m : Nat) => ((Num.fin n m 0, false) : Sys2Proof.Machine.Num × Bool)
    ([(Num.nan false, false)].map (fun q => q.1)).any Num.isNan = true
    ∧ (anyInf false [Num.inf false, Num.inf true] && anyInf true [Num.inf false, Num.inf true]) = true
    ∧ ([(Num.nan false, true)] : List (Sys2Proof.Machine.Num × Bool)).any (fun q => q.2) = true ∧ ([fin false 1, fin true 2] : List (Sys2Proof.Machine.Num × Bool)).any (fun q => q.2) = false
    ∧ (∀ z ∈ [fin true 0, fin true 0], z.1 = .fin true 0 0) ∧ 0 < pressBits 5 ∧ (0 : Nat) < 7 := by decide +kernel

/-- The last and the last but one sample of a ranking of cores 0 and 1: with both values, with a missing one, and with the table held. -/
theorem witness_FitnessRankingAndBlends_7 :
    let ws : List Word := [BitVec.ofNat 64 (1 * 2 ^ 16), 0, 0, 0x2000000000000400#64, 3, 0, 0, 0]
    let at_ := fun (got : List (Nat × Option Word)) => slotIs (fun t => { t with st := .blocked, wait := .poprank 3 0x400 ws [0, 1] got ⟨4, [3, 6], 0⟩ })
    let m := fun (v : Option Word) => packet (cuppingCore 0) 0 (.sample 1 v 0)
    let held := (at_ [(0, some 5)]).modCore 0 (fun x => { x with sb := [⟨0, 0x400, 0x408, .press⟩] })
    let fits := fun (s : State) (v : Option Word) => decide (Arrives s (m v) ∧ s.CanonicalMemory ∧ s.CheckerOff 0 0) && s.gateAdmits (m v)
      && s.delivers (cuppingCore 0) 0 && (s.slot 0 0).accepts 0
    fits (at_ [(0, some 5)]) (some 7) = true ∧ fits (at_ []) (some 7) = true ∧ fits (at_ [(0, some 5)]) none = true ∧ fits held (some 7) = true
    ∧ (at_ []).isHeld 0x400 8 = false ∧ (flying held (m none)).isHeld 0x400 8 = true ∧ addrClass (0x400 + 8 * 1) = 0 ∧ (3 : Reg) ≠ 0 := by decide +kernel

/-- BLEND of more than four pairs, its last pairs read, one whose pairs fault, one that logs, and BLENDX. -/
theorem witness_FitnessRankingAndBlends_8 :
    let log := partIs (fun p => { p with linbase := 0x100000#64, linsize := 10, linhead := 2 })
    let st := fun (q : State) (w0 : Nat) => holding (filled (q.modSlot 0 0 (fun t => { t with p := t.p.set 6 0x2000000000000200#64 })) 0x200
      (BitVec.ofNat 64 w0 :: blendWords.tail)) 0x400 blendTable
    let ok := fun (s : State) (n : Nat) => s.CheckerOff 0 0 ∧ s.Ready (scalars [3, 6]) ∧ (s.core 0).freeEntry = some 0
      ∧ passes (s.checkOwn 0 0 (s.reg 6) 8 64 [rightR] 0x21) 0x200 ∧ s.isHeld 0x200 64 = false ∧ bf ((s.readWords 0x200 8).getD 0 0) 11 0 = n
      ∧ passes (s.checkOwn 0 0 ((s.readWords 0x200 8).getD 1 0) 8 (8 * n) [rightR] 0x21) 0x400 ∧ s.isHeld 0x400 (8 * n) = false
    let five := st parted (5 + 12 * 2 ^ 12)
    let waits := five.modSlot 0 0 (fun t => { t with st := .blocked, wait := .blend 3 false (five.readWords 0x200 8) 0x420 1 (five.readWords 0x400 4) ⟨4, [3, 6], 0⟩ })
    let same := holding (st parted (1 + 12 * 2 ^ 12)) 0x400 (BitVec.ofNat 64 (60000 + 1 * 2 ^ 16))
    ok five 5 ∧ blendFormatOk (five.readWords 0x200 8) false = true ∧ blendLog (five.readWords 0x200 8) = false
    ∧ ((waits.slot 0 0).st = .blocked ∧ (waits.core 0).freeEntry = some 0 ∧ waits.CheckerOff 0 0)
    ∧ (ok same 1 ∧ same.pairsFault (some 0) (same.readWords 0x200 8) (same.readWords 0x400 1) false same.cur.level ≠ none)
    ∧ (log.part 0).linRecords ≠ 0 ∧ log.partOf 0 0 = some 0 := by decide +kernel

/-- The last piece of a pair under FITCLR; poison in the parent; and its lineage record. -/
theorem witness_FitnessRankingAndBlends_9 :
    let m := { member with part := some 0 }
    let clr := (BitVec.ofNat 64 (1 + 12 * 2 ^ 12 + 2 ^ 18)) :: blendWords.tail
    let cmd := { command 4 (.pairs [0]) (.at_ 0) (.at_ 0) 0 with desc := clr, pairsTable := [blendTable], members := [m], work := [⟨0, some 8, [], [], 0⟩] }
    let s := { parted with engine := [(5, cmd)], poison := [((2 ^ 33 + 0x1008) / 8, true)] }
    let log := { cmd with seqBase := some 2 }
    let lin := tables.modPart 0 (fun p => { p with linbase := 0x10000#64, linsize := 10, linhead := 3 })
    cmd.peer = none ∧ cmd.inbound = none ∧ s.engine.find 5 = some cmd ∧ s.isPoisoned (scratchAddr 1 0x1008) 8 = true
    ∧ s.pieceHeld (fun o => o == .pair 5 0) (scratchAddr 1 0x1008) 8 = false ∧ blendDoff cmd.desc + blendBytes cmd.desc ≤ 0x80000
    ∧ s.engineWaits 0 2 = false ∧ s.engineWaits 2 1 = false ∧ [8, 9, 10, 11, 12, 14].contains (blendFmt cmd.desc) = true
    ∧ log.inbound = none ∧ log.seqBase = some 2 ∧ m.part = some 0 ∧ (lin.part 0).linRecords ≠ 0 ∧ lin.linAddr 0 2 = some (2 ^ 48 + 0x10040)
    ∧ ((List.range 32).all (fun z => lin.rowRetired (2 ^ 48 + 0x10040 + z) == false)) = true ∧ lin.CanonicalMemory := by decide +kernel

/-- CABORT with a peer of PKGMASK whose port is open, and whose port drains; a token that finds a COLL pending. -/
theorem witness_CollectivesCombineAndAbort_4 :
    let words := [BitVec.ofNat 64 (1 + 6 * 2 ^ 8 + 1 * 2 ^ 20 + 2 ^ 30), BitVec.ofNat 64 (0xFFF * 2 ^ 16), 0x2000000000000400#64, 0x2000000000000500#64, 2, 3, 0, 0, 0]
    let s := { parted with pkg := { parted.pkg with groups := [(1, 0x8000000000000000#64)] } }
    let drains := { s with pkg := { s.pkg with groupDown := [1] } }
    let pend := parted.modCore 1 (fun x => { x with colls := [(0, ⟨0, 1, some 3⟩)], comp := [(3, ⟨1, .attached 0 0 4⟩)] })
    let token := { packet 0 1 (.abort 0 1 true) with part := some 0 }
    let run := pend.modSlot 1 0 (fun t => { t with st := .run })
    s.pkgNo ≠ 1 ∧ bit (words.getD 4 0) 1 = true ∧ s.peerOpen 1 = true ∧ s.portDrains 1 = false ∧ drains.peerOpen 1 = false
    ∧ Arrives run token ∧ 0 < ((1 : BitVec 16) - ((run.core 1).coll 0).att).toInt ∧ ((run.core 1).coll 0).pending = some 3
    ∧ ((run.core 1).entryAt 3).st = .attached 0 (run.slot 1 0).gen 4 ∧ (run.slot 1 0).st = .run
    ∧ (0#16 - 5#16).toInt < 0 := by decide +kernel

/-- The last contribution of two: the members hold their entries as the last step needs, ATTACHED or RUNNING; cores that are mapped, and one that is
not; descriptors that agree, and that differ; each OP; and a poisoned doubleword. -/
theorem witness_CollectivesCombineAndAbort_5 :
    let ws := fun (op : Nat) => (BitVec.ofNat 64 (op + 6 * 2 ^ 8 + 1 * 2 ^ 20)) :: collWords.tail
    let y := fun (op : Nat) (bad : List Nat) => (⟨memberKey 0 0, ws op, [0, 1], [5], bad, some (0, scratchAddr 0 0x500, 3)⟩ : Contribution)
    let g := fun (op : Nat) => (⟨0, 0, 0, ws op, [0, 1], scratchAddr 1 0x400, scratchAddr 1 0x500, 3, [], []⟩ : Gathered)
    let coll := fun (x : Core) => { x with colls := [(0, ⟨0, 1, some 3⟩)], comp := [(3, ⟨1, .attached 0 0 4⟩)] }
    let s := (((parted.modCore 0 coll).modCore 1 coll).modSlot 1 0 (fun t => { t with st := .run })).modCore 1 (fun x => { x with comp := [(3, ⟨1, .running⟩)] })
    let lost := { (s.modPart 0 (fun p => { p with map := [(0, 64), (1, 66)] })) with pkg := { s.pkg with fencedDies := 2 } }
    let x := fun (op : Nat) => (⟨memberKey s.pkgNo (s.virtual (some 0) 1), ws op, [0, 1], (s.gather (g op)).got, (s.gather (g op)).bad, some (1, scratchAddr 1 0x500, 3)⟩ : Contribution)
    ((s.core 0).coll 0 = ⟨0, 0 + 1, some 3⟩ ∧ (s.core 1).coll 0 = ⟨0, 0 + 1, some 3⟩ ∧ ((s.core 0).entryAt 3).st = .attached 0 (s.slot 0 0).gen 4
      ∧ (s.slot 0 0).st = .run ∧ ((s.core 1).entryAt 3).st = .running ∧ (s.core 1).waiters = [])
    ∧ s.memberAbsent 0 [0, 1] = false ∧ lost.memberAbsent 0 [0, 1, 16] = true ∧ Arrives lost { packet 1 1 (g 1).body with part := some 0 }
    ∧ ([0, 1, 2, 3].all (fun op => (s.gather (g op)).whole && collAgrees s.pkgNo (x op) (y op []) && collComplete s.pkgNo [y op [], x op]
        && !(collAgrees s.pkgNo (x op) (y ((op + 1) % 4) [])) && (x op).bad.isEmpty && !(x op).bad.contains 63
        && decide ((g op).desc = ws op ∧ collOp (ws op) = op ∧ collNdw (ws op) = 1 ∧ collGroup (ws op) = false))) = true
    ∧ collComplete s.pkgNo [x 1] = false ∧ (y 1 [0]).bad.contains 0 = true ∧ (y 1 []).key < (x 1).key ∧ s.CanonicalMemory := by decide +kernel

/-- Levels of one, two and three members, and lanes of each type. -/
theorem witness_CollectivesCombineAndAbort_6 :
    (collLevel 0 6 [[1], [2], [3]]).1.length = 2 ∧ 2 * 0 + 1 < [[1], [2], [3]].length ∧ [[1], [2], [3]].length % 2 = 1
    ∧ (∀ t ∈ [4, 5, 6, 7, 12, 13], (0x80000000 : Nat) < 2 ^ laneWidth t ∧ [4, 5, 6, 7, 12, 13].contains t = true) := by decide +kernel

/-- A channel whose open row has been idle for 512 cc, with and without debt; a channel whose access follows the closing. -/
theorem witness_ChannelsServeAndRefresh_4 :
    let x : Access := ⟨memCore, 2 ^ 48, .thread 0 0 none⟩
    let at_ := fun (d : Nat) => (onMemory.modChannel memCore (fun h => { h with waiting := [x], banks := [(0, { HbmBank.reset with row := some 0, debt := d })] })).modCore
      memCore (fun c => { c with cycle := 512 })
    (∀ d ∈ [0, 3], let s := at_ d
      (s.channel memCore).drain = none ∧ (s.channel memCore).began ≠ some (s.core memCore).cycle
      ∧ (((s.channel memCore).banks.getD 0 HbmBank.reset).row ≠ none ∧ ((s.channel memCore).banks.getD 0 HbmBank.reset).serving = none
        ∧ ((s.channel memCore).banks.getD 0 HbmBank.reset).refreshEnd = none ∧ ((s.channel memCore).banks.getD 0 HbmBank.reset).lastEnd + 512 ≤ (s.core memCore).cycle))
    ∧ nextAccess (((at_ 0).closeRows memCore).channel memCore) (((at_ 0).closeRows memCore).channel memCore).waiting [] 0 = some (0, x)
    ∧ (onMemory.core memCore).outranked 0 (.scalar 3) = false
    ∧ (onMemory.channel memCore).slotAt ≠ some 240 ∧ (onMemory.modChannel memCore (fun h => { h with drain := some 1 })).channel memCore = { Channel.reset with drain := some 1 } := by
  decide +kernel

/-- Units of HBM4E at the fourth corrected error of their row, capacity words of gateway core 0 of die 16, and a row that is due for sparing. -/
theorem witness_ChannelsServeAndRefresh_5 :
    let bank := { HbmBank.reset with fixed := [0, 1, 2], sparing := [3] }
    let s := onMemory.modChannel memCore (fun h => { h with banks := [(0, bank)] })
    let b := (s.channel memCore).banks.getD (3 / 32 % 16) HbmBank.reset
    isMemoryCore memCore = true ∧ (3 : Nat) < 2 ^ 35 ∧ capacityOk 1 (unitAddr memCore 3 % 2 ^ 45) = true ∧ s.rowRetired (unitAddr memCore 3) = false
    ∧ b.fixed.contains 3 = false ∧ 4 ≤ ((b.fixed ++ [3]).filter (fun v => v / 512 == 3 / 512)).length
    ∧ isGateway (coreAt 16 0 0) = true ∧ (∀ u ∈ [0, 5], capacityOk 2 (capacityAddr (coreAt 16 0 0) u % 2 ^ 46) = true)
    ∧ ((s.channel memCore).banks.getD 0 HbmBank.reset).sparing.contains 3 = true ∧ ((s.channel memCore).banks.getD 0 HbmBank.reset).retired.contains 3 = false
    ∧ ([] : List Nat).length < ((s.channel memCore).banks.getD 0 HbmBank.reset).spares
    ∧ ((s.channel memCore).banks.getD 0 HbmBank.reset).spares ≤ (List.range 8).length
    ∧ ((s.channel memCore).banks.getD 0 HbmBank.reset).sparing.contains 4 = false := by decide +kernel

/-- Registers of the core while an MTC is in flight, and of a thread of level 2. -/
theorem witness_ControlRegistersReadAndWrite_2 :
    let at_ := fun (level n : Nat) => slotIs (fun t => { t with privst := BitVec.ofNat 64 level, p := t.p.set 4 (BitVec.ofNat 64 n) })
    let s := (at_ 0 0x028).modCore 0 (fun x => { x with ctlOld := [⟨5, 0x028, 0x1000⟩] })
    (s.core 0).ctlOld.find? (fun e => e.num == 0x028 && decide ((s.core 0).cycle < e.till)) = some ⟨5, 0x028, 0x1000⟩
    ∧ (∀ e ∈ ((at_ 0 0x028).core 0).ctlOld, e.num = 0x028 → e.till ≤ ((at_ 0 0x028).core 0).cycle)
    ∧ (∀ n ∈ [0x200, 0x240, 0x245, 0x248, 0x24A, 0x250, 0x259, 0x25C], ((at_ 2 n).reg 4).toNat % 2 ^ 14 = n ∧ 2 ≤ (at_ 2 n).cur.level
        ∧ (at_ 2 n).Ready (scalars [4, 5]))
    ∧ (∀ n ∈ [0x00D, 0x0FF, 0x204, 0x030], ((at_ 2 n).reg 4).toNat % 2 ^ 14 = n) ∧ (∀ mb : Fin 4, 0x020 + mb.val < 0x100) := by decide +kernel

/-- SEGLD and SEGST of a slot that is live, one whose owner's record is in the spill area, a FREE one and one that is filling. -/
theorem witness_SupervisorEntryAndReturn_2 :
    let at_ := fun (f : Slot → Slot) => (slotIs (fun t => { t with privst := 1, p := t.p.set 6 2 })).modSlot 0 2 f
    let o : Spilled := ⟨1, true, some ⟨0x10, 1, 0⟩, Origin.none, [], 0⟩
    (∀ st ∈ [SlotState.parked, .contained, .lost, .reserved], ((at_ (fun t => { t with st := st })).slot 0 2).spilled = none)
    ∧ ((at_ (fun t => { t with st := .run, spilled := some o })).slot 0 2).spilled ≠ none ∧ isCore 0 = true
    ∧ (at_ (fun t => { t with st := .run, spilled := some o })).isHeld (spillAddr 0 2 + 0x80) 128 = false
    ∧ (at_ (fun t => { t with st := .fill, spilled := some o })).CanonicalMemory ∧ ((at_ id).core 0).landing = [] ∧ ((at_ id).slot 0 2).st = .free
    ∧ ((at_ (fun t => { t with st := .parked })).slot 0 2).st ≠ .free := by decide +kernel

/-- A write of a record's level and pc, and a wake of a parked slot. -/
theorem witness_HandlersReachSlotsAndControlSpace_3 :
    let s := parted.modSlot 1 15 (fun t => { t with st := .parked, park := some ⟨0x10, 1, 0⟩ })
    let m := fun (off : Nat) (v : Word) => { packet 0 1 (.control true off v 1) with part := some 0, post := some 0 }
    (∀ i ∈ [15, 107, 108], Arrives s (m (0x10000 + 0x800 * 15 + 8 * i) 3)) ∧ (s.slot 1 15).recordOpen = true ∧ bf (s.slot 1 15).privst 1 0 ≠ 2
    ∧ (some 0 : Option Nat) = s.corePart 1 ∧ Arrives s (m (0x10400 + 0x800 * 15) 1) ∧ s.controlHeld (m (0x10400 + 0x800 * 15) 1) = false := by decide +kernel

/-- A held message that the overflow router cannot be reached with; one for a core in whose ring a push of its source waits; and a request that is
on its way to the core. -/
theorem witness_HandlersQueuesAndWalks_6 :
    let lost := { parted with pkg := { parted.pkg with fencedDies := 0xFF0000 } }
    let m := { packet 1 (overflowCore 0) (.load (scratchAddr 16 0x100) 8) with part := some 0, held := some 16 }
    let push := parted.modCore 16 (fun x => { x with heldPush := [(0x1000, some (packet 1 16 (.codelet 2 (scratchAddr 16 0x1000) 0 0)))] })
    parted.offRoute m = false ∧ ({ parted with pkg := { parted.pkg with fencedDies := 0xFFFF0000 } }).offRoute m = true
    ∧ (push.core 16).heldPush.any (fun e => match e.2 with | some y => y.src == m.src | none => false) = true
    ∧ (parted.core 16).heldPush.any (fun e => match e.2 with | some y => y.src == m.src | none => false) = false := by decide +kernel

/-- A walk behind an earlier one that has not begun, tables of another root in the cache, and room in the TLB's set. -/
theorem witness_HandlersQueuesAndWalks_7 :
    let r : WalkReq := ⟨0, 0, 0, 0, 0x1FFF000000010000#64⟩
    let w : Walk := ⟨1, 0x10000, 0, 0, [], true, [r]⟩
    let first : Walk := ⟨1, 0x400000, 0, 0, [], true, [r]⟩
    let old : Pointer := ⟨1, 0x90000, 4, 0, 0x50000⟩
    let at_ := fun (ws : List Walk) => tables.modCluster 0 (fun c => { c with walks := ws, ptrs := [old] })
    let behind := fun (s : State) => ((s.cluster 0).walks.takeWhile (fun z => z != w)).any (fun z => z.level == 0)
    behind (at_ [first, w]) = true ∧ behind (at_ [w]) = false ∧ (((at_ [w]).part 0).ptroot1.toNat / 2 ^ 12 % 2 ^ 36 * 2 ^ 12 = 0x20000)
    ∧ (∀ z ∈ ((at_ [w]).cluster 0).ptrs, z.root ≠ 0x20000) ∧ old.root ≠ 0x20000
    ∧ ((at_ [w]).cluster 0).ptrs.length + w.seen.length ≤ 32 := by decide +kernel

/-- RCBs named by 0xFFF and by the package's own number, 0. -/
theorem witness_PartitionRegistersAndAdmission_3 :
    sameRcb 0x1000000000001000#64 0x1FFF000000001000#64 = true ∧ sameRcb 0x1000000000001100#64 0x1FFF000000001000#64 = false
    ∧ parted.isOwnPkg (gaPkg 0x1000000000001000#64) = true ∧ ((parted.part 0).rcbAt 0x1000000000001000#64) = some rootRcb
    ∧ parted.isOwnPkg (gaPkg 0x1005000000001000#64) = false ∧ (parted.part 0).root = 0x1FFF000000001000#64 := by decide +kernel

/-- PREEMPT and RESUME: an RCB named by the package's own number; a bulkhead of the region whose owner is another partition; and a bound channel. -/
theorem witness_RegionsAndPartitions_4 :
    let w := 0x1FFF000000001000#64
    let other := { parted with bulkheads := [(0, { Bulkhead.reset with owner := some 3 })] }
    let bound := (parted.modChannel (carafeCore 0 0) (fun h => { h with bound := some 0 }))
    parted.rcbNamed 0 w = some rootRcb ∧ parted.rcbNamed 0 0x1005000000001000#64 = none ∧ parted.ownMapped 0 rootRcb.bhmask = [0]
    ∧ (partIs (fun p => { p with rcbs := [(w, { rootRcb with withdrawn := true })] })).rcbNamed 0 w = some { rootRcb with withdrawn := true }
    ∧ other.ownMapped 0 rootRcb.bhmask = [] ∧ parted.ownMapped 0 (-1) = [0] ∧ (partIs (fun p => { p with map := [(0, 128)] })).ownMapped 0 (-1) = []
    ∧ (∃ e ∈ bound.channels, e.2.bound = some 0) ∧ (∀ e ∈ parted.channels, e.2.bound ≠ some 0) := by decide +kernel

/-- Bulkheads in K1 and K2 that are not quiet, and a K2 one whose target is K1. -/
theorem witness_BulkheadsAndPower_2 :
    let at_ := fun (h : Bulkhead) => { parted with bulkheads := [(0, h)] }
    let r := Bulkhead.reset
    (∀ k ∈ [0, 1, 2], ((at_ { r with park := k }).bulkhead 0).park = k
      ∧ (at_ { r with park := k }).parts.all (fun e => (List.range 64).all (fun u => entryState (e.2.entry u) != 1 || e.2.pbh u != 0)) = false)
    ∧ ((at_ { r with park := 4, target := 5 }).bulkhead 0).target = 5 ∧ (at_ r).commands = [] ∧ (at_ { r with park := 4, target := 5 }).CanonicalMemory
    ∧ (at_ { r with dirty := true, park := 4, target := 0 }).CanonicalMemory := by decide +kernel

/-- A port in service and one that has failed, with and without an alternate; what it has sent and what it holds; a peer's request and reply; and a
record for a peer's core. -/
theorem witness_LinksGroupAndHost_2 :
    let m := { packet 0 (peerCore 1) (.load 0x200000100 8) with part := some 0 }
    let pkg := { Pkg.reset with bridge := true, bindings := [(1, 0x8000000000000003#64)], vfs := [(2, { VFun.reset with bind := 0x8000000000001000#64 })] }
    let at_ := fun (w : Word) (down alt : List Nat) =>
      { parted with egress := [⟨0, m⟩], portHeld := [m], pkg := { pkg with groups := [(1, w)], groupDown := down, groupAlt := alt } }
    let only := 0x8000000000000000#64
    let both := 0x8000000000000110#64
    ((at_ 0 [] []).pkg.groups.getD 1 0).getLsbD 63 = false ∧ ((at_ only [] []).pkg.groups.getD 1 0).getLsbD 63 = true
    ∧ (at_ only [] []).pkg.groupDown.contains 1 = false ∧ (at_ only [1] []).pkg.groupDown.contains 1 = true
    ∧ ((at_ only [1] []).pkg.groups.getD 1 0).getLsbD 8 = false ∧ (at_ both [1] [1]).pkg.groupAlt.contains 1 = true
    ∧ (((at_ both [1] []).pkg.groups.getD 1 0).getLsbD 8 = true ∧ (at_ both [1] []).pkg.groupAlt.contains 1 = false
      ∧ (at_ both [1] []).coreAbsent (portCore (bf both 7 4)) = false ∧ (at_ both [1] []).portHeld = [m] ∧ 32768 ≤ m.dst ∧ pkgOf m.dst = 1)
    ∧ (at_ only [] []).peerOpen 1 = true ∧ (at_ only [1] []).peerOpen 1 = false ∧ (0x200000100#64).toNat / 2 ^ 43 % 32 < 16
    ∧ (at_ only [] []).boundPart 1 3 = some 0 ∧ (at_ only [] []).boundPart 1 4 = none ∧ (0#64).getLsbD 22 = false
    ∧ ((at_ only [] []).pkg.bridge = true ∧ parted.pkg.bridge = false ∧ bf (0x0001000000000010#64) 18 4 / 1024 < 16
      ∧ (at_ only [] []).isOwnPkg (bf (0x0001000000000010#64) 59 48) = false ∧ (at_ only [] []).isPeer (bf (0x0001000000000010#64) 59 48) = true)
    ∧ bf (0x0001000000000010#64) 59 48 = 1 := by decide +kernel

end Sys2Proof.Tests
end

/-! SUPPORT and O52, O56, O58: what each operation of the model does to memory, up to the step (01_machine R25, R28; log 1); the state after
reset. -/

section
namespace Sys2Proof.Machine

/-! ### Memory through the state's updates

A lemma `f_mem` says that `f` writes no byte of memory, `f_wf` that it keeps memory canonical, and `f_canonical` the same of the state a
meaning answers with. They stand in the order of the model's files, and each cites those of the operations its function is made of. Where a
`_mem` lemma holds by `rfl` it is written `by rfl`, so that `simp` takes it for a rewrite and the kernel need not compare two whole states. -/

@[simp] theorem State.mem_ite (c : Prop) [Decidable c] (a b : State) : (if c then a else b).mem = if c then a.mem else b.mem :=
  apply_ite State.mem c a b

@[simp] theorem State.mem_foldl {α : Type} (f : State → α → State) (l : List α) (s : State) (h : ∀ q x, (f q x).mem = q.mem) :
    (l.foldl f s).mem = s.mem := by
  induction l generalizing s with
  | nil => rfl
  | cons x l ih => exact (ih _).trans (h _ _)

theorem State.mem_withPoison (s : State) (p) : ({ s with poison := p } : State).mem = s.mem := by rfl
theorem State.mem_withPkg (s : State) (p) : ({ s with pkg := p } : State).mem = s.mem := by rfl
theorem State.mem_withCommands (s : State) (l) : ({ s with commands := l } : State).mem = s.mem := by rfl

@[simp] theorem State.mem_foldl_modCore {α : Type} (c : State → α → CoreId) (g : State → α → Core → Core) (l : List α) (s : State) :
    (l.foldl (fun q x => q.modCore (c q x) (g q x)) s).mem = s.mem := State.mem_foldl _ _ _ (fun _ _ => rfl)

@[simp] theorem State.mem_foldl_modCluster {α : Type} (c : State → α → Nat) (g : State → α → Cluster → Cluster) (l : List α)
    (s : State) : (l.foldl (fun q x => q.modCluster (c q x) (g q x)) s).mem = s.mem := State.mem_foldl _ _ _ (fun _ _ => rfl)

/-- A fold keeps memory canonical when each of its steps does. -/
theorem State.wf_foldl {α : Type} {f : State → α → State} {l : List α} {s : State} (h : Memory.wf s.mem = true)
    (hf : ∀ q x, Memory.wf q.mem = true → Memory.wf (f q x).mem = true) : Memory.wf (l.foldl f s).mem = true := by
  induction l generalizing s with
  | nil => exact h
  | cons x l ih => exact ih (hf _ _ h)

@[simp] theorem State.wf_putMem {s : State} (h : Memory.wf s.mem = true) {a bs} : Memory.wf (s.putMem a bs).mem = true := State.putMem_wf _ _ _ h

@[simp] theorem State.wf_putPoison {s : State} (h : Memory.wf s.mem = true) {a bs} : Memory.wf (s.putPoison a bs).mem = true :=
  State.putPoison_wf _ _ _ h

@[simp] theorem State.wf_zeroBytes {s : State} (h : Memory.wf s.mem = true) {a n} : Memory.wf (s.zeroBytes a n).mem = true :=
  State.zeroBytes_wf _ _ _ h

@[simp] theorem State.wf_performWrite {s : State} (h : Memory.wf s.mem = true) {a bs} : Memory.wf (s.performWrite a bs).mem = true :=
  State.performWrite_wf _ _ _ h

@[simp] theorem State.wf_writeNat {s : State} (h : Memory.wf s.mem = true) {a n v} : Memory.wf (s.writeNat a n v).mem = true :=
  State.writeNat_wf _ _ _ _ h

@[simp] theorem State.wf_writeWord {s : State} (h : Memory.wf s.mem = true) {a v} : Memory.wf (s.writeWord a v).mem = true :=
  State.writeWord_wf _ _ _ h

@[simp] theorem State.wf_writeWords {s : State} (h : Memory.wf s.mem = true) {a ws} : Memory.wf (s.writeWords a ws).mem = true :=
  State.writeWords_wf _ _ _ h

theorem State.wf_foldr {α : Type} {f : α → State → State} {l : List α} {s : State} (h : Memory.wf s.mem = true)
    (hf : ∀ q x, Memory.wf q.mem = true → Memory.wf (f x q).mem = true) : Memory.wf (l.foldr f s).mem = true := by
  induction l with
  | nil => exact h
  | cons x l ih => exact hf _ _ ih

theorem State.wf_getD {s : State} (h : Memory.wf s.mem = true) {o : Option State} (ho : ∀ t, o = some t → Memory.wf t.mem = true) :
    Memory.wf (o.getD s).mem = true := by
  cases o with
  | none => exact h
  | some t => exact ho t rfl

/-- Where it answers a next state, the memory of that state is in its canonical form. -/
def Result.Canonical (r : Result) : Prop := ∀ t, r = .next t → Memory.wf t.mem = true

@[simp] theorem Result.canonical_next {t : State} : Result.Canonical (.next t) ↔ Memory.wf t.mem = true :=
  ⟨fun h => h t rfl, fun h _ e => Host.Outcome.next.inj e ▸ h⟩

/-! ### Store -/

@[simp] theorem State.modCur_mem (s : State) (f) : (s.modCur f).mem = s.mem := by rfl

@[simp] theorem storeReg_mem (s : State) (c k r v) : (storeReg s c k r v).mem = s.mem := by
  unfold storeReg
  split <;> simp

@[simp] theorem storeVec_mem (s : State) (c k r v) : (storeVec s c k r v).mem = s.mem := by
  unfold storeVec
  split <;> rfl

@[simp] theorem writeReg_mem (s : State) (c k r v) : (writeReg s c k r v).mem = s.mem := by
  unfold writeReg
  split <;> simp

@[simp] theorem writeVec_mem (s : State) (c k r v) : (writeVec s c k r v).mem = s.mem := by
  unfold writeVec
  split <;> simp

@[simp] theorem backReg_mem (s : State) (c k r v) : (backReg s c k r v).mem = s.mem := by
  unfold backReg
  split <;> simp

@[simp] theorem backVec_mem (s : State) (c k r v) : (backVec s c k r v).mem = s.mem := by
  unfold backVec
  split <;> simp

@[simp] theorem giveReg_mem (wb) (s : State) (c k r v) : (giveReg wb s c k r v).mem = s.mem := by
  unfold giveReg
  split <;> simp

@[simp] theorem giveVec_mem (wb) (s : State) (c k r v) : (giveVec wb s c k r v).mem = s.mem := by
  unfold giveVec
  split <;> simp

@[simp] theorem writeDest_mem (s : State) (c k d v) : (writeDest s c k d v).mem = s.mem := by
  unfold writeDest
  split <;> simp

@[simp] theorem setPending_mem (s : State) (c k r b) : (setPending s c k r b).mem = s.mem := by
  unfold setPending
  split <;> simp

@[simp] theorem completeReg_mem (s : State) (c k r v) : (completeReg s c k r v).mem = s.mem := by
  unfold completeReg
  split <;> simp

@[simp] theorem State.noteRow_mem (s : State) (part a) : (s.noteRow part a).mem = s.mem := by
  unfold State.noteRow
  split <;> simp

/-! ### Ops -/

@[simp] theorem State.queueRecord_mem (s : State) (part header payload) : (s.queueRecord part header payload).mem = s.mem := by rfl
@[simp] theorem State.report_mem (s : State) (agent w f) : (s.report agent w f).mem = s.mem := by simp [State.report]
@[simp] theorem State.contain_mem (s : State) (c k f) : (s.contain c k f).mem = s.mem := by simp [State.contain]

@[simp] theorem State.retireTo_mem (s : State) (c k pc r head) : (s.retireTo c k pc r head).mem = s.mem := by
  unfold State.retireTo
  dsimp only
  split <;> simp

@[simp] theorem State.retire_mem (s : State) (c k r) : (s.retire c k r).mem = s.mem := by simp [State.retire]
@[simp] theorem State.done_mem (s : State) (r) : (s.done r).mem = s.mem := by simp [State.done]
@[simp] theorem State.doneTo_mem (s : State) (pc r) : (s.doneTo pc r).mem = s.mem := by simp [State.doneTo]
@[simp] theorem State.blockAt_mem (s : State) (c k w) : (s.blockAt c k w).mem = s.mem := by rfl
@[simp] theorem State.cancelAt_mem (s : State) (c k why) : (s.cancelAt c k why).mem = s.mem := by rfl

@[simp] theorem State.unlessPending_mem (s : State) (names) {body : State} (hb : body.mem = s.mem) : (s.unlessPending names body).mem = s.mem := by
  unfold State.unlessPending
  split
  · rfl
  · exact hb

@[simp] theorem State.unlessPending_wf {s body : State} (h : Memory.wf s.mem = true) (hb : Memory.wf body.mem = true) {names} :
    Memory.wf (s.unlessPending names body).mem = true := by
  unfold State.unlessPending
  split
  · exact h
  · exact hb

@[simp] theorem State.wakeFor_mem (s : State) (c p) : (s.wakeFor c p).mem = s.mem := by rfl
@[simp] theorem State.wakePending_mem (s : State) (c k d n) : (s.wakePending c k d n).mem = s.mem := by rfl
@[simp] theorem State.meetWake_mem (s : State) (c k) : (s.meetWake c k).mem = s.mem := by rfl
@[simp] theorem State.outsideFault_mem (s : State) (c k ga) : (s.outsideFault c k ga).mem = s.mem := by simp [State.outsideFault]

@[simp] theorem State.answer_mem (s : State) (m st value flags addr info) : (s.answer m st value flags addr info).mem = s.mem := by
  unfold State.answer
  split <;> simp

@[simp] theorem State.answerWith_mem (s : State) (m st value) : (s.answerWith m st value).mem = s.mem := by simp [State.answerWith]
@[simp] theorem State.answerStatus_mem (s : State) (m st) : (s.answerStatus m st).mem = s.mem := by simp [State.answerStatus]
@[simp] theorem State.answerWaiterAs_mem (s : State) (home w st v) : (s.answerWaiterAs home w st v).mem = s.mem := by simp [State.answerWaiterAs]
@[simp] theorem State.evalRange_mem (s : State) (a n) : (s.evalRange a n).mem = s.mem := by simp [State.evalRange]
@[simp] theorem State.storeLocal_mem (s : State) (c k a bs) : (s.storeLocal c k a bs).mem = s.mem := by rfl

@[simp] theorem State.powerFor_mem (s : State) (a n) : (s.powerFor a n).mem = s.mem := by
  unfold State.powerFor
  split <;> rfl

@[simp] theorem State.holdAt_mem (s : State) (c k a n) : (s.holdAt c k a n).mem = s.mem := by simp [State.holdAt]
@[simp] theorem State.holdLocal_mem (s : State) (a n) : (s.holdLocal a n).mem = s.mem := by simp [State.holdLocal]

/-! ### Operands -/

@[simp] theorem State.putReg_mem (s : State) (r v) : (s.putReg r v).mem = s.mem := by simp [State.putReg]
@[simp] theorem State.putVec_mem (s : State) (r v) : (s.putVec r v).mem = s.mem := by simp [State.putVec]
@[simp] theorem State.wakeSlot_mem (s : State) (c k) : (s.wakeSlot c k).mem = s.mem := by rfl
@[simp] theorem State.touchPage_mem (s : State) (c k cls va) : (s.touchPage c k cls va).mem = s.mem := by simp [State.touchPage]

@[simp] theorem State.pageOk_mem (s : State) (c cls va) : (s.pageOk c cls va).mem = s.mem := by
  unfold State.pageOk
  dsimp only
  rw [State.mem_ite, State.mem_foldl (fun q (t : CoreId × Nat) => q.wakeSlot t.1 t.2) _ _ (fun _ _ => rfl), State.modCluster_mem, ite_self]

@[simp] theorem State.dropSpares_mem (s : State) (c k) : (s.dropSpares c k).mem = s.mem := by
  unfold State.dropSpares
  split <;> rfl

@[simp] theorem State.pageFault_mem (s : State) (c k cls va ga access cause level) : (s.pageFault c k cls va ga access cause level).mem = s.mem := by
  simp [State.pageFault]

@[simp] theorem State.startWalk_mem (s : State) (cls va access ga) : (s.startWalk cls va access ga).mem = s.mem := by rfl

@[simp] theorem State.withTranslation_mem (s : State) (ga cls va access) {body : State → Nat → State} (hb : ∀ q pa, (body q pa).mem = q.mem) :
    (s.withTranslation ga cls va access body).mem = s.mem := by
  unfold State.withTranslation
  split <;> simp [hb]

theorem State.withTranslation_wf {s : State} (h : Memory.wf s.mem = true) {ga cls va access} {body : State → Nat → State}
    (hb : ∀ q pa, Memory.wf q.mem = true → Memory.wf (body q pa).mem = true) :
    Memory.wf (s.withTranslation ga cls va access body).mem = true := by
  unfold State.withTranslation
  split
  · exact hb _ _ (by simp [h])
  · simp [h]
  · simp [h]

/-! ### Flags -/

@[simp] theorem State.raiseAt_mem (s : State) (c k f) : (s.raiseAt c k f).mem = s.mem := by rfl
@[simp] theorem State.raise_mem (s : State) (f) : (s.raise f).mem = s.mem := by rfl
@[simp] theorem State.countConversion_mem (s : State) : (s.countConversion).mem = s.mem := by rfl

/-! ### Integer -/

@[simp] theorem State.plain_mem (s : State) (len names) {effect : State → State} (he : (effect s).mem = s.mem) :
    (s.plain len names effect).mem = s.mem :=
  State.unlessPending_mem _ _ (by simp [he])

theorem State.scalarOp_canonical {s : State} (h : Memory.wf s.mem = true) {len names d v} : Result.Canonical (s.scalarOp len names d v) := by
  simp [State.scalarOp, h]

theorem State.iterative_canonical {s : State} (h : Memory.wf s.mem = true) {unit names d v f delay} :
    Result.Canonical (s.iterative unit names d v f delay) := by
  simp [State.iterative, h]

/-! ### Context -/

@[simp] theorem State.pushRing_wf {s : State} (h : Memory.wf s.mem = true) {c desc} : Memory.wf (s.pushRing c desc).mem = true := by
  rw [State.pushRing, State.modCore_mem]
  exact State.wf_writeWord h

@[simp] theorem State.pushDesc_wf {s : State} (h : Memory.wf s.mem = true) {c desc w} : Memory.wf (s.pushDesc c desc w).mem = true := by
  simp [State.pushDesc, h]

@[simp] theorem State.endStep_wf {s : State} (h : Memory.wf s.mem = true) {c desc count} : Memory.wf (s.endStep c desc count).mem = true := by
  unfold State.endStep
  dsimp only
  repeat' split
  all_goals simp [h]

@[simp] theorem State.endCodelet_wf {s : State} (h : Memory.wf s.mem = true) {c desc count} : Memory.wf (s.endCodelet c desc count).mem = true := by
  unfold State.endCodelet
  split
  · rw [State.modCore_mem, State.powerFor_mem, State.powerFor_mem]
    exact h
  · exact State.endStep_wf h

@[simp] theorem State.releaseKeys_mem (s : State) (c k) : (s.releaseKeys c k).mem = s.mem := by simp [State.releaseKeys]

@[simp] theorem State.endContext_wf {s : State} (h : Memory.wf s.mem = true) {c k count} : Memory.wf (s.endContext c k count).mem = true := by
  unfold State.endContext
  dsimp only
  split <;> simp [h]

@[simp] theorem State.noteGrant_mem (s : State) (c n) : (s.noteGrant c n).mem = s.mem := by rfl
@[simp] theorem State.startContext_mem (s : State) (c k pc args rcb o) : (s.startContext c k pc args rcb o).mem = s.mem := by rfl

/-! ### Strands -/

theorem State.branch_canonical {s : State} (h : Memory.wf s.mem = true) {len names taken delta} :
    Result.Canonical (s.branch len names taken delta) := by
  simp [State.branch, h]

theorem execJal_canonical {s : State} (h : Memory.wf s.mem = true) {d i} : Result.Canonical (execJal d i s) := by simp [execJal, h]
theorem execJalr_canonical {s : State} (h : Memory.wf s.mem = true) {d a i} : Result.Canonical (execJalr d a i s) := by simp [execJalr, h]

theorem execFork_canonical {s : State} (h : Memory.wf s.mem = true) {d a b} : Result.Canonical (execFork d a b s) := by
  unfold execFork
  dsimp only
  split <;> simp [h]

@[simp] theorem State.halt_mem (s : State) (r count mask succ) : (s.halt r count mask succ).mem = s.mem := by rfl
theorem execHalt_canonical {s : State} (h : Memory.wf s.mem = true) : Result.Canonical (execHalt s) := by simp [execHalt, h]

@[simp] theorem State.haltNow_wf {s : State} (h : Memory.wf s.mem = true) {c k r count mask succ} :
    Memory.wf (s.haltNow c k r count mask succ).mem = true := by
  unfold State.haltNow
  dsimp only
  repeat' split
  all_goals simp [h]

theorem execHaltk_canonical {s : State} (h : Memory.wf s.mem = true) {a b} : Result.Canonical (execHaltk a b s) := by simp [execHaltk, h]
theorem execYield_canonical {s : State} (h : Memory.wf s.mem = true) {a} : Result.Canonical (execYield a s) := by simp [execYield, h]

theorem execWake_canonical {s : State} (h : Memory.wf s.mem = true) {a} : Result.Canonical (execWake a s) := by
  unfold execWake
  dsimp only
  split <;> simp [h]

theorem execBsig_canonical {s : State} (h : Memory.wf s.mem = true) {sig} : Result.Canonical (execBsig sig s) := by simp [execBsig, h]

/-! ### Access -/

@[simp] theorem State.acquire_mem (s : State) (c k) : (s.acquire c k).mem = s.mem := by rfl

@[simp] theorem State.deliver_mem (wb) (s : State) (c k use v f) : (State.deliver wb s c k use v f).mem = s.mem := by
  unfold State.deliver
  split <;> simp

@[simp] theorem State.holdAccessAt_mem (s : State) (c k a n use data r) : (s.holdAccessAt c k a n use data r).mem = s.mem := by
  simp [State.holdAccessAt]

@[simp] theorem State.holdAccess_mem (s : State) (a n use data r) : (s.holdAccess a n use data r).mem = s.mem := by simp [State.holdAccess]

@[simp] theorem State.bankAccess_wf {s : State} (h : Memory.wf s.mem = true) {c k} : Memory.wf (s.bankAccess c k).mem = true := by
  unfold State.bankAccess
  repeat' split
  all_goals simp [h]

@[simp] theorem State.loadAt_mem (s : State) (r names a f use) : (s.loadAt r names a f use).mem = s.mem := by
  refine State.unlessPending_mem _ _ ?_
  dsimp only
  repeat' split
  all_goals simp

theorem State.scalarLoad_canonical {s : State} (h : Memory.wf s.mem = true) {len d a delta size signed} :
    Result.Canonical (s.scalarLoad len d a delta size signed) := by
  simp [State.scalarLoad, h]

theorem execLdacq_canonical {s : State} (h : Memory.wf s.mem = true) {d a z} : Result.Canonical (execLdacq d a z s) := by simp [execLdacq, h]

@[simp] theorem State.storeAt_mem (s : State) (r names a f data) : (s.storeAt r names a f data).mem = s.mem := by
  refine State.unlessPending_mem _ _ ?_
  dsimp only
  repeat' split
  all_goals simp

theorem State.scalarStore_canonical {s : State} (h : Memory.wf s.mem = true) {len d a delta size} :
    Result.Canonical (s.scalarStore len d a delta size) := by
  simp [State.scalarStore, h]

theorem execStrel_canonical {s : State} (h : Memory.wf s.mem = true) {d a z} : Result.Canonical (execStrel d a z s) := by
  unfold execStrel
  dsimp only
  repeat' split
  all_goals simp [h]

theorem execFence_canonical {s : State} (h : Memory.wf s.mem = true) {sc} : Result.Canonical (execFence sc s) := by
  unfold execFence
  split <;> simp [h]

theorem execFenceI_canonical {s : State} (h : Memory.wf s.mem = true) : Result.Canonical (execFenceI s) := by
  unfold execFenceI
  dsimp only
  split <;> simp [h]

theorem execVld_canonical {s : State} (h : Memory.wf s.mem = true) {d a i} : Result.Canonical (execVld d a i s) := by
  unfold execVld
  dsimp only
  repeat' split
  all_goals simp [h]

theorem execVst_canonical {s : State} (h : Memory.wf s.mem = true) {d a i} : Result.Canonical (execVst d a i s) := by
  unfold execVst
  dsimp only
  repeat' split
  all_goals simp [h]

/-! ### Channel -/

@[simp] theorem State.queueAccess_mem (s : State) (x) : (s.queueAccess x).mem = s.mem := by rfl
@[simp] theorem State.endAccess_mem (s : State) (x) : (s.endAccess x).mem = s.mem := by rfl

@[simp] theorem State.throughChannel_mem (s : State) (src f a) {act : State → State} (ha : ∀ q, (act q).mem = q.mem) :
    (s.throughChannel src f a act).mem = s.mem := by
  unfold State.throughChannel
  dsimp only
  repeat' split
  all_goals simp [ha]

theorem State.throughChannel_wf {s : State} (h : Memory.wf s.mem = true) {src f a} {act : State → State}
    (ha : ∀ q, Memory.wf q.mem = true → Memory.wf (act q).mem = true) : Memory.wf (s.throughChannel src f a act).mem = true := by
  unfold State.throughChannel
  dsimp only
  repeat' split
  · exact ha _ h
  · exact ha _ (by simp [h])
  all_goals simp [h]

@[simp] theorem State.carafeAccess_mem (s : State) (a) : (s.carafeAccess a).mem = s.mem := by simp [State.carafeAccess]
@[simp] theorem State.dropAccesses_mem (s : State) (p) : (s.dropAccesses p).mem = s.mem := by rfl

/-! ### Messages -/

@[simp] theorem State.mbPeek_mem (s : State) (c k n) : (s.mbPeek c k n).1.mem = s.mem := by
  unfold State.mbPeek
  dsimp only
  repeat' split
  all_goals simp

@[simp] theorem State.mbRemove_mem (s : State) (c n rsize) : (s.mbRemove c n rsize).mem = s.mem := by simp [State.mbRemove]

@[simp] theorem State.mbPopped_mem (s : State) (c n rsize) : (s.mbPopped c n rsize).mem = s.mem := by
  unfold State.mbPopped
  split <;> simp

theorem execMbpeek_canonical {s : State} (h : Memory.wf s.mem = true) {d a} : Result.Canonical (execMbpeek d a s) := by simp [execMbpeek, h]

@[simp] theorem State.popPiece_wf {s : State} (h : Memory.wf s.mem = true) {c k mb d src dst left n due handle r} :
    Memory.wf (s.popPiece c k mb d src dst left n due handle r).mem = true := by
  unfold State.popPiece
  dsimp only
  repeat' split
  all_goals simp [h]

theorem execMbpop_canonical {s : State} (h : Memory.wf s.mem = true) {d a b} : Result.Canonical (execMbpop d a b s) := by
  refine Result.canonical_next.2 ?_
  dsimp only
  repeat' split
  all_goals simp [h]

theorem execMbwait_canonical {s : State} (h : Memory.wf s.mem = true) {d a b} : Result.Canonical (execMbwait d a b s) := by simp [execMbwait, h]

@[simp] theorem State.releaseThenRequest_mem (s : State) (c k dst held scope body use r) :
    (s.releaseThenRequest c k dst held scope body use r).mem = s.mem := by
  unfold State.releaseThenRequest
  split <;> simp

@[simp] theorem State.sendPiece_mem (s : State) (c k since d dst name mb addr left got bad r) :
    (s.sendPiece c k since d dst name mb addr left got bad r).mem = s.mem := by
  unfold State.sendPiece
  dsimp only
  repeat' split
  all_goals simp

@[simp] theorem State.portStep_mem (s : State) (c) : (s.portStep c).mem = s.mem := by
  unfold State.portStep
  repeat' split
  all_goals simp

theorem execSend_canonical {s : State} (h : Memory.wf s.mem = true) {d a b} : Result.Canonical (execSend d a b s) := by
  refine Result.canonical_next.2 ?_
  dsimp only
  repeat' split
  all_goals simp [h]

theorem execActm_canonical {s : State} (h : Memory.wf s.mem = true) {d a b} : Result.Canonical (execActm d a b s) := by
  refine Result.canonical_next.2 (State.unlessPending_wf h ?_)
  repeat' split
  all_goals simp [h]

@[simp] theorem State.chainAbort_mem (s : State) (d vec ga cause r) : (s.chainAbort d vec ga cause r).mem = s.mem := by simp [State.chainAbort]

@[simp] theorem State.chainLoad_mem (s : State) (d a b vec) : (s.chainLoad d a b vec).mem = s.mem := by
  refine State.unlessPending_mem _ _ ?_
  dsimp only
  repeat' split
  all_goals simp

theorem execChld_canonical {s : State} (h : Memory.wf s.mem = true) {d a b} : Result.Canonical (execChld d a b s) := by simp [execChld, h]
theorem execChldv_canonical {s : State} (h : Memory.wf s.mem = true) {d a b} : Result.Canonical (execChldv d a b s) := by simp [execChldv, h]

/-! ### Sync -/

@[simp] theorem State.performAtomic_wf {s : State} (h : Memory.wf s.mem = true) {op dbl addr x c} :
    Memory.wf (s.performAtomic op dbl addr x c).1.mem = true := by
  simp [State.performAtomic, h]

@[simp] theorem State.amo_wf {s : State} (h : Memory.wf s.mem = true) {op d a b size} : Memory.wf (s.amo op d a b size).mem = true := by
  refine State.unlessPending_wf h ?_
  dsimp only
  split
  · simp [h]
  · repeat' split
    all_goals simp [h]
  · refine State.withTranslation_wf h (fun q pa hq => ?_)
    repeat' split
    all_goals simp [hq]
  · repeat' split
    all_goals simp [h]

@[simp] theorem State.appendLog_wf {s : State} (h : Memory.wf s.mem = true) {c rec} : Memory.wf (s.appendLog c rec).1.mem = true := by
  unfold State.appendLog
  split <;> simp [h]

theorem execLogapp_canonical {s : State} (h : Memory.wf s.mem = true) {o a b} : Result.Canonical (execLogapp o a b s) := by
  refine Result.canonical_next.2 ?_
  dsimp only
  repeat' split
  all_goals simp [h]

@[simp] theorem State.sealWait_mem (s : State) (c k due placed count d corrupt poisoned r) :
    (s.sealWait c k due placed count d corrupt poisoned r).mem = s.mem := by
  rfl

@[simp] theorem State.sealSort_wf {s : State} (h : Memory.wf s.mem = true) {c placed count} : Memory.wf (s.sealSort c placed count).mem = true := by
  simp [State.sealSort, h]

@[simp] theorem State.sealEnd_mem (s : State) (c k count d corrupt poisoned r) : (s.sealEnd c k count d corrupt poisoned r).mem = s.mem := by
  unfold State.sealEnd
  split <;> simp

@[simp] theorem State.sealNext_mem (s : State) (c k count d corrupt poisoned r) : (s.sealNext c k count d corrupt poisoned r).mem = s.mem := by
  simp [State.sealNext]

@[simp] theorem State.sealApply_wf {s : State} (h : Memory.wf s.mem = true) {c k count d corrupt poisoned r} :
    Memory.wf (s.sealApply c k count d corrupt poisoned r).mem = true := by
  unfold State.sealApply
  extract_lets
  split
  · simp [h]
  split
  · simp [h]
  split
  · simp [h]
  split <;> simp [h]

@[simp] theorem State.sealStep_wf {s : State} (h : Memory.wf s.mem = true) {c k} : Memory.wf (s.sealStep c k).mem = true := by
  unfold State.sealStep
  dsimp only
  repeat' split
  all_goals simp [h]

theorem execLogseal_canonical {s : State} (h : Memory.wf s.mem = true) {d} : Result.Canonical (execLogseal d s) := by simp [execLogseal, h]
@[simp] theorem State.setBarrier_mem (s : State) (c obj b) : (s.setBarrier c obj b).mem = s.mem := by rfl

@[simp] theorem State.releaseOne_mem (s : State) (h k obj v) : (s.releaseOne h k obj v).mem = s.mem := by
  unfold State.releaseOne
  split <;> simp

@[simp] theorem State.releaseBarrier_mem (s : State) (c obj v) : (s.releaseBarrier c obj v).mem = s.mem := by simp [State.releaseBarrier]
theorem execBarset_canonical {s : State} (h : Memory.wf s.mem = true) {d a b} : Result.Canonical (execBarset d a b s) := by simp [execBarset, h]
@[simp] theorem State.arrive_mem (wb) (s : State) (c k obj d r) : (State.arrive wb s c k obj d r).mem = s.mem := by simp [State.arrive]
theorem execBarj_canonical {s : State} (h : Memory.wf s.mem = true) {d a} : Result.Canonical (execBarj d a s) := by simp [execBarj, h]
theorem execBarw_canonical {s : State} (h : Memory.wf s.mem = true) {d a b} : Result.Canonical (execBarw d a b s) := by simp [execBarw, h]

@[simp] theorem State.performSync_wf {s : State} (h : Memory.wf s.mem = true) {op addr x} : Memory.wf (s.performSync op addr x).1.mem = true := by
  unfold State.performSync
  split <;> simp [h]

theorem State.performSync_fst_wf {s t : State} (h : Memory.wf s.mem = true) {op addr x v} (ht : s.performSync op addr x = (t, v)) :
    Memory.wf t.mem = true := by
  have hp : Memory.wf (s.performSync op addr x).1.mem = true := State.performSync_wf h
  rwa [ht] at hp

@[simp] theorem State.addWaiter_mem (s : State) (home w) : (s.addWaiter home w).mem = s.mem := by rfl

@[simp] theorem localSync_wf (wb) {s : State} (h : Memory.wf s.mem = true) {c k op addr x d r} :
    Memory.wf (State.localSync wb s c k op addr x d r).mem = true := by
  unfold State.localSync
  dsimp only
  split
  · simp [h]
  split
  · split <;> simp [h]
  split
  next hs => simp [State.performSync_fst_wf h hs]
  next hs => split <;> simp [State.performSync_fst_wf h hs]

@[simp] theorem State.syncOp_wf {s : State} (h : Memory.wf s.mem = true) {op names d a x} : Memory.wf (s.syncOp op names d a x).mem = true := by
  refine State.unlessPending_wf h ?_
  dsimp only
  split
  · simp [h]
  · split <;> simp [h]
  · refine State.withTranslation_wf h (fun q pa hq => ?_)
    repeat' split
    all_goals simp [hq]
  · repeat' split
    all_goals simp [h]

/-! ### Engines -/

@[simp] theorem State.takeEntry_mem (s : State) (c k e d kind) : (s.takeEntry c k e d kind).mem = s.mem := by simp [State.takeEntry]

@[simp] theorem State.completeRegister_wf {s : State} (h : Memory.wf s.mem = true) {c k gen d v} :
    Memory.wf (s.completeRegister c k gen d v).mem = true := by
  unfold State.completeRegister
  dsimp only
  repeat' split
  all_goals simp [h]

@[simp] theorem State.withEntry_mem (s : State) {body : Nat → State} (hb : ∀ e, (body e).mem = s.mem) : (s.withEntry body).mem = s.mem := by
  unfold State.withEntry
  split <;> simp [hb]

@[simp] theorem State.freeEntry_mem (s : State) (c e) : (s.freeEntry c e).mem = s.mem := by rfl

@[simp] theorem State.finishEntry_wf {s : State} (h : Memory.wf s.mem = true) {c e status} : Memory.wf (s.finishEntry c e status).mem = true := by
  unfold State.finishEntry
  dsimp only
  split <;> simp [h]

@[simp] theorem State.settleFenceI_mem (s : State) (c k) : (s.settleFenceI c k).mem = s.mem := by
  unfold State.settleFenceI
  split <;> simp

@[simp] theorem State.retireSpans_mem (s : State) (c p) : (s.retireSpans c p).mem = s.mem := by simp [State.retireSpans]

@[simp] theorem State.bumpHeader_wf {s : State} (h : Memory.wf s.mem = true) {pa hi lo n} : Memory.wf (s.bumpHeader pa hi lo n).mem = true := by
  simp [State.bumpHeader, h]

@[simp] theorem State.bumpRd_wf {s : State} (h : Memory.wf s.mem = true) {pa k n} : Memory.wf (s.bumpRd pa k n).mem = true := by
  unfold State.bumpRd
  split <;> simp [h]

@[simp] theorem State.toPeer_mem (s : State) (cmd ga body) : (s.toPeer cmd ga body).mem = s.mem := by
  unfold State.toPeer
  split <;> simp

@[simp] theorem State.restoreCounts_wf {s : State} (h : Memory.wf s.mem = true) {cmd} : Memory.wf (s.restoreCounts cmd).mem = true := by
  unfold State.restoreCounts
  repeat' split
  all_goals simp [h]

@[simp] theorem State.writeLineage_wf {s : State} (h : Memory.wf s.mem = true) {part n rec} : Memory.wf (s.writeLineage part n rec).mem = true := by
  unfold State.writeLineage
  dsimp only
  repeat' split
  all_goals simp [h]

@[simp] theorem State.reserveLineage_mem (s : State) (part n) : (s.reserveLineage part n).mem = s.mem := by rfl

@[simp] theorem State.dropLineage_wf {s : State} (h : Memory.wf s.mem = true) {cmd left} : Memory.wf (s.dropLineage cmd left).mem = true := by
  unfold State.dropLineage
  repeat' split
  · exact State.wf_foldl h (fun q i hq => State.writeLineage_wf hq)
  all_goals exact h

@[simp] theorem State.setPhase_mem (s : State) (id cmd ph) : (s.setPhase id cmd ph).mem = s.mem := by rfl
@[simp] theorem State.askSpan_mem (s : State) (h lo hi o) : (s.askSpan h lo hi o).mem = s.mem := by rfl

@[simp] theorem State.askEntry_mem (s : State) (id cmd left) : (s.askEntry id cmd left).mem = s.mem := by
  unfold State.askEntry
  split <;> simp

@[simp] theorem State.dropPairs_mem (s : State) (id) : (s.dropPairs id).mem = s.mem := by simp [State.dropPairs]
@[simp] theorem State.dropSaved_mem (s : State) (h p) : (s.dropSaved h p).mem = s.mem := by rfl

@[simp] theorem State.removeMember_wf {s : State} (h : Memory.wf s.mem = true) {id cmd c e} : Memory.wf (s.removeMember id cmd c e).mem = true := by
  unfold State.removeMember
  dsimp only
  repeat' split
  all_goals simp [h]

@[simp] theorem State.failMembers_wf {s : State} (h : Memory.wf s.mem = true) {id p code} : Memory.wf (s.failMembers id p code).mem = true := by
  unfold State.failMembers
  split
  · exact h
  · refine State.wf_foldl h (fun q m hq => ?_)
    split <;> simp [hq]

@[simp] theorem State.dropFetches_mem (s : State) (c p) : (s.dropFetches c p).mem = s.mem := by rfl

@[simp] theorem State.cancelCommand_wf {s : State} (h : Memory.wf s.mem = true) {c e} : Memory.wf (s.cancelCommand c e).1.mem = true := by
  unfold State.cancelCommand
  dsimp only
  repeat' split
  all_goals simp [h]

@[simp] theorem State.tokenAct_wf {s : State} (hs : Memory.wf s.mem = true) {h op tag e} : Memory.wf (s.tokenAct h op tag e).1.mem = true := by
  unfold State.tokenAct
  dsimp only
  repeat' split
  all_goals simp [hs]

theorem State.tokenAct_fst_wf {s t : State} (hs : Memory.wf s.mem = true) {h op tag e v} (ht : s.tokenAct h op tag e = (t, v)) :
    Memory.wf t.mem = true := by
  have ha : Memory.wf (s.tokenAct h op tag e).1.mem = true := State.tokenAct_wf hs
  rwa [ht] at ha

@[simp] theorem State.tokenLocal_wf {s : State} (h : Memory.wf s.mem = true) {op tag e d r} : Memory.wf (s.tokenLocal op tag e d r).mem = true := by
  unfold State.tokenLocal
  dsimp only
  split
  next ht => simp [State.tokenAct_fst_wf h ht]
  next ht => split <;> simp [State.tokenAct_fst_wf h ht]

@[simp] theorem State.queryToken_wf {s : State} (h : Memory.wf s.mem = true) {op tok d r} : Memory.wf (s.queryToken op tok d r).mem = true := by
  unfold State.queryToken
  dsimp only
  repeat' split
  all_goals simp [h]

theorem execHtst_canonical {s : State} (h : Memory.wf s.mem = true) {d a} : Result.Canonical (execHtst d a s) := by
  refine Result.canonical_next.2 (State.unlessPending_wf h ?_)
  repeat' split
  all_goals simp [h]

theorem execHwait_canonical {s : State} (h : Memory.wf s.mem = true) {d a} : Result.Canonical (execHwait d a s) := by
  unfold execHwait
  dsimp only
  split <;> simp [h]

theorem execHdet_canonical {s : State} (h : Memory.wf s.mem = true) {d a} : Result.Canonical (execHdet d a s) := by
  refine Result.canonical_next.2 ?_
  dsimp only
  repeat' split
  all_goals simp [h]

theorem execHcan_canonical {s : State} (h : Memory.wf s.mem = true) {d a} : Result.Canonical (execHcan d a s) := by
  refine Result.canonical_next.2 ?_
  dsimp only
  repeat' split
  all_goals simp [h]

/-! ### Copies -/

@[simp] theorem State.allPagesOk_mem (s : State) (c k gs) : (s.allPagesOk c k gs).mem = s.mem := by simp [State.allPagesOk]

@[simp] theorem State.withPages_mem (s : State) (gs) {body : State → State} (hb : ∀ q, (body q).mem = q.mem) :
    (s.withPages gs body).mem = s.mem := by
  unfold State.withPages
  dsimp only
  repeat' split
  all_goals simp [hb]

@[simp] theorem State.addCommand_mem (s : State) (cmd) : (s.addCommand cmd).mem = s.mem := by rfl

@[simp] theorem State.acceptCopy_mem (s : State) (form e d a q ws rows header) : (s.acceptCopy form e d a q ws rows header).mem = s.mem := by
  unfold State.acceptCopy
  dsimp only
  split <;> simp

@[simp] theorem State.checkCopy_mem (s : State) (form base ws) {body : State → CopyDesc → List CopyRow → Word → State}
    (hb : ∀ q d rows header, (body q d rows header).mem = q.mem) : (s.checkCopy form base ws body).mem = s.mem := by
  unfold State.checkCopy
  dsimp only
  repeat' split
  all_goals simp [hb]

@[simp] theorem State.copyOp_mem (s : State) (form d a) : (s.copyOp form d a).mem = s.mem := by
  refine State.unlessPending_mem _ _ (State.withEntry_mem _ (fun e => ?_))
  dsimp only
  repeat' split
  all_goals simp

theorem execCpy_canonical {s : State} (h : Memory.wf s.mem = true) {d a} : Result.Canonical (execCpy d a s) := by simp [execCpy, h]
theorem execCpyg_canonical {s : State} (h : Memory.wf s.mem = true) {d a} : Result.Canonical (execCpyg d a s) := by simp [execCpyg, h]
theorem execCpys_canonical {s : State} (h : Memory.wf s.mem = true) {d a} : Result.Canonical (execCpys d a s) := by simp [execCpys, h]

theorem execPublish_canonical {s : State} (h : Memory.wf s.mem = true) {d a b} : Result.Canonical (execPublish d a b s) := by
  refine Result.canonical_next.2 (State.unlessPending_wf h ?_)
  dsimp only
  repeat' split
  all_goals simp [h]

theorem execPusht_canonical {s : State} (h : Memory.wf s.mem = true) {d a} : Result.Canonical (execPusht d a s) := by
  refine Result.canonical_next.2 ?_
  dsimp only
  repeat' split
  all_goals simp [h]

@[simp] theorem State.completeCommand_mem (s : State) (id cmd code) : (s.completeCommand id cmd code).mem = s.mem := by simp [State.completeCommand]

theorem execMergeWindowEnd_canonical {s : State} (h : Memory.wf s.mem = true) {id} : Result.Canonical (execMergeWindowEnd id s) := by
  unfold execMergeWindowEnd
  repeat' split
  all_goals simp [h]

@[simp] theorem State.formatHeader_wf {s : State} (h : Memory.wf s.mem = true) {pa n} : Memory.wf (s.formatHeader pa n).mem = true := by
  simp [State.formatHeader, h]

@[simp] theorem State.flipHeader_wf {s : State} (h : Memory.wf s.mem = true) {pa} : Memory.wf (s.flipHeader pa).mem = true := by
  simp [State.flipHeader, h]

@[simp] theorem State.headerAct_wf {s : State} (h : Memory.wf s.mem = true) {id cmd pa} : Memory.wf (s.headerAct id cmd pa).mem = true := by
  unfold State.headerAct
  dsimp only
  repeat' split
  all_goals simp [h]

@[simp] theorem State.foreignHeader_wf {s : State} (h : Memory.wf s.mem = true) {id cmd ga} : Memory.wf (s.foreignHeader id cmd ga).mem = true := by
  unfold State.foreignHeader
  dsimp only
  repeat' split
  all_goals simp [h]

theorem execBufferHeaderAccess_canonical {s : State} (h : Memory.wf s.mem = true) {id} : Result.Canonical (execBufferHeaderAccess id s) := by
  refine Result.canonical_next.2 ?_
  repeat' split
  · simp [h]
  · exact h
  · exact State.throughChannel_wf h (fun q hq => State.headerAct_wf hq)
  · simp [h]
  · exact h
  · simp [h]
  · exact h
  · exact h

theorem execPublishFlip_canonical {s : State} (h : Memory.wf s.mem = true) {id} : Result.Canonical (execPublishFlip id s) := by
  refine Result.canonical_next.2 ?_
  repeat' split
  · exact h
  · exact State.throughChannel_wf h (fun q hq => by simp [hq])
  · exact h
  · exact h

@[simp] theorem State.spanGranted_mem (s : State) (h z) : (s.spanGranted h z).mem = s.mem := by
  unfold State.spanGranted
  repeat' split
  all_goals simp

theorem execScoreboardGrant_canonical {s : State} (hs : Memory.wf s.mem = true) {h} : Result.Canonical (execScoreboardGrant h s) := by
  unfold execScoreboardGrant
  dsimp only
  split <;> simp [hs]

@[simp] theorem State.writeCopied_wf {s : State} (h : Memory.wf s.mem = true) {a bs bad} : Memory.wf (s.writeCopied a bs bad).mem = true := by
  unfold State.writeCopied
  split <;> simp [h]

@[simp] theorem State.writePart_wf {s : State} (h : Memory.wf s.mem = true) {cmd v p} : Memory.wf (s.writePart cmd v p).mem = true := by
  unfold State.writePart
  dsimp only
  repeat' split
  all_goals simp [h]

@[simp] theorem State.retireWritten_mem (s : State) (id cmd n) : (s.retireWritten id cmd n).mem = s.mem := by simp [State.retireWritten]

@[simp] theorem State.copyEnd_wf {s : State} (h : Memory.wf s.mem = true) {id cmd} : Memory.wf (s.copyEnd id cmd).mem = true := by
  unfold State.copyEnd
  split
  · exact State.throughChannel_wf h (fun q hq => by simp [hq])
  · simp [h]

@[simp] theorem State.pieceWritten_wf {s : State} (h : Memory.wf s.mem = true) {id cmd n u bad} :
    Memory.wf (s.pieceWritten id cmd n u bad).mem = true := by
  unfold State.pieceWritten
  dsimp only
  repeat' split
  all_goals simp [h]

@[simp] theorem State.writePiece_wf {s : State} (h : Memory.wf s.mem = true) {id cmd n u parts v} :
    Memory.wf (s.writePiece id cmd n u parts v).mem = true := by
  unfold State.writePiece
  extract_lets s1 at_ abroad code ask
  split
  · simp [s1, h]
  split
  · simp [s1, h]
  · refine State.throughChannel_wf (s := s1) h (fun q hq => State.pieceWritten_wf ?_)
    exact State.wf_foldl (by split <;> exact hq) (fun r p hr => State.writePart_wf hr)

@[simp] theorem State.readPiece_wf {s : State} (h : Memory.wf s.mem = true) {id cmd n u src parts} :
    Memory.wf (s.readPiece id cmd n u src parts).mem = true := by
  unfold State.readPiece
  dsimp only
  split
  · split
    · simp [h]
    · exact State.throughChannel_wf h (fun q hq => by simp [hq])
  · split <;> simp [h]
  · exact h

theorem execCopyPiece_canonical {s : State} (h : Memory.wf s.mem = true) {id} : Result.Canonical (execCopyPiece id s) := by
  refine Result.canonical_next.2 ?_
  dsimp only
  repeat' split
  all_goals simp [h]

@[simp] theorem State.askAgain_wf {s : State} (h : Memory.wf s.mem = true) {id cmd} : Memory.wf (s.askAgain id cmd).mem = true := by
  unfold State.askAgain
  repeat' split
  all_goals simp [h]

theorem execEngineCompletion_canonical {s : State} (h : Memory.wf s.mem = true) {id} : Result.Canonical (execEngineCompletion id s) := by
  refine Result.canonical_next.2 ?_
  repeat' split
  · simp [h]
  · exact State.wf_foldl h (fun q m hq => State.finishEntry_wf hq)
  · simp [h]
  · exact h

@[simp] theorem State.channelOp_mem (s : State) (d a right access) {body : State → Nat → State} (hb : ∀ q pa, (body q pa).mem = q.mem) :
    (s.channelOp d a right access body).mem = s.mem := by
  refine State.unlessPending_mem _ _ ?_
  dsimp only
  split
  · simp
  · exact State.withTranslation_mem _ _ _ _ _ (fun q pa => by split <;> simp [hb])
  · simp

@[simp] theorem State.waitChannel_mem (s : State) (d r pa data) : (s.waitChannel d r pa data).mem = s.mem := by rfl
theorem execMcrd_canonical {s : State} (h : Memory.wf s.mem = true) {d a} : Result.Canonical (execMcrd d a s) := by simp [execMcrd, h]

theorem execMcwr_canonical {s : State} (h : Memory.wf s.mem = true) {d a} : Result.Canonical (execMcwr d a s) := by
  unfold execMcwr
  split <;> simp [h]

/-! ### ScalarFp -/

theorem State.flagOp_canonical {s : State} (h : Memory.wf s.mem = true) {names d v f} : Result.Canonical (s.flagOp names d v f) := by
  simp [State.flagOp, h]

theorem State.floatOp_canonical {s : State} (h : Memory.wf s.mem = true) {names d v} : Result.Canonical (s.floatOp names d v) :=
  State.flagOp_canonical h

theorem State.floatIter_canonical {s : State} (h : Memory.wf s.mem = true) {names d v p single double} :
    Result.Canonical (s.floatIter names d v p single double) :=
  State.iterative_canonical h

theorem execFeq_canonical {s : State} (h : Memory.wf s.mem = true) {d a b p} : Result.Canonical (execFeq d a b p s) := by
  refine Result.canonical_next.2 (State.unlessPending_wf h ?_)
  dsimp only
  simp [h]

theorem execFlt_canonical {s : State} (h : Memory.wf s.mem = true) {d a b p} : Result.Canonical (execFlt d a b p s) := by
  refine Result.canonical_next.2 (State.unlessPending_wf h ?_)
  dsimp only
  simp [h]

theorem execFle_canonical {s : State} (h : Memory.wf s.mem = true) {d a b p} : Result.Canonical (execFle d a b p s) := by
  refine Result.canonical_next.2 (State.unlessPending_wf h ?_)
  dsimp only
  simp [h]

theorem execFcvtFi_canonical {s : State} (h : Memory.wf s.mem = true) {d a k p} : Result.Canonical (execFcvtFi d a k p s) := by
  refine Result.canonical_next.2 (State.unlessPending_wf h ?_)
  split <;> simp [h]

theorem execFcvtP_canonical {s : State} (h : Memory.wf s.mem = true) {d a p} : Result.Canonical (execFcvtP d a p s) := by
  refine Result.canonical_next.2 (State.unlessPending_wf h ?_)
  split <;> simp [h]

/-! ### Vector -/

theorem State.vectorOp_canonical {s : State} (h : Memory.wf s.mem = true) {names d v} : Result.Canonical (s.vectorOp names d v) := by
  simp [State.vectorOp, h]

theorem State.laneOp_canonical {s : State} (h : Memory.wf s.mem = true) {d a b t f g} : Result.Canonical (s.laneOp d a b t f g) :=
  State.vectorOp_canonical h

theorem State.laneOp1_canonical {s : State} (h : Memory.wf s.mem = true) {d a t f g} : Result.Canonical (s.laneOp1 d a t f g) :=
  State.vectorOp_canonical h

theorem execVdiv_canonical {s : State} (h : Memory.wf s.mem = true) {d a b t} : Result.Canonical (execVdiv d a b t s) := by
  refine Result.canonical_next.2 (State.unlessPending_wf h ?_)
  split <;> simp [h]

theorem State.compareOp_canonical {s : State} (h : Memory.wf s.mem = true) {d a b t code f} : Result.Canonical (s.compareOp d a b t code f) :=
  State.vectorOp_canonical h

theorem execVshuf_canonical {s : State} (h : Memory.wf s.mem = true) {d a b t} : Result.Canonical (execVshuf d a b t s) := by
  refine Result.canonical_next.2 (State.unlessPending_wf h ?_)
  dsimp only
  simp [h]

theorem execVbcast_canonical {s : State} (h : Memory.wf s.mem = true) {d a t} : Result.Canonical (execVbcast d a t s) := by
  refine Result.canonical_next.2 ?_
  dsimp only
  simp [h]

theorem execVextr_canonical {s : State} (h : Memory.wf s.mem = true) {d a b t} : Result.Canonical (execVextr d a b t s) := by simp [execVextr, h]

theorem execVins_canonical {s : State} (h : Memory.wf s.mem = true) {d a b t} : Result.Canonical (execVins d a b t s) := by
  refine Result.canonical_next.2 ?_
  dsimp only
  simp [h]

theorem State.reduceOp_canonical {s : State} (h : Memory.wf s.mem = true) {d a t f g} : Result.Canonical (s.reduceOp d a t f g) := by
  simp [State.reduceOp, h]

theorem execVdot_canonical {s : State} (h : Memory.wf s.mem = true) {d a b t} : Result.Canonical (execVdot d a b t s) := by
  refine Result.canonical_next.2 (State.unlessPending_wf h ?_)
  split <;> simp [h]

theorem execVcvt_canonical {s : State} (h : Memory.wf s.mem = true) {d a t st n} : Result.Canonical (execVcvt d a t st n s) := by simp [execVcvt, h]
theorem State.sfuOp_canonical {s : State} (h : Memory.wf s.mem = true) {fn d a t} : Result.Canonical (s.sfuOp fn d a t) := State.iterative_canonical h

/-! ### Press -/

@[simp] theorem State.acceptPress_mem (s : State) (d r mk) : (s.acceptPress d r mk).mem = s.mem := by
  unfold State.acceptPress
  dsimp only
  split <;> simp

@[simp] theorem State.matrix_mem (s : State) (fn f n a b) : (s.matrix fn f n a b).mem = s.mem := by
  refine State.unlessPending_mem _ _ ?_
  dsimp only
  repeat' split
  all_goals simp

theorem execMma_canonical {s : State} (h : Memory.wf s.mem = true) {f n a b} : Result.Canonical (execMma f n a b s) := by simp [execMma, h]
theorem execMmag_canonical {s : State} (h : Memory.wf s.mem = true) {f n a b} : Result.Canonical (execMmag f n a b s) := by simp [execMmag, h]
theorem execMxzero_canonical {s : State} (h : Memory.wf s.mem = true) {d b} : Result.Canonical (execMxzero d b s) := by simp [execMxzero, h]

theorem execMxlda_canonical {s : State} (h : Memory.wf s.mem = true) {d a b} : Result.Canonical (execMxlda d a b s) := by
  refine Result.canonical_next.2 ?_
  dsimp only
  repeat' split
  all_goals simp [h]

theorem execMxst_canonical {s : State} (h : Memory.wf s.mem = true) {d a b} : Result.Canonical (execMxst d a b s) := by
  refine Result.canonical_next.2 ?_
  dsimp only
  repeat' split
  all_goals simp [h]

theorem execMxepi_canonical {s : State} (h : Memory.wf s.mem = true) {a} : Result.Canonical (execMxepi a s) := by
  unfold execMxepi
  dsimp only
  split <;> simp [h]

@[simp] theorem State.fetchOperand_mem (s : State) (c p z) : (s.fetchOperand c p z).mem = s.mem := by
  unfold State.fetchOperand
  dsimp only
  repeat' split
  all_goals simp

theorem execPressFetch_canonical {s : State} (h : Memory.wf s.mem = true) {c} : Result.Canonical (execPressFetch c s) := by
  unfold execPressFetch
  split <;> simp [h]

@[simp] theorem State.storeTile_wf {s : State} (h : Memory.wf s.mem = true) {p ofmt els poisoned} :
    Memory.wf (s.storeTile p ofmt els poisoned).mem = true := by
  refine State.wf_foldl h (fun q m hq => ?_)
  dsimp only
  split <;> simp [hq]

@[simp] theorem State.pressEffect_wf {s : State} (h : Memory.wf s.mem = true) {c p} : Memory.wf (s.pressEffect c p).1.mem = true := by
  unfold State.pressEffect
  dsimp only
  repeat' split
  all_goals simp [h]

theorem execPressStart_canonical {s : State} (h : Memory.wf s.mem = true) {cl} : Result.Canonical (execPressStart cl s) := by
  refine Result.canonical_next.2 ?_
  dsimp only
  repeat' split
  all_goals simp [h]

theorem execPressComplete_canonical {s : State} (h : Memory.wf s.mem = true) {cl} : Result.Canonical (execPressComplete cl s) := by
  refine Result.canonical_next.2 ?_
  dsimp only
  repeat' split
  all_goals simp [h]

/-! ### Tasks -/

@[simp] theorem State.performCodelet_wf {s : State} (hs : Memory.wf s.mem = true) {h op desc n rcb} :
    Memory.wf (s.performCodelet h op desc n rcb).s.mem = true := by
  unfold State.performCodelet
  dsimp only
  repeat' split
  all_goals simp [hs]

@[simp] theorem State.codeletSend_mem (s : State) (op d r dst held addr n) : (s.codeletSend op d r dst held addr n).mem = s.mem := by
  unfold State.codeletSend
  split <;> simp

@[simp] theorem State.codeletOp_wf {s : State} (h : Memory.wf s.mem = true) {op names d a n} : Memory.wf (s.codeletOp op names d a n).mem = true := by
  refine State.unlessPending_wf h ?_
  dsimp only
  repeat' split
  all_goals simp [h]

theorem execClinit_canonical {s : State} (h : Memory.wf s.mem = true) {d a b} : Result.Canonical (execClinit d a b s) := by simp [execClinit, h]
theorem execCldec_canonical {s : State} (h : Memory.wf s.mem = true) {d a} : Result.Canonical (execCldec d a s) := by simp [execCldec, h]
theorem execClpush_canonical {s : State} (h : Memory.wf s.mem = true) {d a} : Result.Canonical (execClpush d a s) := by simp [execClpush, h]
theorem execClend_canonical {s : State} (h : Memory.wf s.mem = true) {b} : Result.Canonical (execClend b s) := by simp [execClend, h]
theorem execQpush_canonical {s : State} (h : Memory.wf s.mem = true) {d a b} : Result.Canonical (execQpush d a b s) := by simp [execQpush, h]
theorem execQpop_canonical {s : State} (h : Memory.wf s.mem = true) {d a} : Result.Canonical (execQpop d a s) := by simp [execQpop, h]
theorem execQpopw_canonical {s : State} (h : Memory.wf s.mem = true) {d a b} : Result.Canonical (execQpopw d a b s) := by simp [execQpopw, h]
theorem execChnk_canonical {s : State} (h : Memory.wf s.mem = true) {d a b} : Result.Canonical (execChnk d a b s) := by simp [execChnk, h]

/-! ### Population -/

@[simp] theorem State.fitAtWb_mem (s : State) (c k d v) : (s.fitAtWb c k d v).mem = s.mem := by rfl
theorem execFitset_canonical {s : State} (h : Memory.wf s.mem = true) {d a} : Result.Canonical (execFitset d a s) := by simp [execFitset, h]

theorem execFitget_canonical {s : State} (h : Memory.wf s.mem = true) {d a} : Result.Canonical (execFitget d a s) := by
  refine Result.canonical_next.2 (State.unlessPending_wf h ?_)
  repeat' split
  all_goals simp [h]

@[simp] theorem State.sampleMember_mem (s : State) (v k) : (s.sampleMember v k).mem = s.mem := by
  unfold State.sampleMember
  split <;> simp

@[simp] theorem State.sampleAll_mem (s : State) (keys) : (s.sampleAll keys).mem = s.mem := by simp [State.sampleAll]

theorem execPoprank_canonical {s : State} (h : Memory.wf s.mem = true) {d a} : Result.Canonical (execPoprank d a s) := by
  refine Result.canonical_next.2 ?_
  dsimp only
  repeat' split
  all_goals simp [h]

@[simp] theorem State.finishRank_wf {s : State} (h : Memory.wf s.mem = true) {c k d out desc keys got r} :
    Memory.wf (s.finishRank c k d out desc keys got r).mem = true := by
  unfold State.finishRank
  split <;> simp [h]

@[simp] theorem State.takeSample_wf {s : State} (h : Memory.wf s.mem = true) {m req index value} :
    Memory.wf (s.takeSample m req index value).mem = true := by
  unfold State.takeSample
  dsimp only
  repeat' split
  all_goals simp [h]

@[simp] theorem State.powerSample_mem (s : State) (m req) : (s.powerSample m req).mem = s.mem := by
  unfold State.powerSample
  split <;> simp

@[simp] theorem State.serveFit_mem (s : State) (m) : (s.serveFit m).mem = s.mem := by
  unfold State.serveFit
  split <;> simp

theorem State.acceptBlend_mem (s : State) {c k e d ws table group t} (h : s.acceptBlend c k e d ws table group = .ok t) : t.mem = s.mem := by
  unfold State.acceptBlend at h
  dsimp only at h
  split at h
  · cases h
  · obtain rfl := Except.ok.inj h
    simp

@[simp] theorem State.blendOp_mem (s : State) (d a group) : (s.blendOp d a group).mem = s.mem := by
  refine State.unlessPending_mem _ _ (State.withEntry_mem _ (fun e => ?_))
  dsimp only
  repeat' split
  any_goals simp
  all_goals exact State.acceptBlend_mem s ‹_›

@[simp] theorem State.blendStep_mem (s : State) (c k) : (s.blendStep c k).mem = s.mem := by
  unfold State.blendStep
  dsimp only
  repeat' split
  any_goals simp
  exact State.acceptBlend_mem s ‹_›

theorem execBlend_canonical {s : State} (h : Memory.wf s.mem = true) {d a} : Result.Canonical (execBlend d a s) := by simp [execBlend, h]
theorem execBlendx_canonical {s : State} (h : Memory.wf s.mem = true) {d a} : Result.Canonical (execBlendx d a s) := by simp [execBlendx, h]
@[simp] theorem State.endPair_mem (s : State) (id pair cmd left code f) : (s.endPair id pair cmd left code f).mem = s.mem := by rfl

@[simp] theorem State.arrivalSeq_mem (s : State) (l peer cmd pair n) : (s.arrivalSeq l peer cmd pair n).1.mem = s.mem := by
  unfold State.arrivalSeq
  dsimp only
  split <;> simp

@[simp] theorem State.recordArrival_wf {s : State} (h : Memory.wf s.mem = true) {l q copied} : Memory.wf (s.recordArrival l q copied).mem = true := by
  unfold State.recordArrival
  dsimp only
  repeat' split
  all_goals simp [h]

@[simp] theorem State.pairLineage_wf {s : State} (h : Memory.wf s.mem = true) {cmd m pair copied} :
    Memory.wf (s.pairLineage cmd m pair copied).mem = true := by
  unfold State.pairLineage
  split <;> simp [h]

@[simp] theorem State.pairAbsent_wf {s : State} (h : Memory.wf s.mem = true) {id pair cmd m left f} :
    Memory.wf (s.pairAbsent id pair cmd m left f).mem = true := by
  unfold State.pairAbsent
  split <;> simp [h]

@[simp] theorem State.startPair_wf {s : State} (h : Memory.wf s.mem = true) {id pair cmd m left} :
    Memory.wf (s.startPair id pair cmd m left).mem = true := by
  unfold State.startPair
  dsimp only
  repeat' split
  all_goals simp [h]

@[simp] theorem State.finishPair_wf {s : State} (h : Memory.wf s.mem = true) {id cmd m left w} :
    Memory.wf (s.finishPair id cmd m left w).mem = true := by
  unfold State.finishPair
  dsimp only
  repeat' split
  all_goals simp [h]

@[simp] theorem State.pairNext_wf {s : State} (h : Memory.wf s.mem = true) {id cmd m left w off n} :
    Memory.wf (s.pairNext id cmd m left w off n).mem = true := by
  unfold State.pairNext
  split <;> simp [h]

@[simp] theorem State.pairPiece_wf {s : State} (h : Memory.wf s.mem = true) {id cmd m left w off} :
    Memory.wf (s.pairPiece id cmd m left w off).mem = true := by
  unfold State.pairPiece
  dsimp only
  repeat' split
  all_goals simp [h]

theorem execBlendPair_canonical {s : State} (h : Memory.wf s.mem = true) {id pair} : Result.Canonical (execBlendPair id pair s) := by
  unfold execBlendPair
  repeat' split
  all_goals simp [h]

@[simp] theorem State.copyRecord_wf {s : State} (h : Memory.wf s.mem = true) {part n a} : Memory.wf (s.copyRecord part n a).mem = true := by
  unfold State.copyRecord
  repeat' split
  all_goals simp [h]

@[simp] theorem State.lineageStep_wf {s : State} (h : Memory.wf s.mem = true) {c k} : Memory.wf (s.lineageStep c k).mem = true := by
  unfold State.lineageStep
  dsimp only
  repeat' split
  all_goals simp [h]

theorem execLinrd_canonical {s : State} (h : Memory.wf s.mem = true) {d a b} : Result.Canonical (execLinrd d a b s) := by
  refine Result.canonical_next.2 ?_
  dsimp only
  repeat' split
  all_goals simp [h]

@[simp] theorem State.finishColl_wf {s : State} (h : Memory.wf s.mem = true) {c id status} : Memory.wf (s.finishColl c id status).mem = true := by
  unfold State.finishColl
  dsimp only
  repeat' split
  all_goals simp [h]

@[simp] theorem State.abortAt_wf {s : State} (h : Memory.wf s.mem = true) {c id n} : Memory.wf (s.abortAt c id n).mem = true := by
  unfold State.abortAt
  split <;> simp [h]

@[simp] theorem State.applyAbort_wf {s : State} (h : Memory.wf s.mem = true) {c part id n} : Memory.wf (s.applyAbort c part id n).mem = true := by
  unfold State.applyAbort
  split <;> simp [h]

@[simp] theorem State.acceptColl_wf {s : State} (h : Memory.wf s.mem = true) {d a e ws src dst} :
    Memory.wf (s.acceptColl d a e ws src dst).mem = true := by
  unfold State.acceptColl
  dsimp only
  split <;> simp [h]

theorem execColl_canonical {s : State} (h : Memory.wf s.mem = true) {d a} : Result.Canonical (execColl d a s) := by
  refine Result.canonical_next.2 (State.unlessPending_wf h ?_)
  unfold State.withEntry
  repeat' split
  all_goals simp [h]

@[simp] theorem State.deliverColl_wf {s : State} (h : Memory.wf s.mem = true) {id att seq status x} :
    Memory.wf (s.deliverColl id att seq status x).mem = true := by
  unfold State.deliverColl
  repeat' split
  all_goals simp [h]

@[simp] theorem State.writeResult_wf {s : State} (h : Memory.wf s.mem = true) {a ws bad} : Memory.wf (s.writeResult a ws bad).mem = true :=
  State.wf_foldl h (fun q p hq => by split <;> simp [hq])

@[simp] theorem State.combineAll_wf {s : State} (h : Memory.wf s.mem = true) {id att seq got} :
    Memory.wf (s.combineAll id att seq got).mem = true := by
  unfold State.combineAll
  split
  · exact h
  · refine State.wf_foldl (State.wf_foldl h (fun q z hq => ?_)) (fun q z hq => by simp [hq])
    repeat' split
    all_goals simp [hq]

@[simp] theorem State.powerResults_mem (s : State) (got) : (s.powerResults got).mem = s.mem :=
  State.mem_foldl _ _ _ (fun q z => by split <;> simp)

@[simp] theorem State.joinColl_wf {s : State} (h : Memory.wf s.mem = true) {part id att seq x} :
    Memory.wf (s.joinColl part id att seq x).mem = true := by
  unfold State.joinColl
  extract_lets mine older others inst got failed next
  have hn : Memory.wf next.mem = true := h
  split
  · exact h
  split
  · exact State.wf_foldl h (fun q z hq => State.deliverColl_wf hq)
  split
  · exact State.wf_foldl hn (fun q z hq => State.deliverColl_wf hq)
  split
  · exact State.combineAll_wf hn
  · exact hn

@[simp] theorem State.contribute_wf {s : State} (h : Memory.wf s.mem = true) {m p g} : Memory.wf (s.contribute m p g).mem = true := by
  simp [State.contribute, h]

@[simp] theorem State.gatherPower_mem (s : State) (p g) : (s.gatherPower p g).mem = s.mem := by
  unfold State.gatherPower
  split <;> simp

@[simp] theorem State.gatherStep_wf {s gone : State} (h : Memory.wf s.mem = true) (hg : Memory.wf gone.mem = true) {n m p g} :
    Memory.wf (s.gatherStep gone n m p g).mem = true := by
  unfold State.gatherStep
  dsimp only
  repeat' split
  all_goals simp [h, hg]

@[simp] theorem State.takeToken_wf {s : State} (h : Memory.wf s.mem = true) {m} : Memory.wf (s.takeToken m).mem = true := by
  unfold State.takeToken
  dsimp only
  repeat' split
  all_goals simp [h]

theorem execCabort_canonical {s : State} (h : Memory.wf s.mem = true) {d a} : Result.Canonical (execCabort d a s) := by
  refine Result.canonical_next.2 (State.unlessPending_wf h ?_)
  repeat' split
  case h_1.isTrue | h_1.isFalse | h_2 | h_2.isTrue => simp [h]
  all_goals
    simp only [State.done_mem, State.putReg_mem, State.block_mem, State.modCur_mem, State.mem_ite, ite_self]
    refine State.wf_foldl (f := fun q g => State.launch q _) ?_ (fun q g hq => by simp [hq])
    refine State.wf_foldl ?_ (fun q v hq => ?_)
    · simp [h]
    · split <;> simp [hq]

theorem execCatt_canonical {s : State} (h : Memory.wf s.mem = true) {d a b} : Result.Canonical (execCatt d a b s) := by
  unfold execCatt
  split <;> simp [h]

/-! ### System -/

@[simp] theorem State.writeRotation_mem (s : State) (c n hi v) : (s.writeRotation c n hi v).mem = s.mem := by rfl

@[simp] theorem State.writeCoreCtl_mem (wait) (s : State) (c n v) : (State.writeCoreCtl wait s c n v).mem = s.mem := by
  unfold State.writeCoreCtl
  split <;> rfl

@[simp] theorem State.journalEntry_wf {s : State} (h : Memory.wf s.mem = true) {cmd arg outcome func} :
    Memory.wf (s.journalEntry cmd arg outcome func).mem = true := by
  simp [State.journalEntry, h]

@[simp] theorem State.writeCeiling_wf {s : State} (h : Memory.wf s.mem = true) {v func} : Memory.wf (s.writeCeiling v func).mem = true := by
  simp [State.writeCeiling, h]

@[simp] theorem State.startBankCounts_mem (s : State) (bh v) : (s.startBankCounts bh v).mem = s.mem := by
  unfold State.startBankCounts
  split <;> rfl

@[simp] theorem State.writeBhctl_mem (s : State) (bh v) : (s.writeBhctl bh v).mem = s.mem := by simp [State.writeBhctl]

@[simp] theorem State.writePkgCtl_wf {s : State} (h : Memory.wf s.mem = true) {n v} : Memory.wf (s.writePkgCtl n v).mem = true := by
  unfold State.writePkgCtl
  split <;> simp [h]

theorem execMfc_canonical {s : State} (h : Memory.wf s.mem = true) {d a} : Result.Canonical (execMfc d a s) := by
  unfold execMfc
  dsimp only
  split <;> simp [h]

@[simp] theorem State.refuseOperation_wf {s : State} (h : Memory.wf s.mem = true) {n v} : Memory.wf (s.refuseOperation n v).mem = true := by
  unfold State.refuseOperation
  extract_lets s1
  have h1 : Memory.wf s1.mem = true := State.journalEntry_wf h
  split
  all_goals
    rw [State.mem_withPkg]
    exact h1

@[simp] theorem State.sendCommand_mem (s : State) (n v) : (s.sendCommand n v).mem = s.mem := by rfl

@[simp] theorem State.discardCommand_wf {s : State} (h : Memory.wf s.mem = true) {n v} : Memory.wf (s.discardCommand n v).mem = true := by
  unfold State.discardCommand
  split <;> simp [h]

theorem execMtc_canonical {s : State} (h : Memory.wf s.mem = true) {a b} : Result.Canonical (execMtc a b s) := by
  refine Result.canonical_next.2 (State.unlessPending_wf h ?_)
  repeat' split
  all_goals simp [h]

theorem execTrap_canonical {s : State} (h : Memory.wf s.mem = true) {a} : Result.Canonical (execTrap a s) := by
  unfold execTrap
  split <;> simp [h]

theorem execEret_canonical {s : State} (h : Memory.wf s.mem = true) : Result.Canonical (execEret s) := by
  unfold execEret
  split <;> simp [h]

@[simp] theorem State.storeWords_mem (s : State) (c k a ws) : (s.storeWords c k a ws).mem = s.mem := by rfl
@[simp] theorem State.segmentEnd_mem (s : State) (d status r) : (s.segmentEnd d status r).mem = s.mem := by simp [State.segmentEnd]

theorem State.segmentMove_canonical {s : State} (h : Memory.wf s.mem = true) {d a b load} : Result.Canonical (s.segmentMove d a b load) := by
  unfold State.segmentMove
  extract_lets
  split
  · simp [h]
  · refine Result.canonical_next.2 (State.unlessPending_wf h ?_)
    repeat' split
    all_goals simp [h]

theorem execBkpt_canonical {s : State} (h : Memory.wf s.mem = true) : Result.Canonical (execBkpt s) := by simp [execBkpt, h]

@[simp] theorem State.landSegments_wf {s : State} (h : Memory.wf s.mem = true) {c k ws} : Memory.wf (s.landSegments c k ws).mem = true := by
  unfold State.landSegments
  repeat' split
  all_goals simp [h]

@[simp] theorem State.landFit_mem (s : State) (c k d v) : (s.landFit c k d v).mem = s.mem := by rfl

@[simp] theorem State.writeBack_wf {s : State} (h : Memory.wf s.mem = true) {c e} : Memory.wf (s.writeBack c e).mem = true := by
  unfold State.writeBack
  repeat' split
  all_goals simp [h]

@[simp] theorem State.landIf_wf {s : State} (h : Memory.wf s.mem = true) {c p} : Memory.wf (s.landIf c p).mem = true :=
  State.wf_foldl h (fun _ _ hq => State.writeBack_wf hq)

@[simp] theorem State.land_wf {s : State} (h : Memory.wf s.mem = true) {c} : Memory.wf (s.land c).mem = true := by simp [State.land, h]
@[simp] theorem State.landAll_wf {s : State} (h : Memory.wf s.mem = true) {c} : Memory.wf (s.landAll c).mem = true := by simp [State.landAll, h]

theorem execRotationWrite_canonical {s : State} (h : Memory.wf s.mem = true) {c hi v} : Result.Canonical (execRotationWrite c hi v s) := by
  simp [execRotationWrite, h]

theorem execSigctlWrite_canonical {s : State} (h : Memory.wf s.mem = true) {c k v} : Result.Canonical (execSigctlWrite c k v s) := by
  simp [execSigctlWrite, h]

theorem execMailboxConfigWrite_canonical {s : State} (h : Memory.wf s.mem = true) {c size mb v} :
    Result.Canonical (execMailboxConfigWrite c size mb v s) := by
  simp [execMailboxConfigWrite, h]

theorem execLogConfigWrite_canonical {s : State} (h : Memory.wf s.mem = true) {c size v} : Result.Canonical (execLogConfigWrite c size v s) := by
  simp [execLogConfigWrite, h]

theorem execPinRelease_canonical {s : State} (h : Memory.wf s.mem = true) {c} : Result.Canonical (execPinRelease c s) := by simp [execPinRelease, h]
theorem execXlat_canonical {s : State} (h : Memory.wf s.mem = true) {c k v} : Result.Canonical (execXlat c k v s) := by simp [execXlat, h]

theorem execBhctlWrite_canonical {s : State} (h : Memory.wf s.mem = true) {bh v} : Result.Canonical (execBhctlWrite bh v s) := by
  simp [execBhctlWrite, h]

theorem execPwrceilWrite_canonical {s : State} (h : Memory.wf s.mem = true) {v} : Result.Canonical (execPwrceilWrite v s) := by
  simp [execPwrceilWrite, h]

/-! ### Timers -/

theorem execIllegalInstruction_canonical {s : State} (h : Memory.wf s.mem = true) {p0 p1 two} :
    Result.Canonical (execIllegalInstruction p0 p1 two s) := by
  simp [execIllegalInstruction, h]

@[simp] theorem State.yieldDone_mem (s : State) (c k) : (s.yieldDone c k).mem = s.mem := by
  unfold State.yieldDone
  dsimp only
  split <;> simp

theorem execYieldIntervalEnd_canonical {s : State} (h : Memory.wf s.mem = true) {c k} : Result.Canonical (execYieldIntervalEnd c k s) := by
  simp [execYieldIntervalEnd, h]

@[simp] theorem State.iterDone_mem (s : State) (c k unit) : (s.iterDone c k unit).mem = s.mem := by
  unfold State.iterDone
  split <;> simp

theorem execDivideComplete_canonical {s : State} (h : Memory.wf s.mem = true) {c k} : Result.Canonical (execDivideComplete c k s) := by
  simp [execDivideComplete, h]

theorem execFpIterativeComplete_canonical {s : State} (h : Memory.wf s.mem = true) {c k} : Result.Canonical (execFpIterativeComplete c k s) := by
  simp [execFpIterativeComplete, h]

theorem execVectorIterativeComplete_canonical {s : State} (h : Memory.wf s.mem = true) {c k} :
    Result.Canonical (execVectorIterativeComplete c k s) := by
  simp [execVectorIterativeComplete, h]

@[simp] theorem State.stampBanks_mem (s : State) (c) : (s.stampBanks c).mem = s.mem := by rfl

@[simp] theorem State.idleBank_wf {s : State} (h : Memory.wf s.mem = true) {c j} : Memory.wf (s.idleBank c j).mem = true := by
  unfold State.idleBank
  dsimp only
  split <;> simp [h]

theorem execBankPowerDown_canonical {s : State} (h : Memory.wf s.mem = true) {c j} : Result.Canonical (execBankPowerDown c j s) := by
  simp [execBankPowerDown, h]

theorem execBankPowerUp_canonical {s : State} (h : Memory.wf s.mem = true) {c j} : Result.Canonical (execBankPowerUp c j s) := by
  refine Result.canonical_next.2 ?_
  extract_lets
  split
  · next due _ _ =>
    split
    · refine State.wf_foldl ?_ (fun q k hq => State.bankAccess_wf hq)
      rw [State.wakeFor_mem, State.modCore_mem, State.markDirty_mem]
      exact State.wf_zeroBytes h
    · exact h
  · exact h

theorem execGenerationAdvance_canonical {s : State} (h : Memory.wf s.mem = true) {c k} : Result.Canonical (execGenerationAdvance c k s) := by
  simp [execGenerationAdvance, h]

@[simp] theorem State.dispatcherRecord_mem (s : State) (c rcb f) : (s.dispatcherRecord c rcb f).mem = s.mem := by simp [State.dispatcherRecord]

@[simp] theorem State.setDescState_wf {s : State} (h : Memory.wf s.mem = true) {c desc st} : Memory.wf (s.setDescState c desc st).mem = true := by
  simp [State.setDescState, h]

@[simp] theorem State.askKey_mem (s : State) (c z) : (s.askKey c z).mem = s.mem := by
  unfold State.askKey
  split <;> simp

@[simp] theorem State.dropKeys_mem (s : State) (c z) : (s.dropKeys c z).mem = s.mem := by simp [State.dropKeys]

@[simp] theorem State.abandonStage_wf {s : State} (h : Memory.wf s.mem = true) {c z} : Memory.wf (s.abandonStage c z).mem = true := by
  unfold State.abandonStage
  dsimp only
  split <;> simp [h]

@[simp] theorem State.addStage_mem (s : State) (c desc ws keyed rcb) : (s.addStage c desc ws keyed rcb).mem = s.mem := by
  unfold State.addStage
  split <;> simp

@[simp] theorem State.stageRing_wf {s : State} (h : Memory.wf s.mem = true) {c} : Memory.wf (s.stageRing c).mem = true := by
  unfold State.stageRing
  extract_lets x at_ w desc ws s1
  have h1 : Memory.wf s1.mem = true := h
  clear_value s1 ws
  split
  · simp [h]
  split
  · simp [h]
  split
  · simp [h1]
  split
  · simp [h1]
  · simp [h1]

@[simp] theorem State.stageKeyed_mem (s : State) (c a) : (s.stageKeyed c a).mem = s.mem := by simp [State.stageKeyed]

theorem execDispatcherStage_canonical {s : State} (h : Memory.wf s.mem = true) {c} : Result.Canonical (execDispatcherStage c s) := by
  refine Result.canonical_next.2 ?_
  repeat' split
  all_goals simp [h]

@[simp] theorem State.dropClaim_mem (s : State) (c q) : (s.dropClaim c q).mem = s.mem := by
  unfold State.dropClaim
  split <;> rfl

@[simp] theorem State.refuseClaim_wf {s : State} (h : Memory.wf s.mem = true) {c q} : Memory.wf (s.refuseClaim c q).mem = true := by
  unfold State.refuseClaim
  split <;> simp [h]

@[simp] theorem State.startClaim_wf {s : State} (h : Memory.wf s.mem = true) {c k q} : Memory.wf (s.startClaim c k q).mem = true := by
  unfold State.startClaim
  dsimp only
  repeat' split
  all_goals simp [h]

@[simp] theorem State.claimPower_mem (s : State) (c q) : (s.claimPower c q).mem = s.mem := by
  unfold State.claimPower
  split <;> simp

theorem execSlotGrant_canonical {s : State} (h : Memory.wf s.mem = true) {c} : Result.Canonical (execSlotGrant c s) := by
  refine Result.canonical_next.2 ?_
  repeat' split
  all_goals simp [h]

theorem execSlotLend_canonical {s : State} (h : Memory.wf s.mem = true) {c} : Result.Canonical (execSlotLend c s) := by
  refine Result.canonical_next.2 ?_
  repeat' split
  all_goals simp [h]

theorem execSpill_canonical {s : State} (h : Memory.wf s.mem = true) {c k} : Result.Canonical (execSpill c k s) := by
  refine Result.canonical_next.2 ?_
  dsimp only
  repeat' split
  all_goals simp [h]

theorem execFill_canonical {s : State} (h : Memory.wf s.mem = true) {c k} : Result.Canonical (execFill c k s) := by
  unfold execFill
  dsimp only
  split <;> simp [h]

@[simp] theorem State.repush_wf {s : State} (h : Memory.wf s.mem = true) {c e} : Memory.wf (s.repush c e).mem = true := by
  unfold State.repush
  dsimp only
  repeat' split
  all_goals simp [h]

theorem execHeldRingPush_canonical {s : State} (h : Memory.wf s.mem = true) {c} : Result.Canonical (execHeldRingPush c s) := by
  refine Result.canonical_next.2 ?_
  repeat' split
  all_goals simp [h]

theorem execRegisterParityError_canonical {s : State} (h : Memory.wf s.mem = true) {c k} : Result.Canonical (execRegisterParityError c k s) := by
  simp [execRegisterParityError, h]

@[simp] theorem State.cancelFlight_mem (s : State) (c e) : (s.cancelFlight c e).mem = s.mem := by
  unfold State.cancelFlight
  split <;> simp

@[simp] theorem State.settleMove_mem (s : State) (c k) : (s.settleMove c k).mem = s.mem := by
  unfold State.settleMove
  dsimp only
  split <;> simp

@[simp] theorem State.containShared_mem (s : State) (c reader k) : (s.containShared c reader k).mem = s.mem := by
  unfold State.containShared
  split <;> simp

theorem execSharedBankParityError_canonical {s : State} (h : Memory.wf s.mem = true) {c k} : Result.Canonical (execSharedBankParityError c k s) := by
  simp [execSharedBankParityError, h]

@[simp] theorem State.noteFlight_mem (t : State) (i) (s : State) : (t.noteFlight i s).mem = t.mem := by rfl

@[simp] theorem State.mbwaitDone_mem (s : State) (c k) : (s.mbwaitDone c k).mem = s.mem := by
  unfold State.mbwaitDone
  split <;> simp

theorem execMbwaitTimeout_canonical {s : State} (h : Memory.wf s.mem = true) {c k} : Result.Canonical (execMbwaitTimeout c k s) := by
  simp [execMbwaitTimeout, h]

@[simp] theorem State.moveDone_wf {s : State} (h : Memory.wf s.mem = true) {c k} : Memory.wf (s.moveDone c k).mem = true := by
  unfold State.moveDone
  repeat' split
  all_goals simp [h]

@[simp] theorem State.settleTimer_wf {s : State} (h : Memory.wf s.mem = true) {c k} : Memory.wf (s.settleTimer c k).mem = true := by
  unfold State.settleTimer
  split <;> simp [h]

theorem execQpopwTimeout_canonical {s : State} (h : Memory.wf s.mem = true) {c k} : Result.Canonical (execQpopwTimeout c k s) := by
  unfold execQpopwTimeout
  split <;> simp [h]

theorem execWaitRetry_canonical {s : State} (h : Memory.wf s.mem = true) {c k} : Result.Canonical (execWaitRetry c k s) := by
  unfold execWaitRetry
  repeat' split
  all_goals simp [h]

/-! ### Ports -/

theorem State.pick_mem (s : State) {n m t} (h : s.pick n = some (m, t)) : t.mem = s.mem := by
  unfold State.pick at h
  split at h
  · cases h
  · split at h <;> cases h
    rfl

@[simp] theorem State.endChain_mem (s : State) (m home rc rs v chst poison) : (s.endChain m home rc rs v chst poison).mem = s.mem := by
  simp [State.endChain]

@[simp] theorem State.keyAbsent_wf {s : State} (h : Memory.wf s.mem = true) {m key stage} : Memory.wf (s.keyAbsent m key stage).mem = true := by
  unfold State.keyAbsent
  split <;> simp [h]

@[simp] theorem State.answerAbsent_wf {s : State} (h : Memory.wf s.mem = true) {m} : Memory.wf (s.answerAbsent m).mem = true := by
  unfold State.answerAbsent
  generalize m.body = b
  cases b
  case fitRead x => cases x <;> simp [h]
  case keyRequest => exact State.keyAbsent_wf h
  case mail | engine | migrate | abort =>
    dsimp only
    split <;> simp [h]
  all_goals simp [h]

/-- A message is served: what remains is that its handler keeps memory canonical. -/
theorem State.serve_canonical {s : State} (h : Memory.wf s.mem = true) {n want act}
    (ha : ∀ q m, Memory.wf q.mem = true → Memory.wf (act q m).mem = true) :
    Result.Canonical (s.serve n want act) := by
  refine Result.canonical_next.2 ?_
  split
  · exact h
  next m t hp =>
    have ht : Memory.wf t.mem = true := (congrArg Memory.wf (s.pick_mem hp)).trans h
    repeat' split
    · exact h
    · simp [ht]
    · simp [h]
    · exact ha _ _ ht
    · exact State.throughChannel_wf h (fun q hq => ha _ _ hq)
    · exact ha _ _ ht

@[simp] theorem State.putBack_mem (s : State) (n m b) : (s.putBack n m b).mem = s.mem := by rfl

@[simp] theorem State.loadPiece_mem (s : State) (n m a left got) : (s.loadPiece n m a left got).mem = s.mem := by
  unfold State.loadPiece
  split <;> simp

@[simp] theorem State.storePiece_wf {s : State} (h : Memory.wf s.mem = true) {n m a left data base} :
    Memory.wf (s.storePiece n m a left data base).mem = true := by
  simp [State.storePiece, h]

theorem execLoadRequest_canonical {s : State} (h : Memory.wf s.mem = true) {n} : Result.Canonical (execLoadRequest n s) := by
  refine State.serve_canonical h (fun q m hq => ?_)
  repeat' split
  all_goals simp [hq]

theorem execStore_canonical {s : State} (h : Memory.wf s.mem = true) {n} : Result.Canonical (execStore n s) := by
  refine State.serve_canonical h (fun q m hq => ?_)
  repeat' split
  all_goals simp [hq]

theorem execAtomic_canonical {s : State} (h : Memory.wf s.mem = true) {n} : Result.Canonical (execAtomic n s) := by
  refine State.serve_canonical h (fun q m hq => ?_)
  dsimp only
  repeat' split
  all_goals simp [hq]

@[simp] theorem State.enterWaiter_mem (s : State) (m w) : (s.enterWaiter m w).mem = s.mem := by
  unfold State.enterWaiter
  split <;> simp

theorem execSynchronisation_canonical {s : State} (h : Memory.wf s.mem = true) {n} : Result.Canonical (execSynchronisation n s) := by
  refine State.serve_canonical h (fun q m hq => ?_)
  dsimp only
  split
  · split
    · simp [hq]
    split
    · simp [hq]
    · split <;> next hs => simp [State.performSync_fst_wf hq hs]
  · split <;> simp [hq]
  · exact hq

theorem execLogAppend_canonical {s : State} (h : Memory.wf s.mem = true) {n} : Result.Canonical (execLogAppend n s) := by
  refine State.serve_canonical h (fun q m hq => ?_)
  dsimp only
  repeat' split
  all_goals simp [hq]

theorem execCodeletCounterRequest_canonical {s : State} (h : Memory.wf s.mem = true) {n} : Result.Canonical (execCodeletCounterRequest n s) := by
  refine State.serve_canonical h (fun q m hq => ?_)
  dsimp only
  repeat' split
  all_goals simp [hq, h]

theorem State.takeEngine_wf {s : State} (h : Memory.wf s.mem = true) {op a n r} (hr : s.takeEngine op a n = some r) : Memory.wf r.1.mem = true := by
  unfold State.takeEngine at hr
  dsimp only at hr
  repeat' split at hr
  all_goals cases hr
  all_goals simp [h]

@[simp] theorem State.takeQuery_wf {s : State} (h : Memory.wf s.mem = true) {m} : Memory.wf (s.takeQuery m).mem = true := by
  unfold State.takeQuery
  split
  · split <;> next ht => simp [State.tokenAct_fst_wf h ht]
  · exact h

theorem execTokenQuery_canonical {s : State} (h : Memory.wf s.mem = true) {n} : Result.Canonical (execTokenQuery n s) := by
  refine State.serve_canonical h (fun q m hq => ?_)
  split
  · split
    · next ht => simpa using State.takeEngine_wf hq ht
    · simp [hq]
  · simp [hq]

theorem execFitRead_canonical {s : State} (h : Memory.wf s.mem = true) {n} : Result.Canonical (execFitRead n s) := by
  refine State.serve_canonical h (fun q m hq => ?_)
  simp [hq]

theorem execCollectiveContribution_canonical {s : State} (h : Memory.wf s.mem = true) {n} : Result.Canonical (execCollectiveContribution n s) := by
  refine Result.canonical_next.2 ?_
  split
  · exact h
  · next hp =>
    have hg := (State.pick_mem s hp).symm ▸ h
    split
    · exact State.gatherStep_wf h hg
    · exact hg
    · exact h

theorem execAbortToken_canonical {s : State} (h : Memory.wf s.mem = true) {n} : Result.Canonical (execAbortToken n s) := by
  refine State.serve_canonical h (fun q m hq => ?_)
  simp [hq]

@[simp] theorem State.writePayload_wf {s : State} (h : Memory.wf s.mem = true) {a ws bad} : Memory.wf (s.writePayload a ws bad).mem = true :=
  State.wf_foldl h (fun q p hq => by split <;> simp [hq])

@[simp] theorem State.releaseMailWaits_mem (s : State) (c mb) : (s.releaseMailWaits c mb).mem = s.mem := by
  refine State.mem_foldl _ _ _ (fun q k => ?_)
  dsimp only
  repeat' split
  all_goals simp

@[simp] theorem State.placeMail_wf {s : State} (h : Memory.wf s.mem = true) {c mb payload bad vtid pkg} :
    Memory.wf (s.placeMail c mb payload bad vtid pkg).1.mem = true := by
  unfold State.placeMail
  extract_lets x m base arr
  split
  · exact h
  · extract_lets s1 s2 used s3
    have h1 : Memory.wf s1.mem = true := by
      unfold s1
      split
      · exact State.wf_writeWord h
      · exact h
    have h2 : Memory.wf s2.mem = true := State.writePayload_wf (State.wf_writeWord h1)
    rw [State.releaseMailWaits_mem, State.modCore_mem]
    exact h2

@[simp] theorem State.mailPower_mem (s : State) (c mb n) : (s.mailPower c mb n).mem = s.mem := by
  unfold State.mailPower
  dsimp only
  repeat' split
  all_goals simp

@[simp] theorem State.takeMail_wf {s : State} (h : Memory.wf s.mem = true) {m mb payload fault bad} :
    Memory.wf (s.takeMail m mb payload fault bad).mem = true := by
  unfold State.takeMail
  dsimp only
  repeat' split
  all_goals simp [h]

theorem execMailboxMessage_canonical {s : State} (h : Memory.wf s.mem = true) {n} : Result.Canonical (execMailboxMessage n s) := by
  refine State.serve_canonical h (fun q m hq => ?_)
  repeat' split
  all_goals simp [hq, h]

@[simp] theorem State.takeActive_mem (s : State) (m entry arg0 arg1 rcb) : (s.takeActive m entry arg0 arg1 rcb).1.mem = s.mem := by
  unfold State.takeActive
  split <;> rfl

theorem execActiveMessage_canonical {s : State} (h : Memory.wf s.mem = true) {n} : Result.Canonical (execActiveMessage n s) := by
  refine State.serve_canonical h (fun q m hq => ?_)
  dsimp only
  repeat' split
  all_goals simp [hq]

theorem execWakeMessage_canonical {s : State} (h : Memory.wf s.mem = true) {n} : Result.Canonical (execWakeMessage n s) := by
  refine State.serve_canonical h (fun q m hq => ?_)
  simp [hq]

@[simp] theorem State.refuseChain_mem (s : State) (m home rc rs) : (s.refuseChain m home rc rs).mem = s.mem := by simp [State.refuseChain]

@[simp] theorem State.chainSteps_mem (s : State) (m rc rs vec steps ga pa k) : (s.chainSteps m rc rs vec steps ga pa k).mem = s.mem := by
  unfold State.chainSteps
  dsimp only
  repeat' split
  all_goals simp

theorem execChainStep_canonical {s : State} (h : Memory.wf s.mem = true) {n} : Result.Canonical (execChainStep n s) := by
  refine State.serve_canonical h (fun q m hq => ?_)
  repeat' split
  all_goals simp [hq]

@[simp] theorem State.pushQueue_mem (s : State) (p q h x) : (s.pushQueue p q h x).mem = s.mem := by
  unfold State.pushQueue
  split <;> simp

@[simp] theorem State.queueAct_mem (s : State) (m op q x) : (s.queueAct m op q x).mem = s.mem := by
  unfold State.queueAct
  dsimp only
  repeat' split
  all_goals simp

theorem execCarafeQueueOperation_canonical {s : State} (h : Memory.wf s.mem = true) {n} : Result.Canonical (execCarafeQueueOperation n s) := by
  refine State.serve_canonical h (fun q m hq => ?_)
  repeat' split
  all_goals simp [hq]

@[simp] theorem State.sendGrant_mem (s : State) (part home core stage) : (s.sendGrant part home core stage).mem = s.mem := by simp [State.sendGrant]
@[simp] theorem State.retryKey_mem (s : State) (core stage) : (s.retryKey core stage).mem = s.mem := by rfl

theorem execKeyRequest_canonical {s : State} (h : Memory.wf s.mem = true) {n} : Result.Canonical (execKeyRequest n s) := by
  refine State.serve_canonical h (fun q m hq => ?_)
  dsimp only
  repeat' split
  all_goals simp [hq]

theorem execKeyRelease_canonical {s : State} (h : Memory.wf s.mem = true) {n} : Result.Canonical (execKeyRelease n s) := by
  refine State.serve_canonical h (fun q m hq => ?_)
  dsimp only
  repeat' split
  all_goals simp [hq]

theorem execKeyGrant_canonical {s : State} (h : Memory.wf s.mem = true) {n} : Result.Canonical (execKeyGrant n s) := by
  refine State.serve_canonical h (fun q m hq => ?_)
  repeat' split
  all_goals simp [hq]

theorem execKeyRetry_canonical {s : State} (h : Memory.wf s.mem = true) {c e} : Result.Canonical (execKeyRetry c e s) := by
  unfold execKeyRetry
  repeat' split
  all_goals simp [h]

@[simp] theorem State.settleRelease_wf {s : State} (h : Memory.wf s.mem = true) {c k} : Memory.wf (s.settleRelease c k).mem = true := by
  unfold State.settleRelease
  dsimp only
  repeat' split
  all_goals simp [h]

@[simp] theorem State.settleOwed_mem (s : State) (c k entry) : (s.settleOwed c k entry).mem = s.mem := by simp [State.settleOwed]

@[simp] theorem State.takeAck_wf {s : State} (h : Memory.wf s.mem = true) {m st entry addr info} :
    Memory.wf (s.takeAck m st entry addr info).mem = true := by
  unfold State.takeAck
  split <;> simp [h]

/-- A reply is taken: what remains is that its handler keeps memory canonical. -/
theorem State.serveReply_canonical {s : State} (h : Memory.wf s.mem = true) {n want lost act}
    (ha : ∀ q m, Memory.wf q.mem = true → Memory.wf (act q m).mem = true) : Result.Canonical (s.serveReply n want lost act) := by
  refine Result.canonical_next.2 ?_
  split
  · exact h
  next m t hp =>
    have ht : Memory.wf t.mem = true := (congrArg Memory.wf (s.pick_mem hp)).trans h
    split
    · exact h
    split
    · exact ht
    · exact ha _ _ ht

theorem execAcknowledgement_canonical {s : State} (h : Memory.wf s.mem = true) {n} : Result.Canonical (execAcknowledgement n s) := by
  refine State.serveReply_canonical h (fun q m hq => ?_)
  repeat' split
  all_goals simp [hq]

@[simp] theorem State.takeReply_mem (s : State) (c k st v f) : (s.takeReply c k st v f).mem = s.mem := by
  unfold State.takeReply
  dsimp only
  repeat' split
  all_goals simp

theorem execDataReply_canonical {s : State} (h : Memory.wf s.mem = true) {n} : Result.Canonical (execDataReply n s) := by
  refine State.serveReply_canonical h (fun q m hq => ?_)
  dsimp only
  repeat' split
  all_goals simp [hq, h]

@[simp] theorem State.hostStatus_mem (s : State) (n st) : (s.hostStatus n st).mem = s.mem := by rfl

theorem execMessageStatus_canonical {s : State} (h : Memory.wf s.mem = true) {n} : Result.Canonical (execMessageStatus n s) := by
  refine State.serveReply_canonical h (fun q m hq => ?_)
  dsimp only
  repeat' split
  all_goals simp [hq]

theorem execChainReply_canonical {s : State} (h : Memory.wf s.mem = true) {n} : Result.Canonical (execChainReply n s) := by
  refine State.serveReply_canonical h (fun q m hq => ?_)
  dsimp only
  repeat' split
  all_goals simp [hq]

/-! ### Fetch -/

@[simp] theorem State.fetchFault_mem (s : State) (c k cls) : (s.fetchFault c k cls).mem = s.mem := by simp [State.fetchFault]

/-- A fetch that stops, at a fault, a hold or poison, writes no byte of memory. -/
theorem State.fetch_stop_mem (s : State) {t} (h : s.fetch = .stop t) : t.mem = s.mem := by
  unfold State.fetch at h
  dsimp only at h
  repeat' split at h
  all_goals cases h
  all_goals simp

/-! ### Handlers -/

theorem State.slotResume_wf {s t : State} (h : Memory.wf s.mem = true) {c k} (ht : s.slotResume c k = some t) : Memory.wf t.mem = true := by
  unfold State.slotResume at ht
  split at ht <;> cases ht
  simp [h]

theorem State.slotSkip_wf {s t : State} (h : Memory.wf s.mem = true) {c k} (ht : s.slotSkip c k = some t) : Memory.wf t.mem = true := by
  unfold State.slotSkip at ht
  split at ht
  · obtain ⟨n, -, rfl⟩ := Option.map_eq_some_iff.1 ht
    simp [h]
  · cases ht

theorem State.slotKill_wf {s t : State} (h : Memory.wf s.mem = true) {c k} (ht : s.slotKill c k = some t) : Memory.wf t.mem = true := by
  unfold State.slotKill at ht
  split at ht <;> cases ht
  all_goals exact State.endContext_wf h

theorem State.slotRelease_wf {s t : State} (h : Memory.wf s.mem = true) {c k} (ht : s.slotRelease c k = some t) : Memory.wf t.mem = true := by
  unfold State.slotRelease at ht
  split at ht <;> cases ht
  all_goals split <;> simp [h]

theorem State.slotCommand_wf {s t : State} (h : Memory.wf s.mem = true) {c k v} (ht : s.slotCommand c k v = some t) : Memory.wf t.mem = true := by
  unfold State.slotCommand at ht
  split at ht
  · exact State.slotResume_wf h ht
  · exact State.slotSkip_wf h ht
  · exact State.slotKill_wf h ht
  · exact State.slotRelease_wf h ht
  · cases ht

theorem execSlotctlResume_canonical {s : State} (h : Memory.wf s.mem = true) {c k} : Result.Canonical (execSlotctlResume c k s) :=
  Result.canonical_next.2 (State.wf_getD h (fun _ => State.slotResume_wf h))

theorem execSkip_canonical {s : State} (h : Memory.wf s.mem = true) {c k} : Result.Canonical (execSkip c k s) :=
  Result.canonical_next.2 (State.wf_getD h (fun _ => State.slotSkip_wf h))

theorem execKill_canonical {s : State} (h : Memory.wf s.mem = true) {c k} : Result.Canonical (execKill c k s) :=
  Result.canonical_next.2 (State.wf_getD h (fun _ => State.slotKill_wf h))

theorem execRelease_canonical {s : State} (h : Memory.wf s.mem = true) {c k} : Result.Canonical (execRelease c k s) :=
  Result.canonical_next.2 (State.wf_getD h (fun _ => State.slotRelease_wf h))

@[simp] theorem State.controlWrite_wf {s : State} (h : Memory.wf s.mem = true) {c off v} : Memory.wf (s.controlWrite c off v).1.mem = true := by
  unfold State.controlWrite
  split
  · dsimp only
    split <;> simp [h]
  · split <;> simp [h]
  · split
    next hq => exact State.slotCommand_wf h hq
    · exact h
  · exact h

@[simp] theorem State.takeControl_wf {s : State} (h : Memory.wf s.mem = true) {m write off v level} :
    Memory.wf (s.takeControl m write off v level).mem = true := by
  unfold State.takeControl
  dsimp only
  repeat' split
  all_goals simp [h]

theorem execControlSpaceAccess_canonical {s : State} (h : Memory.wf s.mem = true) {n} : Result.Canonical (execControlSpaceAccess n s) := by
  refine State.serve_canonical h (fun q m hq => ?_)
  repeat' split
  all_goals simp [hq, h]

theorem execHeldMessageAppend_canonical {s : State} (h : Memory.wf s.mem = true) {n} : Result.Canonical (execHeldMessageAppend n s) := by
  refine Result.canonical_next.2 ?_
  dsimp only
  repeat' split
  all_goals simp [h]

@[simp] theorem State.dropHeld_mem (s : State) (p m st) : (s.dropHeld p m st).mem = s.mem := by simp [State.dropHeld]

@[simp] theorem State.deliverHeld_wf {s : State} (h : Memory.wf s.mem = true) {p vbh} : Memory.wf (s.deliverHeld p vbh).mem = true := by
  unfold State.deliverHeld
  dsimp only
  repeat' split
  all_goals simp [h]

theorem execOverflowQueueDelivery_canonical {s : State} (h : Memory.wf s.mem = true) {p vbh} :
    Result.Canonical (execOverflowQueueDelivery p vbh s) := by
  unfold execOverflowQueueDelivery
  split <;> simp [h]

theorem execOverflowRetry_canonical {s : State} (h : Memory.wf s.mem = true) {p vbh} : Result.Canonical (execOverflowRetry p vbh s) := by
  unfold execOverflowRetry
  repeat' split
  all_goals simp [h]

@[simp] theorem State.appendRecord_wf {s : State} (h : Memory.wf s.mem = true) {p f} : Memory.wf (s.appendRecord p f).mem = true := by
  unfold State.appendRecord
  dsimp only
  repeat' split
  all_goals simp [h]

theorem execFaultQueueAppend_canonical {s : State} (h : Memory.wf s.mem = true) {n} : Result.Canonical (execFaultQueueAppend n s) := by
  refine Result.canonical_next.2 ?_
  dsimp only
  repeat' split
  all_goals simp [h]

@[simp] theorem State.storeLeaf_mem (s : State) (cl e) : (s.storeLeaf cl e).mem = s.mem := by
  unfold State.storeLeaf
  dsimp only
  repeat' split
  all_goals simp

@[simp] theorem State.keepPointer_mem (s : State) (cl e) : (s.keepPointer cl e).mem = s.mem := by simp [State.keepPointer]

@[simp] theorem State.serveWalk_mem (s : State) (cl e r) : (s.serveWalk cl e r).mem = s.mem := by
  unfold State.serveWalk
  repeat' split
  all_goals simp

@[simp] theorem State.wakeUnlisted_mem (s : State) (cl) : (s.wakeUnlisted cl).mem = s.mem := by simp [State.wakeUnlisted]

@[simp] theorem State.endWalk_mem (s : State) (cl w res) : (s.endWalk cl w res).mem = s.mem := by
  unfold State.endWalk
  split <;> simp

@[simp] theorem State.setWalk_mem (s : State) (cl w x) : (s.setWalk cl w x).mem = s.mem := by rfl

@[simp] theorem State.walkLevel_mem (s : State) (cl part w) : (s.walkLevel cl part w).mem = s.mem := by
  unfold State.walkLevel
  split <;> simp

@[simp] theorem State.beginWalk_mem (s : State) (cl part w) : (s.beginWalk cl part w).mem = s.mem := by
  unfold State.beginWalk
  split <;> simp

theorem execPageTableWalk_canonical {s : State} (h : Memory.wf s.mem = true) {c cls va} : Result.Canonical (execPageTableWalk c cls va s) := by
  refine Result.canonical_next.2 ?_
  dsimp only
  repeat' split
  all_goals simp [h]

/-! ### Images -/

@[simp] theorem State.haltSlot_wf {s : State} (h : Memory.wf s.mem = true) {c k} : Memory.wf (s.haltSlot c k).mem = true := by
  unfold State.haltSlot
  dsimp only
  repeat' split
  all_goals simp [h]

@[simp] theorem State.abortPending_mem (s : State) (c p id) : (s.abortPending c p id).mem = s.mem := by
  unfold State.abortPending
  dsimp only
  split
  · rfl
  · rw [State.mem_foldl _ _ _ (fun q v => by split <;> simp)]
    split <;> simp

@[simp] theorem State.withdrawStage_mem (s : State) (c z) : (s.withdrawStage c z).mem = s.mem := by simp [State.withdrawStage]
@[simp] theorem State.spareRing_mem (s : State) (c) : (s.spareRing c).mem = s.mem := by simp [State.spareRing]

@[simp] theorem State.unpop_wf {s : State} (h : Memory.wf s.mem = true) {c desc stamp} : Memory.wf (s.unpop c desc stamp).mem = true := by
  unfold State.unpop
  extract_lets
  rw [State.modCore_mem]
  exact State.wf_writeWord (State.setDescState_wf (by simp [h]))

@[simp] theorem State.returnStaging_wf {s : State} (h : Memory.wf s.mem = true) {c} : Memory.wf (s.returnStaging c).mem = true := by
  unfold State.returnStaging
  extract_lets x s1 s2
  have h1 : Memory.wf s1.mem = true := State.wf_foldl h (fun q z hq => by simp [hq])
  have h2 : Memory.wf s2.mem = true := State.wf_foldr h1 (fun q e hq => State.unpop_wf hq)
  exact h2

@[simp] theorem State.saveCommand_wf {s : State} (h : Memory.wf s.mem = true) {cores id} : Memory.wf (s.saveCommand cores id).mem = true := by
  unfold State.saveCommand
  split
  · exact h
  · extract_lets mine s1 s2
    split
    · exact h
    split
    · exact State.restoreCounts_wf (by simp [s2, s1, h])
    · rw [State.addCommand_mem]
      refine State.wf_foldl h (fun q m hq => ?_)
      split <;> simp [hq]

@[simp] theorem State.saveCommands_wf {s : State} (h : Memory.wf s.mem = true) {cores} : Memory.wf (s.saveCommands cores).mem = true :=
  State.wf_foldl h (fun _ _ hq => State.saveCommand_wf hq)

@[simp] theorem State.haltCore_wf {s : State} (h : Memory.wf s.mem = true) {p c} : Memory.wf (s.haltCore p c).mem = true := by
  unfold State.haltCore
  extract_lets s1 s2
  have h1 : Memory.wf s1.mem = true := State.wf_foldl h (fun q id hq => by simp [hq])
  have h2 : Memory.wf s2.mem = true := State.wf_foldl (State.landAll_wf h1) (fun q k hq => State.haltSlot_wf hq)
  rw [State.modCore_mem, State.dropFetches_mem]
  exact State.returnStaging_wf h2

@[simp] theorem State.haltRegion_wf {s : State} (h : Memory.wf s.mem = true) {p vs} : Memory.wf (s.haltRegion p vs).mem = true :=
  State.wf_foldl (s := (s.saveCommands _).modPart p _) (State.saveCommands_wf h) (fun _ _ hq => State.haltCore_wf hq)

@[simp] theorem State.writeUnit_wf {s : State} (h : Memory.wf s.mem = true) {pa ws} : Memory.wf (s.writeUnit pa ws).mem = true :=
  State.wf_foldl (State.wf_performWrite h) (fun q e hq => by split <;> simp [hq])

@[simp] theorem State.writeImage_wf {p v fuel ws} :
    ∀ {s : State} {off}, Memory.wf s.mem = true → Memory.wf (s.writeImage p v off fuel ws).mem = true := by
  induction fuel generalizing ws with
  | zero => exact id
  | succ fuel ih =>
    intro s off h
    cases ws with
    | nil => exact h
    | cons w ws =>
      refine ih ?_
      split <;> simp [h]

@[simp] theorem State.saveCore_wf {s : State} (h : Memory.wf s.mem = true) {p c} : Memory.wf (s.saveCore p c).mem = true := by
  unfold State.saveCore
  extract_lets x v blocks stream map header regs s1 s2 s3 s4 bars
  have h1 : Memory.wf s1.mem = true := State.writeImage_wf h
  have h2 : Memory.wf s2.mem = true := State.writeImage_wf h1
  have h3 : Memory.wf s3.mem = true := State.writeImage_wf h2
  rw [State.modCore_mem, State.modPart_mem, State.fresh_mem]
  exact State.writeImage_wf h3

@[simp] theorem State.virtualMembers_mem (s : State) (p cores) : (s.virtualMembers p cores).mem = s.mem := by rfl
@[simp] theorem State.clearClusters_mem (s : State) (b) : (s.clearClusters b).mem = s.mem := by simp [State.clearClusters]

@[simp] theorem State.saveRegion_wf {s : State} (h : Memory.wf s.mem = true) {p vs} : Memory.wf (s.saveRegion p vs).mem = true :=
  State.wf_foldl (State.wf_foldl (s := s.virtualMembers p _) (by simp [h]) (fun q c hq => State.saveCore_wf hq)) (fun q b hq => by simp [hq])

@[simp] theorem State.restoreBlocks_wf {c js} :
    ∀ {s : State} {stream}, Memory.wf s.mem = true → Memory.wf (s.restoreBlocks c js stream).1.mem = true := by
  induction js with
  | nil => exact fun h => h
  | cons j rest ih =>
    intro s stream h
    unfold State.restoreBlocks
    split
    · extract_lets s1 s2
      have h1 : Memory.wf s1.mem = true := State.wf_writeWords h
      have h2 : Memory.wf s2.mem = true := by
        unfold s2
        split <;> simp [h1]
      exact ih h2
    · refine State.wf_foldl h (fun q i hq => ?_)
      rw [State.modCore_mem]
      exact State.wf_putPoison hq

@[simp] theorem State.lostRecords_mem (s : State) (c part) : (s.lostRecords c part).mem = s.mem := by simp [State.lostRecords]

@[simp] theorem State.endColls_wf {s : State} (h : Memory.wf s.mem = true) {c} : Memory.wf (s.endColls c).mem = true :=
  State.wf_foldl h (fun _ _ hq => State.finishColl_wf hq)

@[simp] theorem State.restoreCore_wf {s : State} (h : Memory.wf s.mem = true) {p v c} : Memory.wf (s.restoreCore p v c).1.mem = true := by
  unfold State.restoreCore
  extract_lets img saved old hd map lost0 xlat s1 stream blocks lost regs recs s2 live s3 bars s4
  have h1 : Memory.wf s1.mem = true := State.wf_zeroBytes h
  have h2 : Memory.wf s2.mem = true := by
    unfold s2 blocks
    rw [State.modPart_mem]
    split <;> exact State.restoreBlocks_wf h1
  have h4 : Memory.wf s4.mem = true := by
    unfold s4 s3
    split <;> simp [h2]
  clear_value s2 s4 lost
  cases lost <;> simp [h2, h4]

@[simp] theorem State.replayRecord_mem (s : State) (cmd m) : (s.replayRecord cmd m).mem = s.mem := by
  unfold State.replayRecord
  split <;> simp

@[simp] theorem State.replayCommand_mem (s : State) (id cmd) : (s.replayCommand id cmd).mem = s.mem := by
  unfold State.replayCommand
  split <;> simp

@[simp] theorem State.replayAll_wf {s : State} (h : Memory.wf s.mem = true) {p vs saved lost} :
    Memory.wf (s.replayAll p vs saved lost).mem = true := by
  refine State.wf_foldl h (fun q id hq => ?_)
  dsimp only
  repeat' split
  all_goals simp [hq]

@[simp] theorem State.moveGrants_mem (s : State) (p old new) : (s.moveGrants p old new).mem = s.mem := by rfl

@[simp] theorem State.restoreRegion_wf {s : State} (h : Memory.wf s.mem = true) {p vs} : Memory.wf (s.restoreRegion p vs).1.mem = true := by
  unfold State.restoreRegion
  extract_lets x l s0 r s1 s2 s3
  have h0 : Memory.wf s0.mem = true := State.wf_foldl h (fun q v hq => by simp [hq])
  have hr : Memory.wf r.1.mem = true := by
    unfold r
    refine List.foldlRecOn l _ (motive := fun q : State × List Nat => Memory.wf q.1.mem = true) h0 (fun q hq e _ => ?_)
    exact State.restoreCore_wf hq
  have h1 : Memory.wf s1.mem = true := State.wf_foldl hr (fun q v hq => by split <;> simp [hq])
  have h3 : Memory.wf s3.mem = true := State.replayAll_wf (s := s2) h1
  exact State.wf_foldl h3 (fun q e hq => hq)

/-! ### Partition -/

@[simp] theorem State.setResult_mem (s : State) (reg part v) : (s.setResult reg part v).mem = s.mem := by
  unfold State.setResult
  split <;> rfl

@[simp] theorem State.releaseCommand_mem (s : State) (q) : (s.releaseCommand q).mem = s.mem := by
  unfold State.releaseCommand
  dsimp only
  split <;> simp

@[simp] theorem State.finish_wf {s : State} (h : Memory.wf s.mem = true) {q reg subject w v} : Memory.wf (s.finish q reg subject w v).mem = true := by
  unfold State.finish
  extract_lets s1 s2
  have h2 : Memory.wf s2.mem = true := by
    unfold s2 s1
    rw [State.setResult_mem]
    split
    · exact State.journalEntry_wf h
    · exact h
  clear_value s2
  split
  · simp [h2]
  · exact h2

@[simp] theorem State.applyWrite_wf {s : State} {reg subject w act} (ha : Memory.wf (act s).mem = true) :
    Memory.wf (s.applyWrite reg subject w act).mem = true :=
  State.finish_wf ha

@[simp] theorem State.command_wf {s : State} {reg subject w act} (ha : Memory.wf (act s).1.mem = true) :
    Memory.wf (s.command reg subject w act).mem = true :=
  State.finish_wf ha

theorem execPartitionRegisterWrite_canonical {s : State} (h : Memory.wf s.mem = true) {p n v} :
    Result.Canonical (execPartitionRegisterWrite p n v s) := by
  unfold execPartitionRegisterWrite
  split <;> simp [h]

theorem execFaultQueueConfigWrite_canonical {s : State} (h : Memory.wf s.mem = true) {p size v} :
    Result.Canonical (execFaultQueueConfigWrite p size v s) := by
  simp [execFaultQueueConfigWrite, h]

theorem execFqtailWrite_canonical {s : State} (h : Memory.wf s.mem = true) {p v} : Result.Canonical (execFqtailWrite p v s) := by
  simp [execFqtailWrite, h]

theorem execLinsizeWrite_canonical {s : State} (h : Memory.wf s.mem = true) {p v} : Result.Canonical (execLinsizeWrite p v s) := by
  simp [execLinsizeWrite, h]

@[simp] theorem State.spoilWalks_mem (s : State) (p) : (s.spoilWalks p).mem = s.mem := by rfl
@[simp] theorem State.invalidate_mem (s : State) (p w) : (s.invalidate p w).mem = s.mem := by rfl

theorem execTlbinv_canonical {s : State} (h : Memory.wf s.mem = true) {p w} : Result.Canonical (execTlbinv p w s) := by
  unfold execTlbinv
  repeat' split
  all_goals simp [h]

@[simp] theorem State.configureQueue_mem (s : State) (p w) : (s.configureQueue p w).1.mem = s.mem := by
  unfold State.configureQueue
  dsimp only
  repeat' split
  all_goals simp

theorem execQcfg_canonical {s : State} (h : Memory.wf s.mem = true) {p w} : Result.Canonical (execQcfg p w s) := by simp [execQcfg, h]

@[simp] theorem State.admitRcb_mem (s : State) (p ga) : (s.admitRcb p ga).1.mem = s.mem := by
  unfold State.admitRcb
  repeat' split
  all_goals simp

theorem execRcbAdmit_canonical {s : State} (h : Memory.wf s.mem = true) {p w} : Result.Canonical (execRcbAdmit p w s) := by
  refine Result.canonical_next.2 ?_
  dsimp only
  repeat' split
  all_goals simp [h]

theorem execRcbWithdraw_canonical {s : State} (h : Memory.wf s.mem = true) {p w} : Result.Canonical (execRcbWithdraw p w s) := by
  refine Result.canonical_next.2 ?_
  split
  · exact h
  · refine State.command_wf ?_
    split <;> simp [h]

@[simp] theorem State.begin_wf {s : State} (h : Memory.wf s.mem = true) {q reg subject w p vs} :
    Memory.wf (s.begin_ q reg subject w p vs).mem = true := by
  unfold State.begin_
  split <;> simp [h]

/-- A command that halts a partition: what remains is that its end keeps memory canonical. -/
theorem State.halting_wf {s : State} (h : Memory.wf s.mem = true) {reg subject w p check end_} (he : ∀ vs, Memory.wf (end_ s vs).1.mem = true) :
    Memory.wf (s.halting reg subject w p check end_).mem = true := by
  unfold State.halting
  dsimp only
  repeat' split
  · exact State.finish_wf (he _)
  · exact h
  · exact State.finish_wf h
  · exact State.finish_wf (he _)
  · exact State.begin_wf h

theorem execPreempt_canonical {s : State} (h : Memory.wf s.mem = true) {p w} : Result.Canonical (execPreempt p w s) := by
  refine Result.canonical_next.2 ?_
  exact State.halting_wf h (fun vs => State.saveRegion_wf h)

theorem execResume_canonical {s : State} (h : Memory.wf s.mem = true) {p w} : Result.Canonical (execResume p w s) := by
  refine Result.canonical_next.2 ?_
  dsimp only
  repeat' split
  all_goals simp [h]

@[simp] theorem State.flushBulkhead_mem (s : State) (b) : (s.flushBulkhead b).mem = s.mem := by simp [State.flushBulkhead]

@[simp] theorem State.claimBulkhead_mem (s : State) (p b) : (s.claimBulkhead p b).mem = s.mem := by
  unfold State.claimBulkhead
  split <;> simp

@[simp] theorem State.dropBulkhead_mem (s : State) (p b) : (s.dropBulkhead p b).mem = s.mem := by
  unfold State.dropBulkhead
  split <;> rfl

@[simp] theorem State.writeMap_wf {s : State} (h : Memory.wf s.mem = true) {p v w} : Memory.wf (s.writeMap p v w).mem = true := by
  unfold State.writeMap
  dsimp only
  split <;> simp [h]

theorem execPmapdatWrite_canonical {s : State} (h : Memory.wf s.mem = true) {p v w} : Result.Canonical (execPmapdatWrite p v w s) := by
  unfold execPmapdatWrite
  dsimp only
  split <;> simp [h]

@[simp] theorem State.createPartition_mem (s : State) (w) : (s.createPartition w).1.mem = s.mem := by
  unfold State.createPartition
  dsimp only
  repeat' split
  all_goals simp

theorem execCreate_canonical {s : State} (h : Memory.wf s.mem = true) {w} : Result.Canonical (execCreate w s) := by
  unfold execCreate
  split <;> simp [h]

@[simp] theorem State.emptyCore_mem (s : State) (c) : (s.emptyCore c).mem = s.mem := by rfl
@[simp] theorem State.destroyPartition_mem (s : State) (p vs) : (s.destroyPartition p vs).mem = s.mem := by simp [State.destroyPartition]

theorem execDestroy_canonical {s : State} (h : Memory.wf s.mem = true) {w} : Result.Canonical (execDestroy w s) := by
  refine Result.canonical_next.2 ?_
  split
  · exact State.halting_wf h (fun vs => by simp [h])
  · exact h

@[simp] theorem State.extendPartition_mem (s : State) (w) : (s.extendPartition w).1.mem = s.mem := by
  unfold State.extendPartition
  dsimp only
  repeat' split
  all_goals simp

theorem execExtend_canonical {s : State} (h : Memory.wf s.mem = true) {w} : Result.Canonical (execExtend w s) := by
  unfold execExtend
  split <;> simp [h]

theorem execReleaseVirtualBulkhead_canonical {s : State} (h : Memory.wf s.mem = true) {w} : Result.Canonical (execReleaseVirtualBulkhead w s) := by
  refine Result.canonical_next.2 ?_
  dsimp only
  split
  · exact State.halting_wf h (fun vs => by simp [h])
  · exact h

@[simp] theorem State.bindMemory_mem (s : State) (w part) : (s.bindMemory w part).1.mem = s.mem := by
  unfold State.bindMemory
  dsimp only
  repeat' split
  all_goals simp

theorem execMcbindBind_canonical {s : State} (h : Memory.wf s.mem = true) {w} : Result.Canonical (execMcbindBind w s) := by
  unfold execMcbindBind
  split <;> simp [h]

theorem execMcbindUnbind_canonical {s : State} (h : Memory.wf s.mem = true) {w} : Result.Canonical (execMcbindUnbind w s) := by
  unfold execMcbindUnbind
  split <;> simp [h]

/-! ### Package -/

@[simp] theorem State.finishBhcmd_wf {s : State} (h : Memory.wf s.mem = true) {q op bh code} : Memory.wf (s.finishBhcmd q op bh code).mem = true := by
  simp [State.finishBhcmd, h]

@[simp] theorem State.beginBhcmd_mem (s : State) (q op bh) : (s.beginBhcmd q op bh).mem = s.mem := by
  unfold State.beginBhcmd
  split <;> rfl

@[simp] theorem State.dropCoreKeys_mem (s : State) (c) : (s.dropCoreKeys c).mem = s.mem := by simp [State.dropCoreKeys]

@[simp] theorem State.dropCommands_wf {s : State} (h : Memory.wf s.mem = true) {c} : Memory.wf (s.dropCommands c).mem = true := by
  refine State.wf_foldl h (fun q id hq => ?_)
  split
  · refine State.wf_foldl hq (fun r m hr => ?_)
    split <;> simp [hr]
  · exact hq

@[simp] theorem State.resetRecords_mem (s : State) (b) : (s.resetRecords b).mem = s.mem := by simp [State.resetRecords]

@[simp] theorem State.answerStranded_wf {s : State} (h : Memory.wf s.mem = true) {b c} : Memory.wf (s.answerStranded b c).mem = true := by
  refine State.wf_foldl (State.wf_foldl h (fun q w hq => by simp [hq])) (fun q m hq => ?_)
  split <;> simp [hq]

@[simp] theorem State.loseBulkhead_wf {s : State} (h : Memory.wf s.mem = true) {b} : Memory.wf (s.loseBulkhead b).mem = true := by
  have h1 : Memory.wf ((bulkheadCores b).foldl (fun q c => ((q.answerStranded b c).dropCoreKeys c).dropCommands c) s).mem = true :=
    State.wf_foldl h (fun q c hq => State.dropCommands_wf (by simp [hq]))
  rw [State.loseBulkhead, State.mem_withCommands, State.clearClusters_mem, State.mem_foldl_modCore]
  exact h1

theorem execBulkheadReset_canonical {s : State} (h : Memory.wf s.mem = true) {b} : Result.Canonical (execBulkheadReset b s) := by
  unfold execBulkheadReset
  split <;> simp [h]

@[simp] theorem State.scrubBulkhead_wf {s : State} (h : Memory.wf s.mem = true) {b} : Memory.wf (s.scrubBulkhead b).mem = true :=
  State.wf_foldl h (fun _ _ hq => State.wf_zeroBytes hq)

theorem execBulkheadResetComplete_canonical {s : State} (h : Memory.wf s.mem = true) {b} : Result.Canonical (execBulkheadResetComplete b s) := by
  refine Result.canonical_next.2 ?_
  split
  · exact State.finishBhcmd_wf (by rw [State.modBulkhead_mem]; exact State.scrubBulkhead_wf h)
  · exact h

@[simp] theorem State.park_wf {s : State} (h : Memory.wf s.mem = true) {b level} : Memory.wf (s.park b level).mem = true := by
  unfold State.park
  dsimp only
  repeat' split
  all_goals simp [h]

theorem execParkK1_canonical {s : State} (h : Memory.wf s.mem = true) {b} : Result.Canonical (execParkK1 b s) := by simp [execParkK1, h]
theorem execParkK2_canonical {s : State} (h : Memory.wf s.mem = true) {b} : Result.Canonical (execParkK2 b s) := by simp [execParkK2, h]

theorem execUnpark_canonical {s : State} (h : Memory.wf s.mem = true) {b} : Result.Canonical (execUnpark b s) := by
  refine Result.canonical_next.2 ?_
  repeat' split
  all_goals simp [h]

theorem execParkTransitionComplete_canonical {s : State} (h : Memory.wf s.mem = true) {b} : Result.Canonical (execParkTransitionComplete b s) := by
  refine Result.canonical_next.2 ?_
  by_cases hp : (s.bulkhead b).park = 4
  · rw [if_pos hp]
    split <;> refine State.finishBhcmd_wf ?_ <;> rw [State.modBulkhead_mem]
    case h_3 | h_4 => exact State.scrubBulkhead_wf h
    all_goals exact h
  · rw [if_neg hp]
    exact h

@[simp] theorem State.stepDown_wf {s : State} (h : Memory.wf s.mem = true) : Memory.wf s.stepDown.mem = true := by
  unfold State.stepDown
  dsimp only
  repeat' split
  all_goals simp [h]

@[simp] theorem State.stepUp_mem (s : State) : s.stepUp.mem = s.mem := by
  unfold State.stepUp
  repeat' split
  all_goals rfl

theorem execGovernorSample_canonical {s : State} (h : Memory.wf s.mem = true) {draw low} : Result.Canonical (execGovernorSample draw low s) := by
  unfold execGovernorSample
  dsimp only
  split <;> simp [h]

theorem execPstateTransitionComplete_canonical {s : State} (h : Memory.wf s.mem = true) {b} :
    Result.Canonical (execPstateTransitionComplete b s) := by
  simp [execPstateTransitionComplete, h]

@[simp] theorem State.countRas_mem (s : State) (lo) : (s.countRas lo).mem = s.mem := by rfl
@[simp] theorem State.modLink_mem (s : State) (n f) : (s.modLink n f).mem = s.mem := by rfl

theorem execReservedKindPacket_canonical {s : State} (h : Memory.wf s.mem = true) {link kind} :
    Result.Canonical (execReservedKindPacket link kind s) := by
  simp [execReservedKindPacket, h]

theorem execFlitCrcError_canonical {s : State} (h : Memory.wf s.mem = true) {link} : Result.Canonical (execFlitCrcError link s) := by
  simp [execFlitCrcError, h]

theorem execReplayWindow_canonical {s : State} (h : Memory.wf s.mem = true) {link} : Result.Canonical (execReplayWindow link s) := by
  unfold execReplayWindow
  dsimp only
  split <;> simp [h]

theorem execRetrainComplete_canonical {s : State} (h : Memory.wf s.mem = true) {link ok} : Result.Canonical (execRetrainComplete link ok s) := by
  refine Result.canonical_next.2 ?_
  repeat' split
  all_goals simp [h]

@[simp] theorem State.releasePort_mem (s : State) (peer) : (s.releasePort peer).mem = s.mem := by simp [State.releasePort]

theorem execGrpdatWrite_canonical {s : State} (h : Memory.wf s.mem = true) {peer v} : Result.Canonical (execGrpdatWrite peer v s) := by
  simp [execGrpdatWrite, h]

theorem execGroupPortFailure_canonical {s : State} (h : Memory.wf s.mem = true) {failure} : Result.Canonical (execGroupPortFailure failure s) := by
  unfold execGroupPortFailure
  split <;> simp [h]

@[simp] theorem State.ingressFault_mem (s : State) (peer target f m) : (s.ingressFault peer target f m).mem = s.mem := by simp [State.ingressFault]

@[simp] theorem State.ingressPair_wf {s : State} (hs : Memory.wf s.mem = true) {l peer h ws} : Memory.wf (s.ingressPair l peer h ws).mem = true := by
  unfold State.ingressPair
  dsimp only
  repeat' split
  all_goals simp [hs]

@[simp] theorem State.ingressColl_wf {s : State} (hs : Memory.wf s.mem = true) {l peer target h ws} :
    Memory.wf (s.ingressColl l peer target h ws).mem = true := by
  unfold State.ingressColl
  extract_lets id att n keys mask s1 x seq joined
  split
  · split
    · exact hs
    · rw [State.answerWith_mem]
      exact State.wf_foldl hs (fun q v hq => by split <;> simp [hq])
  · split
    · exact State.wf_foldl hs (fun q z hq => by simp [hq])
    · exact State.joinColl_wf hs

theorem execGroupIngress_canonical {s : State} (h : Memory.wf s.mem = true) {peer part kind target payload} :
    Result.Canonical (execGroupIngress peer part kind target payload s) := by
  refine Result.canonical_next.2 ?_
  dsimp only
  repeat' split
  all_goals simp [h]

@[simp] theorem State.forwardRecord_mem (s : State) (vf n) : (s.forwardRecord vf n).mem = s.mem := by
  unfold State.forwardRecord
  dsimp only
  repeat' split
  all_goals simp

@[simp] theorem State.forwardRecords_mem (vf n) : ∀ s : State, (s.forwardRecords vf n).mem = s.mem := by
  induction n with
  | zero => exact fun _ => rfl
  | succ n ih => exact fun s => (ih _).trans (State.forwardRecord_mem ..)

theorem execDoorbell_canonical {s : State} (h : Memory.wf s.mem = true) {vf prod window} : Result.Canonical (execDoorbell vf prod window s) := by
  simp [execDoorbell, h]

@[simp] theorem State.fenceBulkheads_mem (s : State) : (s.fenceBulkheads).mem = s.mem := by simp [State.fenceBulkheads]

@[simp] theorem State.journalFences_wf {s : State} (h : Memory.wf s.mem = true) {badCompute} : Memory.wf (s.journalFences badCompute).mem = true :=
  State.wf_foldl (State.wf_foldl h (fun q d hq => by split <;> simp [hq])) (fun q k hq => by split <;> simp [hq])

theorem State.restarted_canonical (s : State) : Memory.wf s.restarted.mem = true := by rfl

@[simp] theorem State.applyFences_wf {s : State} (h : Memory.wf s.mem = true) {badCompute badGateway badStack} :
    Memory.wf (s.applyFences badCompute badGateway badStack).mem = true := by
  simp [State.applyFences, h]

@[simp] theorem State.poisonRow_mem (s : State) (mc bank row) : (s.poisonRow mc bank row).mem = s.mem := State.mem_withPoison s _

@[simp] theorem State.poisonRetired_mem (s : State) : s.poisonRetired.mem = s.mem :=
  State.mem_foldl _ _ _ (fun _ _ => State.mem_foldl _ _ _ (fun _ _ => State.mem_foldl _ _ _ (fun _ _ => State.poisonRow_mem ..)))

theorem execColdStart_canonical {s : State} {badCompute badGateway badStack} : Result.Canonical (execColdStart badCompute badGateway badStack s) := by
  refine Result.canonical_next.2 ?_
  split
  · exact State.restarted_canonical s
  · refine State.applyFences_wf ?_
    rw [State.mem_withPkg, State.poisonRetired_mem]
    exact State.restarted_canonical s

theorem execWarmStart_canonical {s : State} (h : Memory.wf s.mem = true) {badCompute badGateway badStack} :
    Result.Canonical (execWarmStart badCompute badGateway badStack s) := by
  refine Result.canonical_next.2 ?_
  dsimp only
  split
  · exact State.restarted_canonical s
  · refine State.applyFences_wf ?_
    refine State.wf_foldl h (fun q b hq => ?_)
    split
    · exact State.scrubBulkhead_wf hq
    · exact hq

/-! ### Memory -/

@[simp] theorem State.closeRows_mem (s : State) (mc) : (s.closeRows mc).mem = s.mem := by
  unfold State.closeRows
  split <;> rfl

theorem execChannelAccess_canonical {s0 : State} (h : Memory.wf s0.mem = true) {mc} : Result.Canonical (execChannelAccess mc s0) := by
  refine Result.canonical_next.2 ?_
  dsimp only
  repeat' split
  all_goals simp [h]

@[simp] theorem State.completeAccess_wf {s : State} (h : Memory.wf s.mem = true) {c k gen addr data} :
    Memory.wf (s.completeAccess c k gen addr data).mem = true := by
  unfold State.completeAccess
  dsimp only
  repeat' split
  all_goals simp [h]

theorem execChannelAccessComplete_canonical {s : State} (h : Memory.wf s.mem = true) {mc bank} :
    Result.Canonical (execChannelAccessComplete mc bank s) := by
  unfold execChannelAccessComplete
  repeat' split
  all_goals simp [h]

theorem execRowClose_canonical {s : State} (h : Memory.wf s.mem = true) {mc bank} : Result.Canonical (execRowClose mc bank s) := by
  simp [execRowClose, h]

@[simp] theorem State.refreshSlot_mem (s : State) (mc k) : (s.refreshSlot mc k).mem = s.mem := by simp [State.refreshSlot]

theorem execRefreshSlot_canonical {s : State} (h : Memory.wf s.mem = true) {mc k} : Result.Canonical (execRefreshSlot mc k s) := by
  simp [execRefreshSlot, h]

@[simp] theorem State.slotOfCycle_mem (s : State) (c) : (s.slotOfCycle c).mem = s.mem := by simp [State.slotOfCycle]

theorem execRefreshDrain_canonical {s : State} (h : Memory.wf s.mem = true) {mc} : Result.Canonical (execRefreshDrain mc s) := by
  simp [execRefreshDrain, h]

theorem execRefreshComplete_canonical {s : State} (h : Memory.wf s.mem = true) {mc bank} : Result.Canonical (execRefreshComplete mc bank s) := by
  refine Result.canonical_next.2 ?_
  repeat' split
  all_goals simp [h]

@[simp] theorem State.scrubbed_wf {s : State} (h : Memory.wf s.mem = true) {a n err lo} : Memory.wf (s.scrubbed a n err lo).mem = true := by
  unfold State.scrubbed
  split <;> simp [h]

theorem execScratchpadScrub_canonical {s : State} (h : Memory.wf s.mem = true) {c w err} : Result.Canonical (execScratchpadScrub c w err s) := by
  unfold execScratchpadScrub
  split <;> simp [h]

theorem execPatrolScrub_canonical {s : State} (h : Memory.wf s.mem = true) {mc u err} : Result.Canonical (execPatrolScrub mc u err s) := by
  refine Result.canonical_next.2 ?_
  dsimp only
  repeat' split
  all_goals simp [h]

@[simp] theorem State.poisonUnits_mem (s : State) (mc bank row lost) : (s.poisonUnits mc bank row lost).mem = s.mem := by rfl

@[simp] theorem State.retireRow_wf {s : State} (h : Memory.wf s.mem = true) {mc bank row} : Memory.wf (s.retireRow mc bank row).mem = true := by
  rw [State.retireRow]
  split
  · rw [State.sendRecord_mem]
    exact State.journalEntry_wf (by rw [State.modChannel_mem, State.poisonRow_mem]; exact h)
  · exact State.journalEntry_wf (by rw [State.modChannel_mem, State.poisonRow_mem]; exact h)

theorem execRowSpare_canonical {s : State} (h : Memory.wf s.mem = true) {mc bank row bad lost} :
    Result.Canonical (execRowSpare mc bank row bad lost s) := by
  refine Result.canonical_next.2 ?_
  dsimp only
  repeat' split
  all_goals simp [h]

/-! ### Schedule -/

@[simp] theorem State.advance_mem (s : State) (m) : (s.advance m).mem = s.mem := by
  unfold State.advance
  split <;> rfl

@[simp] theorem State.focus_mem (s : State) (c k) : (s.focus c k).mem = s.mem := by rfl

@[simp] theorem State.watchBanks_wf {s : State} (h : Memory.wf s.mem = true) {c} : Memory.wf (s.watchBanks c).mem = true := by
  unfold State.watchBanks
  split
  · exact State.wf_foldl (by simp [h]) (fun q j hq => State.idleBank_wf hq)
  · exact h

@[simp] theorem State.settleClock_wf {s : State} (h : Memory.wf s.mem = true) {c} : Memory.wf (s.settleClock c).mem = true := by
  rw [State.settleClock, State.slotOfCycle_mem, State.portStep_mem]
  exact State.wf_foldl (State.land_wf h) (fun q k hq => State.settleTimer_wf hq)

@[simp] theorem State.endCycle_mem (s : State) (c) : (s.endCycle c).mem = s.mem := by
  unfold State.endCycle
  split <;> rfl

/-! ### Instructions and events -/

/-- An instruction that goes on keeps memory canonical. The one-register forms share the rule of the combinator they are built from. -/
theorem exec_canonical {s : State} (h : Memory.wf s.mem = true) (i : Instr) : Result.Canonical (exec i s) := by
  cases i with dsimp only [exec]
  | add | sub | and | or | xor | andn | sll | srl | sra | rol | mul | mulh | mulhu | slt | sltu | min | max | minu | maxu | addw | subw | clz | ctz
    | popc | brev | bswap | sextb | sexth | sextw | zextw | selz | selnz | extv | insv | adds | subs | addi | andi | ori | xori | slti | sltiu | slli
    | srli | srai | roli | extu | exts | ins | li | lish | addpc | barq | movK | addK | subK | andK | orK | xorK | addiK | slliK
    => exact State.scalarOp_canonical h
  | div | divu | rem | remu => exact State.iterative_canonical h
  | beq | bne | blt | bge | bltu | bgeu | beqz | bnez => exact State.branch_canonical h
  | ldb | ldbu | ldh | ldhu | ldw | ldwu | ldd | lddK => exact State.scalarLoad_canonical h
  | stb | sth | stw | std | stdK => exact State.scalarStore_canonical h
  | fadd | fsub | fmul | fmin | fmax | fsgnj | fsgnjn | fcvtIf | fma | fms | fnma => exact State.floatOp_canonical h
  | fdiv | fsqrt | fsin | fcos | fexp2 | flog2 => exact State.floatIter_canonical h
  | fclass => exact State.flagOp_canonical h
  | segld | segst => exact State.segmentMove_canonical h
  | vadd | vsub | vmul | vfma | vmin | vmax | vshl | vshr | vsra | vadds | vsubs | vmulh => exact State.laneOp_canonical h
  | vabs | vneg => exact State.laneOp1_canonical h
  | vand | vor | vxor | vsel | vmov => exact State.vectorOp_canonical h
  | vcmpeq | vcmplt | vcmple => exact State.compareOp_canonical h
  | vredadd | vredmax | vredmin => exact State.reduceOp_canonical h
  | amoadd | amoand | amoor | amoxor | amomin | amomax | amominu | amomaxu | amoswap | amocas | amofadd
    => exact Result.canonical_next.2 (State.amo_wf h)
  | tladd | tlset | tlrd | tlwait | tkt | tkwait | tkdone => exact Result.canonical_next.2 (State.syncOp_wf h)
  | vrcp | vrsq | vexp2 | vlog2 | vsin | vcos | vtanh | vsigm => exact State.sfuOp_canonical h
  | jal => exact execJal_canonical h
  | jalr => exact execJalr_canonical h
  | fork => exact execFork_canonical h
  | halt => exact execHalt_canonical h
  | haltk => exact execHaltk_canonical h
  | yield => exact execYield_canonical h
  | wake => exact execWake_canonical h
  | bsig => exact execBsig_canonical h
  | ldacq => exact execLdacq_canonical h
  | strel => exact execStrel_canonical h
  | fence => exact execFence_canonical h
  | fenceI => exact execFenceI_canonical h
  | send => exact execSend_canonical h
  | actm => exact execActm_canonical h
  | mbpop => exact execMbpop_canonical h
  | mbpeek => exact execMbpeek_canonical h
  | mbwait => exact execMbwait_canonical h
  | chld => exact execChld_canonical h
  | chldv => exact execChldv_canonical h
  | logapp => exact execLogapp_canonical h
  | logseal => exact execLogseal_canonical h
  | barset => exact execBarset_canonical h
  | barj => exact execBarj_canonical h
  | barw => exact execBarw_canonical h
  | clinit => exact execClinit_canonical h
  | cldec => exact execCldec_canonical h
  | clpush => exact execClpush_canonical h
  | clend => exact execClend_canonical h
  | qpush => exact execQpush_canonical h
  | qpop => exact execQpop_canonical h
  | qpopw => exact execQpopw_canonical h
  | chnk => exact execChnk_canonical h
  | cpy => exact execCpy_canonical h
  | cpyg => exact execCpyg_canonical h
  | cpys => exact execCpys_canonical h
  | publish => exact execPublish_canonical h
  | htst => exact execHtst_canonical h
  | hwait => exact execHwait_canonical h
  | hdet => exact execHdet_canonical h
  | hcan => exact execHcan_canonical h
  | mcrd => exact execMcrd_canonical h
  | mcwr => exact execMcwr_canonical h
  | pusht => exact execPusht_canonical h
  | mma => exact execMma_canonical h
  | mmag => exact execMmag_canonical h
  | mxzero => exact execMxzero_canonical h
  | mxlda => exact execMxlda_canonical h
  | mxst => exact execMxst_canonical h
  | mxepi => exact execMxepi_canonical h
  | fitset => exact execFitset_canonical h
  | fitget => exact execFitget_canonical h
  | poprank => exact execPoprank_canonical h
  | blend => exact execBlend_canonical h
  | blendx => exact execBlendx_canonical h
  | linrd => exact execLinrd_canonical h
  | coll => exact execColl_canonical h
  | cabort => exact execCabort_canonical h
  | catt => exact execCatt_canonical h
  | feq => exact execFeq_canonical h
  | flt => exact execFlt_canonical h
  | fle => exact execFle_canonical h
  | fcvtFi => exact execFcvtFi_canonical h
  | fcvtP => exact execFcvtP_canonical h
  | mfc => exact execMfc_canonical h
  | mtc => exact execMtc_canonical h
  | trap => exact execTrap_canonical h
  | eret => exact execEret_canonical h
  | bkpt => exact execBkpt_canonical h
  | vdiv => exact execVdiv_canonical h
  | vshuf => exact execVshuf_canonical h
  | vbcast => exact execVbcast_canonical h
  | vextr => exact execVextr_canonical h
  | vins => exact execVins_canonical h
  | vdot => exact execVdot_canonical h
  | vcvt => exact execVcvt_canonical h
  | vld => exact execVld_canonical h
  | vst => exact execVst_canonical h
  | illegalInstruction => exact execIllegalInstruction_canonical h
  | slotGrant => exact execSlotGrant_canonical h
  | generationAdvance => exact execGenerationAdvance_canonical h
  | yieldIntervalEnd => exact execYieldIntervalEnd_canonical h
  | divideComplete => exact execDivideComplete_canonical h
  | fpIterativeComplete => exact execFpIterativeComplete_canonical h
  | vectorIterativeComplete => exact execVectorIterativeComplete_canonical h
  | bankPowerDown => exact execBankPowerDown_canonical h
  | bankPowerUp => exact execBankPowerUp_canonical h
  | slotLend => exact execSlotLend_canonical h
  | spill => exact execSpill_canonical h
  | fill => exact execFill_canonical h
  | loadRequest => exact execLoadRequest_canonical h
  | store => exact execStore_canonical h
  | dataReply => exact execDataReply_canonical h
  | acknowledgement => exact execAcknowledgement_canonical h
  | registerParityError => exact execRegisterParityError_canonical h
  | sharedBankParityError => exact execSharedBankParityError_canonical h
  | mailboxMessage => exact execMailboxMessage_canonical h
  | mbwaitTimeout => exact execMbwaitTimeout_canonical h
  | activeMessage => exact execActiveMessage_canonical h
  | messageStatus => exact execMessageStatus_canonical h
  | wakeMessage => exact execWakeMessage_canonical h
  | chainStep => exact execChainStep_canonical h
  | chainReply => exact execChainReply_canonical h
  | atomic => exact execAtomic_canonical h
  | synchronisation => exact execSynchronisation_canonical h
  | waitRetry => exact execWaitRetry_canonical h
  | logAppend => exact execLogAppend_canonical h
  | controlSpaceAccess => exact execControlSpaceAccess_canonical h
  | slotctlResume => exact execSlotctlResume_canonical h
  | skip => exact execSkip_canonical h
  | kill => exact execKill_canonical h
  | release => exact execRelease_canonical h
  | heldMessageAppend => exact execHeldMessageAppend_canonical h
  | overflowQueueDelivery => exact execOverflowQueueDelivery_canonical h
  | overflowRetry => exact execOverflowRetry_canonical h
  | pageTableWalk => exact execPageTableWalk_canonical h
  | scoreboardGrant => exact execScoreboardGrant_canonical h
  | mergeWindowEnd => exact execMergeWindowEnd_canonical h
  | bufferHeaderAccess => exact execBufferHeaderAccess_canonical h
  | copyPiece => exact execCopyPiece_canonical h
  | engineCompletion => exact execEngineCompletion_canonical h
  | publishFlip => exact execPublishFlip_canonical h
  | pressFetch => exact execPressFetch_canonical h
  | pressStart => exact execPressStart_canonical h
  | pressComplete => exact execPressComplete_canonical h
  | dispatcherStage => exact execDispatcherStage_canonical h
  | heldRingPush => exact execHeldRingPush_canonical h
  | keyRequest => exact execKeyRequest_canonical h
  | keyGrant => exact execKeyGrant_canonical h
  | keyRetry => exact execKeyRetry_canonical h
  | keyRelease => exact execKeyRelease_canonical h
  | qpopwTimeout => exact execQpopwTimeout_canonical h
  | blendPair => exact execBlendPair_canonical h
  | collectiveContribution => exact execCollectiveContribution_canonical h
  | abortToken => exact execAbortToken_canonical h
  | faultQueueAppend => exact execFaultQueueAppend_canonical h
  | reservedKindPacket => exact execReservedKindPacket_canonical h
  | groupIngress => exact execGroupIngress_canonical h
  | rotationWrite => exact execRotationWrite_canonical h
  | sigctlWrite => exact execSigctlWrite_canonical h
  | mailboxConfigWrite => exact execMailboxConfigWrite_canonical h
  | logConfigWrite => exact execLogConfigWrite_canonical h
  | pinRelease => exact execPinRelease_canonical h
  | xlat => exact execXlat_canonical h
  | partitionRegisterWrite => exact execPartitionRegisterWrite_canonical h
  | faultQueueConfigWrite => exact execFaultQueueConfigWrite_canonical h
  | fqtailWrite => exact execFqtailWrite_canonical h
  | linsizeWrite => exact execLinsizeWrite_canonical h
  | tlbinv => exact execTlbinv_canonical h
  | qcfg => exact execQcfg_canonical h
  | rcbAdmit => exact execRcbAdmit_canonical h
  | rcbWithdraw => exact execRcbWithdraw_canonical h
  | preempt => exact execPreempt_canonical h
  | resume => exact execResume_canonical h
  | pmapdatWrite => exact execPmapdatWrite_canonical h
  | create => exact execCreate_canonical h
  | destroy => exact execDestroy_canonical h
  | extend => exact execExtend_canonical h
  | releaseVirtualBulkhead => exact execReleaseVirtualBulkhead_canonical h
  | mcbindBind => exact execMcbindBind_canonical h
  | mcbindUnbind => exact execMcbindUnbind_canonical h
  | bulkheadReset => exact execBulkheadReset_canonical h
  | bulkheadResetComplete => exact execBulkheadResetComplete_canonical h
  | parkK1 => exact execParkK1_canonical h
  | parkK2 => exact execParkK2_canonical h
  | unpark => exact execUnpark_canonical h
  | parkTransitionComplete => exact execParkTransitionComplete_canonical h
  | pwrceilWrite => exact execPwrceilWrite_canonical h
  | governorSample => exact execGovernorSample_canonical h
  | pstateTransitionComplete => exact execPstateTransitionComplete_canonical h
  | grpdatWrite => exact execGrpdatWrite_canonical h
  | doorbell => exact execDoorbell_canonical h
  | scratchpadScrub => exact execScratchpadScrub_canonical h
  | patrolScrub => exact execPatrolScrub_canonical h
  | rowSpare => exact execRowSpare_canonical h
  | channelAccess => exact execChannelAccess_canonical h
  | rowClose => exact execRowClose_canonical h
  | refreshSlot => exact execRefreshSlot_canonical h
  | refreshDrain => exact execRefreshDrain_canonical h
  | flitCrcError => exact execFlitCrcError_canonical h
  | replayWindow => exact execReplayWindow_canonical h
  | retrainComplete => exact execRetrainComplete_canonical h
  | coldStart => exact execColdStart_canonical
  | warmStart => exact execWarmStart_canonical h
  | codeletCounterRequest => exact execCodeletCounterRequest_canonical h
  | carafeQueueOperation => exact execCarafeQueueOperation_canonical h
  | tokenQuery => exact execTokenQuery_canonical h
  | fitRead => exact execFitRead_canonical h
  | channelAccessComplete => exact execChannelAccessComplete_canonical h
  | refreshComplete => exact execRefreshComplete_canonical h
  | groupPortFailure => exact execGroupPortFailure_canonical h
  | bhctlWrite => exact execBhctlWrite_canonical h

/-- An event that takes place keeps memory canonical. -/
theorem Event.run_canonical {s : State} (h : Memory.wf s.mem = true) (e : Event) : Result.Canonical (e.run s) := by
  cases e with
  | spill => exact execSpill_canonical h
  | fill => exact execFill_canonical h
  | generationAdvance => exact execGenerationAdvance_canonical h
  | yieldIntervalEnd => exact execYieldIntervalEnd_canonical h
  | divideComplete => exact execDivideComplete_canonical h
  | fpIterativeComplete => exact execFpIterativeComplete_canonical h
  | vectorIterativeComplete => exact execVectorIterativeComplete_canonical h
  | mbwaitTimeout => exact execMbwaitTimeout_canonical h
  | qpopwTimeout => exact execQpopwTimeout_canonical h
  | waitRetry => exact execWaitRetry_canonical h
  | dispatcherStage => exact execDispatcherStage_canonical h
  | slotGrant => exact execSlotGrant_canonical h
  | slotLend => exact execSlotLend_canonical h
  | heldRingPush => exact execHeldRingPush_canonical h
  | bankPowerUp => exact execBankPowerUp_canonical h
  | scoreboardGrant => exact execScoreboardGrant_canonical h
  | pressFetch => exact execPressFetch_canonical h
  | pressStart => exact execPressStart_canonical h
  | pressComplete => exact execPressComplete_canonical h
  | keyRetry => exact execKeyRetry_canonical h
  | pageTableWalk => exact execPageTableWalk_canonical h
  | mergeWindowEnd => exact execMergeWindowEnd_canonical h
  | bufferHeaderAccess => exact execBufferHeaderAccess_canonical h
  | copyPiece => exact execCopyPiece_canonical h
  | publishFlip => exact execPublishFlip_canonical h
  | blendPair => exact execBlendPair_canonical h
  | engineCompletion => exact execEngineCompletion_canonical h
  | loadRequest => exact execLoadRequest_canonical h
  | store => exact execStore_canonical h
  | dataReply => exact execDataReply_canonical h
  | acknowledgement => exact execAcknowledgement_canonical h
  | mailboxMessage => exact execMailboxMessage_canonical h
  | activeMessage => exact execActiveMessage_canonical h
  | messageStatus => exact execMessageStatus_canonical h
  | wakeMessage => exact execWakeMessage_canonical h
  | chainStep => exact execChainStep_canonical h
  | chainReply => exact execChainReply_canonical h
  | atomic => exact execAtomic_canonical h
  | synchronisation => exact execSynchronisation_canonical h
  | logAppend => exact execLogAppend_canonical h
  | controlSpaceAccess => exact execControlSpaceAccess_canonical h
  | heldMessageAppend => exact execHeldMessageAppend_canonical h
  | overflowQueueDelivery => exact execOverflowQueueDelivery_canonical h
  | overflowRetry => exact execOverflowRetry_canonical h
  | keyRequest => exact execKeyRequest_canonical h
  | keyGrant => exact execKeyGrant_canonical h
  | keyRelease => exact execKeyRelease_canonical h
  | collectiveContribution => exact execCollectiveContribution_canonical h
  | abortToken => exact execAbortToken_canonical h
  | faultQueueAppend => exact execFaultQueueAppend_canonical h
  | codeletCounterRequest => exact execCodeletCounterRequest_canonical h
  | carafeQueueOperation => exact execCarafeQueueOperation_canonical h
  | tokenQuery => exact execTokenQuery_canonical h
  | fitRead => exact execFitRead_canonical h
  | partitionRegisterWrite => exact execPartitionRegisterWrite_canonical h
  | faultQueueConfigWrite => exact execFaultQueueConfigWrite_canonical h
  | fqtailWrite => exact execFqtailWrite_canonical h
  | linsizeWrite => exact execLinsizeWrite_canonical h
  | tlbinv => exact execTlbinv_canonical h
  | qcfg => exact execQcfg_canonical h
  | rcbAdmit => exact execRcbAdmit_canonical h
  | rcbWithdraw => exact execRcbWithdraw_canonical h
  | preempt => exact execPreempt_canonical h
  | resume => exact execResume_canonical h
  | pmapdatWrite => exact execPmapdatWrite_canonical h
  | create => exact execCreate_canonical h
  | destroy => exact execDestroy_canonical h
  | extend => exact execExtend_canonical h
  | releaseVirtualBulkhead => exact execReleaseVirtualBulkhead_canonical h
  | mcbindBind => exact execMcbindBind_canonical h
  | mcbindUnbind => exact execMcbindUnbind_canonical h
  | bulkheadReset => exact execBulkheadReset_canonical h
  | bulkheadResetComplete => exact execBulkheadResetComplete_canonical h
  | parkK1 => exact execParkK1_canonical h
  | parkK2 => exact execParkK2_canonical h
  | unpark => exact execUnpark_canonical h
  | parkTransitionComplete => exact execParkTransitionComplete_canonical h
  | pstateTransitionComplete => exact execPstateTransitionComplete_canonical h
  | grpdatWrite => exact execGrpdatWrite_canonical h
  | channelAccess => exact execChannelAccess_canonical h
  | rowClose => exact execRowClose_canonical h
  | refreshDrain => exact execRefreshDrain_canonical h
  | channelAccessComplete => exact execChannelAccessComplete_canonical h
  | refreshComplete => exact execRefreshComplete_canonical h

/-! ### Step -/

/-- A device step of the schedule keeps memory canonical. -/
theorem deviceStep_canonical {s : State} (h : Memory.wf s.mem = true) (i : Instr) : Result.Canonical (deviceStep i s) := by
  unfold deviceStep
  split
  · exact exec_canonical h i
  · exact Result.canonical_next.2 h

/-- The state that a core's cycle has reached when its slot is chosen and its fetch is done. -/
def Cycle.state : Cycle → State
  | .idle t => t
  | .issue _ t => t

theorem State.beginCycle_wf {s : State} (h : Memory.wf s.mem = true) (c : CoreId) : Memory.wf (s.beginCycle c).state.mem = true := by
  have hq : Memory.wf ((s.settleClock c).watchBanks c).mem = true := State.watchBanks_wf (State.settleClock_wf h)
  unfold State.beginCycle
  dsimp only
  split
  · split
    · exact hq
    · split
      · exact hq
      · next k _ =>
        have hf : Memory.wf (((s.settleClock c).watchBanks c).focus c k).mem = true := (State.focus_mem _ c k).symm ▸ hq
        split
        · exact hf
        · next hstop => exact (State.fetch_stop_mem _ hstop).symm ▸ hf
  · exact h

theorem issueStep_canonical {s : State} (h : Memory.wf s.mem = true) (c : CoreId) (i : Instr) : Result.Canonical (issueStep c i s) := by
  have hi := exec_canonical h i
  unfold issueStep
  split
  · next t ht => exact Result.canonical_next.2 (by simpa using hi t ht)
  all_goals exact fun t ht => nomatch ht

theorem cycleStep_canonical {s : State} (h : Memory.wf s.mem = true) (c : CoreId) : Result.Canonical (cycleStep c s) := by
  have hb := State.beginCycle_wf h c
  unfold cycleStep
  split
  · next t ht => exact Result.canonical_next.2 (by simpa [ht, Cycle.state] using hb)
  · next i t ht => exact issueStep_canonical (by simpa [ht, Cycle.state] using hb) c i

theorem moveStep_canonical {s : State} (h : Memory.wf s.mem = true) (m : Move) : Result.Canonical (moveStep m s) := by
  match m with
  | .turn .fabric => exact Result.canonical_next.2 h
  | .turn (.device i) => exact deviceStep_canonical h i
  | .turn (.cycle c) => exact cycleStep_canonical h c
  | .event e => exact Event.run_canonical h e

theorem step_canonical {s : State} (h : Memory.wf s.mem = true) : Result.Canonical (step s) := by
  unfold step
  split
  · exact fun t ht => nomatch ht
  · exact moveStep_canonical (by simpa using h) _

/-- Settles O56: each move — a device step, an event, the cycle of a core — writes memory only through operations that keep it
canonical, the frame and writer lemmas above. -/
theorem everyStepKeepsCanonicalMemory : Obligations.EveryStepKeepsCanonicalMemory := by
  unfold Obligations.EveryStepKeepsCanonicalMemory
  exact fun s t h ht => step_canonical h t ht

/-! ### A step runs the decoded instruction -/

theorem State.readNat_two (s : State) (a : Nat) : s.readNat a 2 = (s.readByte a).toNat + 256 * (s.readByte (a + 1)).toNat := by rfl

/-- The bytes of the parcel that memory holds are the bytes of memory. -/
theorem State.parcelBytes_parcel (s : State) (a : Nat) : parcelBytes (s.parcel a) = s.readBytes a 2 := by
  have h0 := (s.readByte a).isLt
  simp only [State.parcel, State.readNat_two, parcelBytes, State.readBytes, List.cons.injEq, and_true]
  exact ⟨BitVec.eq_of_toNat_eq (by simp only [BitVec.toNat_ofNat]; omega), BitVec.eq_of_toNat_eq (by simp only [BitVec.toNat_ofNat]; omega)⟩

/-- What the decoder is given for one parcel in memory. -/
theorem State.parcelBytes_one (s : State) (a p1 : Nat) :
    parcelBytes (s.parcel a) ++ (if false then parcelBytes p1 else []) = s.readBytes a 2 := by
  simp [State.parcelBytes_parcel]

/-- What the decoder is given for two parcels in memory. -/
theorem State.parcelBytes_two (s : State) (a0 a1 : Nat) :
    parcelBytes (s.parcel a0) ++ (if true then parcelBytes (s.parcel a1) else []) = s.readBytes a0 2 ++ s.readBytes a1 2 := by
  simp [State.parcelBytes_parcel]

/-- The first two bits of a parcel in memory tell one parcel from two (02_encoding R37). -/
theorem State.isLong_parcel (s : State) (a : Nat) : isLong (s.parcel a) = true ↔ s.readNat a 2 / 2 ^ 14 = 3 := by
  have h0 := (s.readByte a).isLt
  have h1 := (s.readByte (a + 1)).isLt
  have ha := s.readNat_two a
  simp only [isLong, State.parcel, fld, beq_iff_eq]
  omega

theorem decodeOn_of_exists {c : CoreId} {p0 p1 : Nat} {two : Bool} {i : Instr} {l : List (BitVec 8)}
    (hd : decode (parcelBytes p0 ++ (if two then parcelBytes p1 else [])) = .ok (i, l)) (hi : Instr.existsOn i c = true) :
    decodeOn c p0 p1 two = i := by
  simp [decodeOn, hd, hi]

theorem decodeOn_of_absent {c : CoreId} {p0 p1 : Nat} {two : Bool} {i : Instr} {l : List (BitVec 8)}
    (hd : decode (parcelBytes p0 ++ (if two then parcelBytes p1 else [])) = .ok (i, l)) (hi : Instr.existsOn i c = false) :
    decodeOn c p0 p1 two = .illegalInstruction (BitVec.ofNat 16 p0) (BitVec.ofNat 16 p1) two := by
  simp [decodeOn, hd, hi]

theorem decodeOn_of_error {c : CoreId} {p0 p1 : Nat} {two : Bool} {e : Reject}
    (hd : decode (parcelBytes p0 ++ (if two then parcelBytes p1 else [])) = .error e) :
    decodeOn c p0 p1 two = .illegalInstruction (BitVec.ofNat 16 p0) (BitVec.ofNat 16 p1) two := by
  simp [decodeOn, hd]

/-- One parcel that passes its checks is fetched and decoded. -/
theorem State.fetch_of_short {w : State} {a0 : Nat} (hp : w.parcelAt w.curCore w.curSlot w.cur.pc = .at_ a0) (hh : w.fetchHeld a0 = false)
    (hn : w.isPoisoned a0 2 = false) (hs : w.readNat a0 2 / 2 ^ 14 ≠ 3) : w.fetch = .run (decodeOn w.curCore (w.parcel a0) 0 false) := by
  have hl : isLong (w.parcel a0) = false := by simpa using mt (w.isLong_parcel a0).1 hs
  simp [State.fetch, hp, hh, hl, hn]

/-- Two parcels that pass their checks are fetched and decoded. -/
theorem State.fetch_of_long {w : State} {a0 a1 : Nat} (hp : w.parcelAt w.curCore w.curSlot w.cur.pc = .at_ a0) (hh : w.fetchHeld a0 = false)
    (hn : w.isPoisoned a0 2 = false) (hs : w.readNat a0 2 / 2 ^ 14 = 3)
    (hp1 : w.parcelAt w.curCore w.curSlot (addOffset w.cur.pc 2) = .at_ a1) (hh1 : w.fetchHeld a1 = false) (hn1 : w.isPoisoned a1 2 = false) :
    w.fetch = .run (decodeOn w.curCore (w.parcel a0) (w.parcel a1) true) := by
  have hl : isLong (w.parcel a0) = true := (w.isLong_parcel a0).2 hs
  simp only [State.fetch, hp, hh, hl, hn, hp1, hh1, hn1, Bool.or_self, Bool.false_eq_true, if_true, if_false]

/-- At a core's cycle the schedule's head is taken off and the cycle runs. -/
theorem step_of_cycle {s : State} {c : CoreId} {rest : List Turn} (hr : s.pkg.inReset = false) (hs : s.schedule = .cycle c :: rest) :
    step s = cycleStep c { s with tick := s.tick + 1, schedule := rest } := by
  have hm : s.nextMove = .turn (.cycle c) := by simp [State.nextMove, hs]
  have ha : s.advance (.turn (.cycle c)) = { s with tick := s.tick + 1, schedule := rest } := by simp [State.advance, hs]
  rw [step, if_neg (by simp [hr]), hm, ha]
  rfl

/-- A cycle whose slot fetches an instruction is the step of that instruction. -/
theorem cycleStep_of_fetch {s : State} {c : CoreId} {k : Nat} {i : Instr} (hc : s.clockRuns c = true)
    (hh : (((s.settleClock c).watchBanks c).core c).halted = false) (hk : (((s.settleClock c).watchBanks c).core c).issueSlot = some k)
    (hf : (((s.settleClock c).watchBanks c).focus c k).fetch = .run i) :
    cycleStep c s = issueStep c i (((s.settleClock c).watchBanks c).focus c k) := by
  have hb : s.beginCycle c = .issue i (((s.settleClock c).watchBanks c).focus c k) := by simp [State.beginCycle, hc, hh, hk, hf]
  rw [cycleStep, hb]

/-- Settles O52: the fetch of one parcel and of two, and what the decoder answers, each with the cycle it stands in. -/
theorem aStepRunsTheDecodedInstruction : Obligations.AStepRunsTheDecodedInstruction := by
  unfold Obligations.AStepRunsTheDecodedInstruction
  intro s c k a0 a1 i rest hr hs q w runs hc hh hk hp hf hn p0 p1
  have hrun : ∀ j, w.fetch = .run j → runs j := fun j hj => (step_of_cycle hr hs).trans (cycleStep_of_fetch hc hh hk hj)
  have hone : ∀ {x}, decode (w.readBytes a0 2) = x → decode _ = x := (congrArg decode (w.parcelBytes_one a0 0)).trans
  have htwo : ∀ {x}, decode (w.readBytes a0 2 ++ w.readBytes a1 2) = x → decode _ = x := (congrArg decode (w.parcelBytes_two a0 a1)).trans
  refine ⟨fun h hd hi => ?_, fun e h hd => ?_, fun h hp1 hf1 hn1 => ?_⟩
  · exact hrun _ ((State.fetch_of_short hp hf hn h).trans (congrArg Fetched.run (decodeOn_of_exists (hone hd) hi)))
  · exact hrun _ ((State.fetch_of_short hp hf hn h).trans (congrArg Fetched.run (decodeOn_of_error (hone hd))))
  · have hlong := State.fetch_of_long hp hf hn h hp1 hf1 hn1
    refine ⟨fun hd hi => ?_, fun hd hi => ?_, fun e hd => ?_⟩
    · exact hrun _ (hlong.trans (congrArg Fetched.run (decodeOn_of_exists (htwo hd) hi)))
    · exact hrun _ (hlong.trans (congrArg Fetched.run (decodeOn_of_absent (htwo hd) hi)))
    · exact hrun _ (hlong.trans (congrArg Fetched.run (decodeOn_of_error (htwo hd))))

/-! ### Reset -/

/-- A start changes nothing of a core's reset value but its slots. -/
theorem Core.initial_eq (c : CoreId) : Core.initial c = { Core.reset with slots := (Core.initial c).slots } := by
  unfold Core.initial
  split <;> rfl

/-- A slot after a start is the reset slot; a firmware slot holds level 2 besides. -/
theorem Core.initial_slot (c : CoreId) (k : Nat) :
    (Core.initial c).slot k = Slot.reset ∨ (Core.initial c).slot k = { Slot.reset with privst := 2 } := by
  unfold Core.initial Core.slot
  split
  · exact .inl (by simp [Core.reset])
  · simp only [Fin.getElem_fin, Vector.getElem_ofFn]
    split
    · exact .inr rfl
    · exact .inl rfl

/-- The rotation at reset: turn i is slot i's, eight fields of 5 bits in each register (03_strands R73). -/
theorem Core.reset_rotation : Core.reset.rotlo.toNat = (List.range 8).foldl (fun n i => n + i * 2 ^ (5 * i)) 0
    ∧ Core.reset.rothi.toNat = (List.range 8).foldl (fun n i => n + (8 + i) * 2 ^ (5 * i)) 0 := by decide

@[simp] theorem State.reset_core (c : CoreId) : State.reset.core c = Core.initial c := by rfl

/-- Settles O58: no core, partition or bulkhead is listed at reset, so each is its reset value, and cores differ in their firmware slots alone. -/
theorem resetLeavesTheStatedValues : Obligations.ResetLeavesTheStatedValues := by
  unfold Obligations.ResetLeavesTheStatedValues
  refine ⟨rfl, fun _ => rfl, fun c k => ?_, fun c b => ?_, fun c => ?_, fun _ => rfl, rfl, rfl, fun _ => ⟨rfl, rfl, rfl, rfl, rfl⟩⟩
  · obtain h | h := Core.initial_slot c k <;> exact ⟨congrArg Slot.st h, congrArg Slot.sigctl h⟩
  · rw [State.reset_core, Core.initial_eq]
    rfl
  · rw [State.reset_core, Core.initial_eq]
    exact ⟨Core.reset_rotation.1, Core.reset_rotation.2, rfl, rfl, rfl, rfl⟩

end Sys2Proof.Machine
end

/-! O2, O3, O4, O12: what retires moves its pc alone, the signature checker, pending registers, branches and jumps (03_strands R78-R85,
R98-R102). -/

section
namespace Sys2Proof.Machine

/-! ### Offsets and frames -/

/-- A moved pc keeps its segment number, and its offset wraps (03_strands R82). -/
theorem bf_addOffset_segment (pc delta : Word) : bf (addOffset pc delta) 63 61 = bf pc 63 61 := by
  simp only [bf, addOffset, fld, BitVec.toNat_ofNat]
  omega

theorem bf_addOffset_offset (pc delta : Word) : bf (addOffset pc delta) 60 0 = (bf pc 60 0 + bf delta 60 0) % 2 ^ 61 := by
  simp only [bf, addOffset, fld, BitVec.toNat_ofNat]
  omega

theorem sameOtherSlots_setSlot (s : State) (c : CoreId) (k : Nat) (y : Slot) : SameOtherSlots s (s.setSlot c k y) c k :=
  fun _ _ h => State.slot_setSlot_other s y h

theorem sameOtherSlots_modSlot (s : State) (c : CoreId) (k : Nat) (f : Slot → Slot) : SameOtherSlots s (s.modSlot c k f) c k :=
  sameOtherSlots_setSlot s c k _

theorem State.core_setSlot_self (s : State) (c : CoreId) (k : Nat) (y : Slot) : (s.setSlot c k y).core c = (s.core c).setSlot k y :=
  State.core_modCore_self ..

/-- Settles O2: with the checker off, retiring sets one slot, whose pc alone moves in its offset. -/
theorem retirementAdvancesOnlyThePc : Obligations.RetirementAdvancesOnlyThePc := by
  unfold Obligations.RetirementAdvancesOnlyThePc
  intro s c k r hoff hlen
  have hdelta : bf (BitVec.ofNat 64 r.len : Word) 60 0 = r.len := by
    simp only [bf, fld, BitVec.toNat_ofNat]
    omega
  simp only [State.retire_off s c k r hoff, State.slot_setSlot_self, State.core_setSlot_self]
  exact ⟨trivial, trivial, trivial, bf_addOffset_segment _ _, by rw [bf_addOffset_offset, hdelta], trivial, trivial,
    sameOtherSlots_setSlot s c k _, rfl, rfl, rfl, ⟨rfl, rfl⟩, rfl, rfl⟩

/-! ### The signature checker -/

/-- Three zero bits shifted in from the right leave room for the three that come back from the left. -/
theorem rotate3_eq_add {h : Nat} (hh : h < 2 ^ 16) : (h * 8 ||| h / 8192) % 65536 = (h * 8 % 65536 + h / 8192 % 8) % 65536 := by
  have hor : h * 8 ||| h / 8192 = h * 8 + h / 8192 := by
    rw [Nat.mul_comm h 8]
    exact (Nat.two_pow_add_eq_or_of_lt (i := 3) (by omega) h).symm
  rw [hor, Nat.mod_eq_of_lt (show h / 8192 < 8 by omega), Nat.mod_add_mod]

/-- One step of R100's hash, as a sum of the rotated parts, stays within 16 bits. -/
theorem foldReg_eq {h : Nat} (hh : h < 2 ^ 16) (r : Reg) :
    foldReg h r = ((h * 8 % 65536 + h / 8192 % 8) % 65536) ^^^ r.toNat := by
  rw [foldReg, rotate3_eq_add hh]

theorem foldReg_lt (h : Nat) (r : Reg) : foldReg h r < 2 ^ 16 :=
  Nat.xor_lt_two_pow (Nat.mod_lt _ (by decide)) (by omega)

theorem foldl_foldReg (l : List Reg) : ∀ {h : Nat}, h < 2 ^ 16 →
    l.foldl foldReg h = l.foldl (fun (x : Nat) (v : Reg) => ((x * 8 % 65536 + x / 8192 % 8) % 65536) ^^^ v.toNat) h := by
  induction l with
  | nil => exact fun _ => rfl
  | cons r l ih =>
    intro h hh
    rw [List.foldl_cons, List.foldl_cons, ih (foldReg_lt h r), foldReg_eq hh]

/-! The rows of R101's table, each as the equation of the checker in its state: a block head in state 1 or 3 and in state 2, an instruction where a
head was expected, one inside a block, the end of a block that matches its signature or does not, and one outside every block. -/

section
variable {w : Word} {r : Retire} (hmode : bf w 1 0 ≠ 0) (hkind : r.kind ≤ 4)
include hmode hkind

theorem checker_on : ¬ (bf w 1 0 = 0 ∨ r.kind = 8) := by omega

theorem checker_head (sig : BitVec 24) (hst : bf w 3 2 = 1 ∨ bf w 3 2 = 3) : checker w r (some sig) = (sigWord w sig.toNat 0 0 2, none) := by
  rcases hst with hst | hst <;> simp only [checker, if_neg (checker_on hmode hkind), hst]

theorem checker_head_inside (sig : BitVec 24) (hst : bf w 3 2 = 2) :
    checker w r (some sig) = (sigWord w sig.toNat 0 0 2, if bf w 55 32 = bf w 8 4 * 2 ^ 19 + bf w 31 16 then none
      else some (sigFault (bf w 1 0) (bf w 55 32) (bf w 8 4) 0 (bf w 31 16))) := by
  simp only [checker, if_neg (checker_on hmode hkind), hst]

theorem checker_headless (hst : bf w 3 2 = 1) :
    checker w r none = (sigWord w (bf w 55 32) (bf w 31 16) (bf w 8 4) 3, some (sigFault (bf w 1 0) (bf w 55 32) (bf w 8 4) 0 (bf w 31 16))) := by
  simp only [checker, if_neg (checker_on hmode hkind), hst]

theorem checker_inside (hst : bf w 3 2 = 2) (hk : r.kind = 0) :
    checker w r none = (sigWord w (bf w 55 32) (r.fold.foldl foldReg (bf w 31 16)) ((bf w 8 4 + 1) % 32) 2, none) := by
  simp only [checker, if_neg (checker_on hmode hkind), hst, if_pos hk]

theorem checker_end_match (hst : bf w 3 2 = 2) (hk : r.kind ≠ 0)
    (he : bf w 55 32 = (bf w 8 4 + 1) % 32 * 2 ^ 19 + r.kind * 2 ^ 16 + r.fold.foldl foldReg (bf w 31 16)) :
    checker w r none = (sigWord w (bf w 55 32) (r.fold.foldl foldReg (bf w 31 16)) ((bf w 8 4 + 1) % 32) 1, none) := by
  simp only [checker, if_neg (checker_on hmode hkind), hst, if_neg hk, if_pos he]

theorem checker_end_mismatch (hst : bf w 3 2 = 2) (hk : r.kind ≠ 0)
    (he : bf w 55 32 ≠ (bf w 8 4 + 1) % 32 * 2 ^ 19 + r.kind * 2 ^ 16 + r.fold.foldl foldReg (bf w 31 16)) :
    checker w r none = (sigWord w (bf w 55 32) (r.fold.foldl foldReg (bf w 31 16)) ((bf w 8 4 + 1) % 32) 3,
      some (sigFault (bf w 1 0) (bf w 55 32) ((bf w 8 4 + 1) % 32) r.kind (r.fold.foldl foldReg (bf w 31 16)))) := by
  simp only [checker, if_neg (checker_on hmode hkind), hst, if_neg hk, if_neg he]

theorem checker_outside (hst : bf w 3 2 = 3) : checker w r none = (w, none) := by
  simp only [checker, if_neg (checker_on hmode hkind), hst]

end

/-- Settles O3: each row of R101's table is one of the checker's equations, with the fold of R100. -/
theorem signatureCheckerFollowsItsTable : Obligations.SignatureCheckerFollowsItsTable := by
  unfold Obligations.SignatureCheckerFollowsItsTable
  intro w r sig hmode hkind st n h exp fold
  have hfold : r.fold.foldl foldReg (bf w 31 16) = fold := foldl_foldReg _ (Nat.mod_lt _ (by decide))
  refine ⟨checker_head hmode hkind sig, fun hst => ⟨_, checker_headless hmode hkind hst, rfl⟩, fun hst => ?_, fun hst hk => ?_,
    fun hst hk he => ?_, fun hst hk he => ?_, checker_outside hmode hkind⟩
  · rw [checker_head_inside hmode hkind sig hst]
    refine ⟨rfl, ?_⟩
    split
    · next he => exact ⟨fun _ => he, fun _ => rfl⟩
    · next he => exact ⟨fun hnone => (nomatch hnone), fun he' => absurd he' he⟩
  · exact hfold ▸ checker_inside hmode hkind hst hk
  · exact hfold ▸ checker_end_match hmode hkind hst hk (hfold ▸ he)
  · rw [← hfold] at he ⊢
    exact ⟨_, checker_end_mismatch hmode hkind hst hk he, rfl⟩

/-! ### Pending registers -/

/-- An instruction that names a pending register is cancelled on the first one it names. -/
theorem State.unlessPending_pending {s : State} {names : List Dest} {w : Dest} (body : State)
    (h : names.find? (isPending s s.curCore s.curSlot) = some w) : s.unlessPending names body = s.cancel (.pendingRegister w) := by
  rw [State.unlessPending, h]

theorem State.find_pending {s : State} {names : List Dest} (h : s.anyPending names = true) :
    ∃ w, names.find? (isPending s s.curCore s.curSlot) = some w :=
  Option.isSome_iff_exists.1 (List.find?_isSome.2 (List.any_eq_true.1 h))

/-- Settles O4: each of the five classes asks for the registers it names before anything else. -/
theorem pendingRegisterCancels : Obligations.PendingRegisterCancels := by
  unfold Obligations.PendingRegisterCancels
  intro s d a b hp
  obtain ⟨w, hw⟩ := State.find_pending hp
  have cancels : ∀ body, (Host.Outcome.next (s.unlessPending (scalars [d, a, b]) body) : Result) = .next (s.cancel (.pendingRegister w)) :=
    fun body => congrArg _ (State.unlessPending_pending body hw)
  refine ⟨w, List.mem_of_find?_eq_some hw, List.find?_some hw, cancels _, cancels _, cancels _, cancels _, cancels _,
    State.slot_modSlot_self .., sameOtherSlots_modSlot _ _ _ _, ⟨rfl, rfl⟩, rfl, ?_, ?_⟩
  all_goals rw [State.cancel, State.cancelAt, State.blockAt, State.modSlot, State.core_modCore_self]; rfl

/-! ### Branches and jumps -/

theorem State.Ready.subset {s : State} {names l : List Dest} (h : s.Ready names) (hl : l ⊆ names) : s.Ready l :=
  List.any_eq_false.2 fun d hd => List.any_eq_false.1 h d (hl hd)

/-- A branch whose registers are ready goes where its condition says. -/
theorem State.branch_ready {s : State} {names : List Reg} (h : s.Ready (scalars names)) (len : Nat) {taken : Bool} {p : Prop} [Decidable p]
    (hp : taken = true ↔ p) (delta : Word) :
    s.branch len names taken delta = .next (s.doneTo (addOffset s.cur.pc (if p then delta else BitVec.ofNat 64 len)) ⟨len, names, 1⟩) := by
  rw [State.branch, State.unlessPending_ready s _ _ h]
  simp only [hp]

/-- Clearing bit 0 clears that bit and no other. -/
theorem getLsbD_zero_clearBit0 (x : Word) : (x &&& ~~~1#64).getLsbD 0 = false := by
  simp

theorem getLsbD_clearBit0 (x : Word) {n : Nat} (h : 0 < n) : (x &&& ~~~1#64).getLsbD n = x.getLsbD n := by
  have hn : n ≠ 0 := by omega
  rw [BitVec.getLsbD_and, BitVec.getLsbD_not]
  simpa [hn] using fun hx => BitVec.lt_of_getLsbD hx

/-! The words of the branches begin with their class, and those of the jumps hold their fields (02_encoding R42, R43). -/

theorem encodeWord_beq (a b : Reg) (o : BitVec 14) : encodeWord (.beq a b o) / 2 ^ 24 = 0xD0 := by
  have hw : encodeWord (.beq a b o) = 0xD0000000 + a.toNat * 524288 + b.toNat * 16384 + o.toNat := rfl
  omega

theorem encodeWord_bne (a b : Reg) (o : BitVec 14) : encodeWord (.bne a b o) / 2 ^ 24 = 0xD1 := by
  have hw : encodeWord (.bne a b o) = 0xD1000000 + a.toNat * 524288 + b.toNat * 16384 + o.toNat := rfl
  omega

theorem encodeWord_blt (a b : Reg) (o : BitVec 14) : encodeWord (.blt a b o) / 2 ^ 24 = 0xD2 := by
  have hw : encodeWord (.blt a b o) = 0xD2000000 + a.toNat * 524288 + b.toNat * 16384 + o.toNat := rfl
  omega

theorem encodeWord_bge (a b : Reg) (o : BitVec 14) : encodeWord (.bge a b o) / 2 ^ 24 = 0xD3 := by
  have hw : encodeWord (.bge a b o) = 0xD3000000 + a.toNat * 524288 + b.toNat * 16384 + o.toNat := rfl
  omega

theorem encodeWord_bltu (a b : Reg) (o : BitVec 14) : encodeWord (.bltu a b o) / 2 ^ 24 = 0xD4 := by
  have hw : encodeWord (.bltu a b o) = 0xD4000000 + a.toNat * 524288 + b.toNat * 16384 + o.toNat := rfl
  omega

theorem encodeWord_bgeu (a b : Reg) (o : BitVec 14) : encodeWord (.bgeu a b o) / 2 ^ 24 = 0xD5 := by
  have hw : encodeWord (.bgeu a b o) = 0xD5000000 + a.toNat * 524288 + b.toNat * 16384 + o.toNat := rfl
  omega

theorem encodeWord_jal (d : Reg) (j : BitVec 19) : encodeWord (.jal d j) = 0xD6 * 2 ^ 24 + d.toNat * 2 ^ 19 + j.toNat := by
  have hw : encodeWord (.jal d j) = 0xD6000000 + d.toNat * 524288 + j.toNat := rfl
  omega

theorem encodeWord_jalr (d a : Reg) (i : BitVec 14) :
    encodeWord (.jalr d a i) = 0xD7 * 2 ^ 24 + d.toNat * 2 ^ 19 + a.toNat * 2 ^ 14 + i.toNat := by
  have hw : encodeWord (.jalr d a i) = 0xD7000000 + d.toNat * 524288 + a.toNat * 16384 + i.toNat := rfl
  omega

/-- Settles O12: a branch is one rule over its condition, and the two jumps read their operands before the link is written. -/
theorem branchesAndJumps : Obligations.BranchesAndJumps := by
  unfold Obligations.BranchesAndJumps
  intro s d a b o i j hr x y pc link cls goes
  have hab : s.Ready (scalars [a, b]) := hr.subset (by simp [scalars])
  have hda : s.Ready (scalars [d, a]) := hr.subset (by simp [scalars])
  have hd : s.Ready (scalars [d]) := hr.subset (by simp [scalars])
  refine ⟨State.branch_ready hab 4 (by simp [x, y]) _, State.branch_ready hab 4 (by simp [x, y]) _, State.branch_ready hab 4 (by simp [x, y, slt]) _,
    State.branch_ready hab 4 (by simp [x, y, slt]) _, State.branch_ready hab 4 (by simp [x, y, BitVec.lt_def]) _,
    State.branch_ready hab 4 (by simp [x, y, BitVec.lt_def]) _, ?_,
    ⟨(x + imm14 i) &&& ~~~(1 : Word), ?_, getLsbD_zero_clearBit0 _, fun n hn => getLsbD_clearBit0 _ hn⟩, encodeWord_beq a b o, encodeWord_bne a b o,
    encodeWord_blt a b o, encodeWord_bge a b o, encodeWord_bltu a b o, encodeWord_bgeu a b o, encodeWord_jal d j, encodeWord_jalr d a i⟩
  · exact congrArg _ (State.unlessPending_ready s _ _ hd)
  · exact congrArg _ (State.unlessPending_ready s _ _ hda)

end Sys2Proof.Machine
end

/-! O13: a write at WB, the start of a context, and FORK (03_strands R69, R71, R86, R87). -/

section
namespace Sys2Proof.Machine

/-! ### What a write at WB leaves of its slot, its core and the rest -/

@[simp] theorem backReg_curCore (s : State) (c : CoreId) (k : Nat) (r : Reg) (v : Word) : (backReg s c k r v).curCore = s.curCore := by
  unfold backReg storeReg
  repeat' split
  all_goals rfl

@[simp] theorem backReg_curSlot (s : State) (c : CoreId) (k : Nat) (r : Reg) (v : Word) : (backReg s c k r v).curSlot = s.curSlot := by
  unfold backReg storeReg
  repeat' split
  all_goals rfl

@[simp] theorem backReg_net (s : State) (c : CoreId) (k : Nat) (r : Reg) (v : Word) : (backReg s c k r v).net = s.net := by
  unfold backReg storeReg
  repeat' split
  all_goals rfl

@[simp] theorem backReg_poison (s : State) (c : CoreId) (k : Nat) (r : Reg) (v : Word) : (backReg s c k r v).poison = s.poison := by
  unfold backReg storeReg
  repeat' split
  all_goals rfl

/-! A scalar write at WB to p0 is none; one to a register of the slot changes its slot, one to a shared register its core beside the slots. -/

theorem backReg_zero (s : State) (c : CoreId) (k : Nat) (v : Word) : backReg s c k 0 v = s := rfl

theorem backReg_own (s : State) (c : CoreId) (k : Nat) {r : Reg} (v : Word) (h0 : r ≠ 0) (h : r.toNat < 16) :
    backReg s c k r v = s.modSlot c k (fun t => { t with p := t.p.set (regIx r) v }) := by
  rw [backReg, if_neg (by omega), storeReg, if_neg h0, if_pos h]

theorem backReg_shared (s : State) (c : CoreId) (k : Nat) {r : Reg} (v : Word) (h : 16 ≤ r.toNat) :
    backReg s c k r v = (s.modCore c (fun x => x.keepOld k (.scalar r) (x.s[regIx r].setWidth 256) (bit x.pendS (regIx r).val))).modCore c
      (fun x => { x with s := x.s.set (regIx r) v }) := by
  have h0 : r ≠ 0 := by rintro rfl; simp at h
  rw [backReg, if_pos h, storeReg, if_neg h0, if_neg (by omega)]

/-- Of its slot a scalar write at WB changes p1-p15 at most. -/
theorem backReg_slot (s : State) (c : CoreId) (k : Nat) (r : Reg) (v : Word) :
    ∃ p, (backReg s c k r v).slot c k = { s.slot c k with p := p } := by
  by_cases h : 16 ≤ r.toNat
  · refine ⟨(s.slot c k).p, ?_⟩
    rw [backReg_shared s c k v h, State.slot_modCore _ c c k _ rfl, State.slot_modCore _ c c k _ rfl]
  by_cases h0 : r = 0
  · exact ⟨(s.slot c k).p, by rw [h0, backReg_zero]⟩
  · exact ⟨_, by rw [backReg_own s c k v h0 (by omega), State.slot_modSlot_self]⟩

theorem backReg_slot_other (s : State) {c d : CoreId} {k j : Nat} (r : Reg) (v : Word) (hj : d ≠ c ∨ slotIx j ≠ slotIx k) :
    (backReg s c k r v).slot d j = s.slot d j := by
  by_cases h : 16 ≤ r.toNat
  · rw [backReg_shared s c k v h, State.slot_modCore _ c d j _ rfl, State.slot_modCore _ c d j _ rfl]
  by_cases h0 : r = 0
  · rw [h0, backReg_zero]
  · rw [backReg_own s c k v h0 (by omega), State.slot_modSlot_other s _ hj]

/-- What a field is left with depends on the scalar registers of its slot and of its core only. -/
theorem lastReg_congr {s t : State} {c : CoreId} {k : Nat} (hp : (t.slot c k).p = (s.slot c k).p) (hs : (t.core c).s = (s.core c).s) (r : Reg) :
    lastReg t c k r = lastReg s c k r := by
  rw [lastReg, lastReg, hp, hs]

theorem lastReg_backReg (s : State) (c : CoreId) (k : Nat) (r : Reg) (v : Word) : lastReg (backReg s c k r v) c k r = if r = 0 then 0 else v := by
  split
  · next h => rw [h]; rfl
  · next h => exact lastReg_backReg_self s c k v h

/-! ### Contexts that start and end -/

/-- The next generation is another 4-bit value, with no response outstanding (03_strands R89). -/
theorem Slot.nextGen_eq_some {t : Slot} {g : Nat} (h : t.nextGen = some g) : g < 16 ∧ g ≠ t.gen % 16 ∧ t.outstanding g = 0 := by
  have hp := List.find?_some h
  obtain ⟨i, hi, rfl⟩ := List.mem_map.1 (List.mem_of_find?_eq_some h)
  have hi := List.mem_range.1 hi
  simp only [Bool.and_eq_true, beq_iff_eq] at hp
  exact ⟨by omega, by omega, hp.1⟩

/-- A slot whose generation can advance enters its new context in another generation. -/
theorem Slot.enter_gen_ne {t : Slot} (h : t.nextGen.isSome = true) (tick n : Nat) : (t.enter tick n).gen ≠ t.gen := by
  obtain ⟨g, hg⟩ := Option.isSome_iff_exists.1 h
  obtain ⟨hlt, hne, -⟩ := Slot.nextGen_eq_some hg
  have : (t.enter tick n).gen = g := by simp [Slot.enter, Slot.advanceGen, hg]
  omega

/-- At a context's start the checker has the mode given (03_strands R99). -/
theorem bf_sigStart (mode : Nat) : bf (sigStart mode) 1 0 = mode % 4 := by
  simp only [bf, sigStart, fld, BitVec.toNat_ofNat]
  split <;> omega

theorem slotIx_ne {j k : Nat} (hj : j < 16) (hk : k < 16) (h : j ≠ k) : slotIx j ≠ slotIx k := by
  intro e
  have := congrArg Fin.val e
  simp only [slotIx] at this
  omega

/-- A slot of a range that a claim served before the issue of cycle n can take (03_strands R69, R89). -/
def Core.CanTake (x : Core) (r : SlotRange) (n k : Nat) : Prop :=
  r.1 ≤ k ∧ k < r.2 ∧ (x.slot k).st = .free ∧ (x.slot k).readyAt ≤ n ∧ (x.slot k).nextGen.isSome = true

/-- The test of the slot allocator is that predicate. -/
theorem Core.canTake_iff (x : Core) (r : SlotRange) (n k : Nat) :
    (decide (r.1 ≤ k ∧ k < r.2) && (x.slot k).isFree n && (x.slot k).nextGen.isSome) = true ↔ x.CanTake r n k := by
  simp [Core.CanTake, Slot.isFree, and_assoc]

/-- The allocator serves a claim with the lowest slot that can take it, and with none when there is no such slot. -/
theorem Core.freeSlot_eq_some {x : Core} {r : SlotRange} {n k : Nat} (hk : k < 16) (hc : x.CanTake r n k) (hmin : ∀ j, j < k → ¬ x.CanTake r n j) :
    x.freeSlot r n = some k :=
  List.find?_range_eq_some.2 ⟨(x.canTake_iff r n k).2 hc, List.mem_range.2 hk,
    fun j hj => by simpa only [Bool.not_eq_true', ← Bool.not_eq_true, x.canTake_iff] using hmin j hj⟩

theorem Core.freeSlot_eq_none {x : Core} {r : SlotRange} {n : Nat} (h : ∀ j, j < 16 → ¬ x.CanTake r n j) : x.freeSlot r n = none :=
  List.find?_range_eq_none.2 fun j hj => by simpa only [Bool.not_eq_true', ← Bool.not_eq_true, x.canTake_iff] using h j hj

/-! ### FORK -/

/-- What FORK's claim does: the child stands in slot k, and the allocator has granted (03_strands R69, R87). -/
def State.withChild (s : State) (a b : Reg) (k : Nat) : State :=
  (s.modSlot s.curCore k (fun t => t.child s.cur (s.reg a) (s.reg b) s.tick (s.now + 8))).noteGrant s.curCore (s.now + 1)

theorem State.withChild_slot_child (s : State) (a b : Reg) (k : Nat) :
    (s.withChild a b k).slot s.curCore k = (s.slot s.curCore k).child s.cur (s.reg a) (s.reg b) s.tick (s.now + 8) := by
  rw [State.withChild, State.noteGrant, State.slot_modCore _ _ _ _ _ rfl, State.slot_modSlot_self]

theorem State.withChild_slot_parent (s : State) (a b : Reg) {k : Nat} (hk : slotIx s.curSlot ≠ slotIx k) :
    (s.withChild a b k).slot s.curCore s.curSlot = s.cur := by
  rw [State.withChild, State.noteGrant, State.slot_modCore _ _ _ _ _ rfl, State.slot_modSlot_other s _ (.inr hk), State.cur]

/-- A FORK that is granted slot k, with its result at WB and its retirement. -/
def State.forked (s : State) (d a b : Reg) (k : Nat) : State :=
  (backReg (s.withChild a b k) s.curCore s.curSlot d (BitVec.ofNat 64 k)).retire s.curCore s.curSlot ⟨4, [d, a, b], 4⟩

theorem execFork_granted {s : State} {d a b : Reg} {k : Nat} (hr : s.Ready (scalars [d, a, b]))
    (hf : (s.core s.curCore).freeSlot (forkSlots s.curCore s.curSlot) (s.now + 1) = some k) :
    execFork d a b s = .next (s.forked d a b k) := by
  simp only [execFork, State.unlessPending_ready s _ _ hr, hf, State.forked, State.done, State.putReg, backReg_curCore, backReg_curSlot]
  rfl

theorem execFork_refused {s : State} {d a b : Reg} (hr : s.Ready (scalars [d, a, b]))
    (hf : (s.core s.curCore).freeSlot (forkSlots s.curCore s.curSlot) (s.now + 1) = none) :
    execFork d a b s = .next ((s.putReg d ones).done ⟨4, [d, a, b], 4⟩) := by
  simp only [execFork, State.unlessPending_ready s _ _ hr, hf]

section
variable {s : State} (d a b : Reg) {k : Nat} (hoff : bf s.cur.sigctl 1 0 = 0) (hk : slotIx s.curSlot ≠ slotIx k)
include hoff hk

/-- With the checker off the retirement sets the parent's slot, whose registers p0-p15 hold what the write at WB has left. -/
theorem State.forked_eq : ∃ y, y.p = ((backReg (s.withChild a b k) s.curCore s.curSlot d (BitVec.ofNat 64 k)).slot s.curCore s.curSlot).p
    ∧ s.forked d a b k = (backReg (s.withChild a b k) s.curCore s.curSlot d (BitVec.ofNat 64 k)).setSlot s.curCore s.curSlot y := by
  obtain ⟨p, hp⟩ := backReg_slot (s.withChild a b k) s.curCore s.curSlot d (BitVec.ofNat 64 k)
  refine ⟨_, ?_, State.retire_off _ _ _ _ ?_⟩
  · rfl
  · rw [hp, State.withChild_slot_parent s a b hk]
    exact hoff

theorem State.forked_slot_child :
    (s.forked d a b k).slot s.curCore k = (s.slot s.curCore k).child s.cur (s.reg a) (s.reg b) s.tick (s.now + 8) := by
  obtain ⟨y, -, hy⟩ := State.forked_eq d a b hoff hk
  rw [hy, State.slot_setSlot_other _ _ (.inr (Ne.symm hk)), backReg_slot_other _ _ _ (.inr (Ne.symm hk)), State.withChild_slot_child]

theorem State.forked_lastReg : lastReg (s.forked d a b k) s.curCore s.curSlot d = if d = 0 then 0 else BitVec.ofNat 64 k := by
  obtain ⟨y, hp, hy⟩ := State.forked_eq d a b hoff hk
  rw [hy, ← lastReg_backReg (s.withChild a b k) s.curCore s.curSlot]
  exact lastReg_congr (by rw [State.slot_setSlot_self, hp]) (by rw [State.core_setSlot_self]; rfl) d

/-- FORK writes no memory and sends nothing. -/
theorem State.forked_frame : SameMemory s (s.forked d a b k) ∧ (s.forked d a b k).net = s.net := by
  obtain ⟨y, -, hy⟩ := State.forked_eq d a b hoff hk
  rw [hy]
  simp [SameMemory, State.withChild, State.noteGrant]

end

/-- The child's registers: its argument in p1, and zero above. -/
theorem child_p_one (arg : Word) : (vectorOf 16 0 [0, arg])[1] = arg := by
  simp [vectorOf]

theorem child_p_zero (arg : Word) (n : Fin 16) (h : 2 ≤ n.val) : (vectorOf 16 0 [0, arg])[n] = 0 := by
  match n, h with
  | ⟨n + 2, _⟩, _ => simp [vectorOf]

theorem forkSlots_eq (c : CoreId) (k : Nat) :
    forkSlots c k = if isMemoryCore c = true then (if k < 8 then (0, 8) else (8, 16)) else (0, 16) := by
  unfold forkSlots userSlots
  cases isMemoryCore c <;> simp

/-- Settles O13: the allocator's search finds the lowest slot that can take a context, and the parent's WB leaves the child as it entered. -/
theorem forkStartsAChild : Obligations.ForkStartsAChild := by
  unfold Obligations.ForkStartsAChild
  intro s d a b hr hoff hlt hrun c now r can
  refine ⟨forkSlots_eq _ _, fun k hk hc hmin => ?_, fun hno => ?_⟩
  · have hix : slotIx s.curSlot ≠ slotIx k := by
      refine slotIx_ne hlt hk ?_
      rintro rfl
      obtain ⟨-, -, hfree, -⟩ := hc
      exact absurd (hrun.symm.trans hfree) (by decide)
    obtain ⟨-, -, -, -, hgen⟩ := id hc
    have hchild := State.forked_slot_child d a b hoff hix
    refine ⟨s.forked d a b k, execFork_granted hr (Core.freeSlot_eq_some hk hc hmin), State.forked_lastReg d a b hoff hix, ?_⟩
    simp only [c, hchild]
    exact ⟨rfl, rfl, child_p_one _, child_p_zero _, fun n => by simp [Slot.child, Slot.enter, Slot.reset], rfl, rfl, rfl, rfl, rfl,
      (bf_sigStart _).trans (by rw [hoff]), rfl, Slot.enter_gen_ne hgen s.tick (s.now + 8), rfl,
      State.forked_frame d a b hoff hix⟩
  · exact execFork_refused hr (Core.freeSlot_eq_none hno)

end Sys2Proof.Machine
end

/-! O14: HALT, HALTK, YIELD, WAKE and BSIG (03_strands R88, R91-R93, R98). -/

section
namespace Sys2Proof.Machine

/-! ### Low fields, and updates that change nothing -/

/-- A field that begins at bit 0 is a remainder. -/
theorem bf_zero {n : Nat} (x : BitVec n) (hi : Nat) : bf x hi 0 = x.toNat % 2 ^ (hi + 1) := by
  simp [bf, fld]

theorem Assoc.put_put {α : Type} (m : Assoc α) (k : Nat) (v w : α) : (m.put k v).put k w = m.put k w := by
  induction m with
  | nil => simp [Assoc.put]
  | cons e rest ih =>
    obtain ⟨j, u⟩ := e
    by_cases hlt : k < j
    · simp [Assoc.put, hlt]
    by_cases heq : j = k
    · subst heq
      simp [Assoc.put]
    · simp [Assoc.put, hlt, heq, ih]

/-- Setting a slot twice is setting it once. -/
theorem State.modSlot_setSlot (s : State) (c : CoreId) (k : Nat) (y : Slot) (f : Slot → Slot) : (s.setSlot c k y).modSlot c k f = s.setSlot c k (f y) := by
  have hset : (((s.core c).setSlot k y).setSlot k (f y)) = (s.core c).setSlot k (f y) := by
    simp [Core.setSlot]
  rw [State.modSlot, State.modCore, State.core_setSlot_self, Core.modSlot, Core.slot_setSlot_self, hset]
  simp only [State.setSlot, State.modCore, State.setCore, Assoc.put_put]

/-! ### The end of a context -/

/-- A retention entry leaves the slots and the cycle of its core (03_strands R91). -/
theorem Core.retain_slots (x : Core) (mask : BitVec 16) (succ : Nat) : (x.retain mask succ).slots = x.slots := by
  unfold Core.retain
  repeat' split
  all_goals rfl

/-- With the checker off, the end of a strand that runs records its retention entry and vacates its slot. -/
theorem State.haltNow_off {s : State} {c : CoreId} {k : Nat} (hrun : (s.slot c k).st = .run) (hoff : bf (s.slot c k).sigctl 1 0 = 0)
    (hstrand : (s.slot c k).origin.disp = false) (r : Retire) (count : Option Nat) (mask : BitVec 16) (succ : Nat) :
    ∃ n, s.haltNow c k r count mask succ = (s.modCore c (fun x => x.retain mask succ)).modSlot c k (fun t => t.vacate n) := by
  have hcheck : (checker (s.slot c k).sigctl r none).2 = none := by simp [checker, hoff]
  have hslot : (s.modCore c (fun x => x.retain mask succ)).slot c k = s.slot c k := State.slot_modCore _ _ _ _ _ (Core.retain_slots _ _ _)
  refine ⟨((s.modCore c (fun x => x.retain mask succ)).core c).cycle, ?_⟩
  simp [State.haltNow, hrun, hcheck, State.endContext, hslot, hstrand]

theorem State.haltNow_not_run {s : State} {c : CoreId} {k : Nat} (h : (s.slot c k).st ≠ .run) (r : Retire) (count : Option Nat) (mask : BitVec 16)
    (succ : Nat) : s.haltNow c k r count mask succ = s := if_neg h

/-- A slot that is not lent is FREE once its context has ended, in the same generation, with its registers at zero. -/
theorem Slot.vacate_free {t : Slot} (h : t.spilled = none) (n : Nat) :
    (t.vacate n).st = .free ∧ (t.vacate n).gen = t.gen ∧ (t.vacate n).p = Vector.replicate 16 0 := by
  simp [Slot.vacate, h, Slot.reset]

/-- The step of a strand's end frees its slot and records its retention entry: nothing else. -/
theorem State.haltNow_frees {s : State} {c : CoreId} {k : Nat} (hrun : (s.slot c k).st = .run) (hoff : bf (s.slot c k).sigctl 1 0 = 0)
    (hown : (s.slot c k).spilled = none) (hstrand : (s.slot c k).origin.disp = false) (r : Retire) (count : Option Nat) (mask : BitVec 16)
    (succ : Nat) :
    let t := s.haltNow c k r count mask succ
    (t.slot c k).st = .free ∧ (t.slot c k).gen = (s.slot c k).gen ∧ (t.slot c k).p = Vector.replicate 16 0 ∧ SameOtherSlots s t c k
      ∧ SameMemory s t ∧ t.net = s.net ∧ (t.core c).retention = ((s.core c).retain mask succ).retention := by
  obtain ⟨n, hn⟩ := State.haltNow_off hrun hoff hstrand r count mask succ
  have hslots : ∀ d j, (s.modCore c (fun x => x.retain mask succ)).slot d j = s.slot d j :=
    fun d j => State.slot_modCore _ _ _ _ _ (Core.retain_slots _ _ _)
  obtain ⟨hfree, hgen, hp⟩ := Slot.vacate_free hown n
  intro t
  simp only [t, hn, State.slot_modSlot_self, hslots]
  refine ⟨hfree, hgen, hp, fun d j h => ?_, ⟨rfl, rfl⟩, rfl, ?_⟩
  · rw [State.slot_modSlot_other _ _ h, hslots]
  · rw [State.modSlot, State.core_modCore_self, State.core_modCore_self]
    rfl

/-! ### YIELD, WAKE and BSIG -/

/-- A thread's slot after it has retired an instruction of 4 bytes, with the checker off. -/
def State.retired4 (s : State) : Slot :=
  { s.cur with pc := addOffset s.cur.pc 4, st := .run, wait := .none, park := none, readyAt := max s.cur.readyAt (s.now + 3) }

/-- The wake message that WAKE a sends to a core. -/
def State.wakePacket (s : State) (a : Reg) (dst : CoreId) : Msg :=
  { s.packet s.curCore s.curSlot dst none none .wake with slot := bf (s.reg a) 3 0 }

section
variable {s : State} (hoff : bf s.cur.sigctl 1 0 = 0)
include hoff

theorem State.done_off (names : List Reg) (kind : Nat) : s.done ⟨4, names, kind⟩ = s.setSlot s.curCore s.curSlot s.retired4 :=
  State.retire_off s _ _ ⟨4, names, kind⟩ hoff

/-- YIELD retires, and with a count other than 0 its thread then waits (03_strands R92). -/
theorem execYield_off {a : Reg} (hr : s.Ready (scalars [a])) :
    execYield a s = .next (s.setSlot s.curCore s.curSlot (if bf (s.reg a) 15 0 ≠ 0
      then { s.retired4 with st := .blocked, wait := .yield_ (s.now + 8 + bf (s.reg a) 15 0) } else s.retired4)) := by
  have hrun : s.retired4.st = .run := rfl
  simp only [execYield, State.unlessPending_ready s _ _ hr, State.modCur, State.done_off hoff, State.setSlot_curCore, State.setSlot_curSlot,
    State.modSlot_setSlot, hrun, and_true]

theorem State.done_sent_off (m : Msg) (names : List Reg) (kind : Nat) :
    ({ s with net := s.net ++ [m] }).done ⟨4, names, kind⟩ = ({ s with net := s.net ++ [m] }).setSlot s.curCore s.curSlot s.retired4 :=
  State.done_off (s := { s with net := s.net ++ [m] }) hoff names kind

/-- WAKE of a core that its map gives a place: one packet leaves, and the instruction retires (03_strands R93). -/
theorem execWake_off {a : Reg} (hr : s.Ready (scalars [a])) {dst : CoreId} (ht : s.coreTarget (bf (s.reg a) 18 4) = .ok (dst, none)) (hd : dst < 32768) :
    execWake a s = .next (({ s with net := s.net ++ [s.wakePacket a dst] }).setSlot s.curCore s.curSlot s.retired4) := by
  have hlaunch : s.launch (s.wakePacket a dst) = { s with net := s.net ++ [s.wakePacket a dst] } := if_pos hd
  rw [← State.done_sent_off hoff _ [a] 4, ← hlaunch]
  simp only [execWake, State.unlessPending_ready s _ _ hr, ht, State.wakePacket]

end

theorem execWake_fault {s : State} {a : Reg} (hr : s.Ready (scalars [a])) {e : Nat} (ht : s.coreTarget (bf (s.reg a) 18 4) = .error e) :
    execWake a s = .next (s.takeFault s.curCore s.curSlot ⟨0x13, e, s.reg a, 0⟩) := by
  simp only [execWake, State.unlessPending_ready s _ _ hr, ht]

/-- With the checker off, a head retires as any other instruction (03_strands R98). -/
theorem execBsig_off {s : State} (hoff : bf s.cur.sigctl 1 0 = 0) (sig : BitVec 24) :
    execBsig sig s = .next (s.doneTo (addOffset s.cur.pc 4) ⟨4, [], 0⟩) :=
  congrArg _ ((State.retireTo_off s _ _ _ _ _ hoff).trans (State.retireTo_off s _ _ _ _ _ hoff).symm)

theorem execHaltk_ready {s : State} {a b : Reg} (hr : s.Ready (scalars [a, b])) :
    execHaltk a b s = .next (s.halt ⟨4, [a, b], 4⟩ none (BitVec.ofNat 16 (bf (s.reg a) 15 0)) (bf (s.reg b) 18 0)) :=
  congrArg _ (State.unlessPending_ready s _ _ hr)

/-- Settles O14: HALT and HALTK leave a landing whose step frees the slot, and the rest retire with the checker off. -/
theorem strandInstructions : Obligations.StrandInstructions := by
  unfold Obligations.StrandInstructions
  intro s a b sig hr hoff _ c k n x succ flies
  have ha : s.Ready (scalars [a]) := hr.subset (by simp [scalars])
  have hn : bf (s.reg a) 15 0 = n := bf_zero _ _
  refine ⟨rfl, ?_, fun hrun hown hstrand i due r m => State.haltNow_frees hrun hoff hown hstrand r none m succ, fun hst i due r m => ?_, fun h => ?_,
    fun h => ?_, fun dst ht hd => ?_, fun e ht => execWake_fault ha ht, execBsig_off hoff sig⟩
  · have hsucc : bf (s.reg b) 18 0 = succ := bf_zero _ _
    exact (execHaltk_ready hr).trans (by rw [hn, hsucc]; rfl)
  · exact State.haltNow_not_run (fun hrun => by cases hst.symm.trans hrun) r none m succ
  · refine ⟨_, execYield_off hoff ha, ?_⟩
    rw [State.slot_setSlot_self, hn, if_pos h]
    exact ⟨rfl, rfl, rfl⟩
  · exact (execYield_off hoff ha).trans (by rw [hn, if_neg (fun hne => hne h), State.done_off hoff])
  · refine ⟨_, _, execWake_off hoff ha ht hd, rfl, rfl, rfl, bf_zero _ _, ?_⟩
    rw [State.slot_setSlot_self]
    exact ⟨rfl, rfl⟩

end Sys2Proof.Machine
end

/-! O36: a state that the statement on slots, banks and parity does not allow for (07_access R186; 16_package R443). -/

section
namespace Sys2Proof.Machine

/-- Slot 0 of core 0 waits for a bank with a store of the byte 1 to byte 0 of HBM4E, in row 0 of bank 0 of its channel, which is retired. -/
def retiredRowWait : State :=
  ({ State.reset with channels := [(homeOf (2 ^ 48), { Channel.reset with banks := [(0, { HbmBank.reset with retired := [0] })] })] }).modSlot 0 0
    (fun t => { t with st := .blocked, wait := .bank none (2 ^ 48) 1 1 ⟨4, [], 0⟩ })

/-- The state meets what O36 asks of a store that waited: nothing in the statement keeps its address in a scratchpad. -/
theorem retiredRowWait_waits : (retiredRowWait.slot 0 0).st = .blocked ∧ (retiredRowWait.slot 0 0).wait = .bank none (2 ^ 48) 1 1 ⟨4, [], 0⟩
    ∧ retiredRowWait.CheckerOff 0 0 ∧ retiredRowWait.isHeld (2 ^ 48) 1 = false ∧ retiredRowWait.CanonicalMemory := by
  decide +kernel

/-- A write to a retired row is discarded (16_package R443): the byte reads 0 after the store has retired. -/
theorem retiredRowWait_byte : (retiredRowWait.bankAccess 0 0).readByte (2 ^ 48) = 0 := by
  decide +kernel

/-- Refutes O36: the clause on a store that waited for a bank says that its bytes are written, but a store whose address lies in a retired row of HBM4E,
which the clause does not exclude (`addrClass a = 0` is missing), retires and writes nothing. -/
theorem not_slotsBanksAndParity : ¬ Obligations.SlotsBanksAndParity := by
  unfold Obligations.SlotsBanksAndParity
  rintro ⟨-, hcore⟩
  obtain ⟨-, -, hbank, -⟩ := hcore retiredRowWait 0 0 0
  obtain ⟨hst, hwait, hoff, hheld, hmem⟩ := retiredRowWait_waits
  obtain ⟨hstore, -⟩ := hbank none (2 ^ 48) 1 1 ⟨4, [], 0⟩ hst hwait hoff hheld hmem
  obtain ⟨-, hbytes, -⟩ := hstore rfl (by decide)
  have hone : (retiredRowWait.bankAccess 0 0).readByte (2 ^ 48) = 1 := hbytes 0 (by decide)
  exact absurd (hone.symm.trans retiredRowWait_byte) (by decide)

end Sys2Proof.Machine
end

/-! O6, O7, O8: what a register instruction writes, the register-register operations of INT-A, and the iterative units (04_integer R105-R112;
03_strands R77, R79). -/

section
namespace Sys2Proof.Machine

/-! ### What a register instruction writes, and the words of INT-A -/

theorem map_field_scalars (names : List Reg) : (scalars names).map Dest.field = names := by
  simp [scalars, Dest.field, Function.comp_def]

/-- An instruction with one scalar result whose registers are ready writes that result and retires (R105). -/
theorem writes_of_scalarOp {i : Instr} {s : State} {len : Nat} {names : List Reg} {d : Reg} {u v : Word} (hr : s.Ready (scalars names))
    (hx : exec i s = s.scalarOp len names d u) (hv : u = v) : Writes i s len names d v := by
  rw [Writes, Runs, hx, hv, State.scalarOp, State.plain, State.unlessPending_ready s _ _ hr, retireOf, map_field_scalars]

/-- An iterative instruction whose registers are ready enters its unit until its delay has passed (R105). -/
theorem runs_of_iterative {i : Instr} {s : State} {unit : IterUnit} {names : List Reg} {d : Dest} {v : Vec} {f : BitVec 6} {delay : Nat}
    (hr : s.Ready (scalars names)) (hx : exec i s = s.iterative unit (scalars names) d v f delay) :
    Runs i s (s.block (.iter unit d v f ((s.core s.curCore).cycle + delay) ⟨4, names, 0⟩)) := by
  rw [Runs, hx, State.iterative, State.unlessPending_ready s _ _ hr, retireOf, map_field_scalars, State.now]

/-- The word of INT-A with function code fn, in form A (R107). -/
def intAWord (fn : Nat) (d a b : Reg) : Nat := 0xC0000000 + fn + d.toNat * 524288 + a.toNat * 16384 + b.toNat * 512

/-- Class and function code stand at the ends of an INT-A word. -/
theorem intAWord_code {fn : Nat} (hfn : fn < 512) (d a b : Reg) : intAWord fn d a b / 2 ^ 24 = 0xC0 ∧ intAWord fn d a b % 512 = fn := by
  unfold intAWord
  omega

theorem encodeWord_intA {i : Instr} {fn : Nat} {d a b : Reg} (hw : encodeWord i = intAWord fn d a b) (hfn : fn < 512 := by decide) :
    encodeWord i / 2 ^ 24 = 0xC0 ∧ encodeWord i % 512 = fn := by
  rw [hw]
  exact intAWord_code hfn d a b

/-- A field that an operand list leaves out is 0 (R107). -/
theorem encodeWord_intA_one {i : Instr} {fn : Nat} {d a : Reg} (hw : encodeWord i = 0xC0000000 + fn + d.toNat * 524288 + a.toNat * 16384)
    (hfn : fn < 512 := by decide) : encodeWord i / 2 ^ 24 = 0xC0 ∧ encodeWord i % 512 = fn :=
  encodeWord_intA (b := 0) (by rw [hw]; rfl) hfn

/-! ### Shifts, rotations and comparisons (R108) -/

theorem shiftAmount (y : Word) : bf y 5 0 = y.toNat % 64 := bf_zero y 5

theorem rotl_eq (x : Word) {n : Nat} (hn : n < 64) : rotl x n = if n = 0 then x else (x <<< n) ||| (x >>> (64 - n)) := by
  rw [rotl, Nat.mod_eq_of_lt hn, BitVec.rotateLeft_def, Nat.mod_eq_of_lt hn]
  split
  · next h0 => simp [h0, BitVec.ushiftRight_eq_zero]
  · rfl

theorem truth_decide (p : Prop) [Decidable p] : truth (decide p) = if p then 1 else 0 := by
  simp [truth]

/-! MIN and MAX, signed and unsigned, choose by the strict comparison; the table of R108 by its negation. -/

theorem ite_slt {α : Type} (x y : Word) (m n : α) : (if slt x y then m else n) = if y.toInt ≤ x.toInt then n else m := by
  simp only [slt, decide_eq_true_eq, ← Int.not_lt, ite_not]

theorem ite_ult {α : Type} (x y : Word) (m n : α) : (if x < y then m else n) = if y.toNat ≤ x.toNat then n else m := by
  simp only [BitVec.lt_def, ← Nat.not_lt, ite_not]

/-- A row of R108's table: what the instruction writes, and its function code. -/
theorem intA_row {i : Instr} {s : State} {d a b : Reg} {u v : Word} {fn : Nat} (hr : s.Ready (scalars [d, a, b]))
    (hw : encodeWord i = intAWord fn d a b) (hx : exec i s = s.scalarOp 4 [d, a, b] d u) (hv : u = v) (hfn : fn < 512 := by decide) :
    Writes i s 4 [d, a, b] d v ∧ encodeWord i % 512 = fn :=
  ⟨writes_of_scalarOp hr hx hv, (encodeWord_intA hw hfn).2⟩

/-- Settles O6: each row is its operation's equation at shift amounts modulo 64, with comparisons of signed or unsigned values. -/
theorem integerTableOfR108 : Obligations.IntegerTableOfR108 := by
  unfold Obligations.IntegerTableOfR108
  intro s d a b hr x y sh row
  have hsh : bf y 5 0 = sh := shiftAmount y
  have hrot : rotl x sh = if sh = 0 then x else (x <<< sh) ||| (x >>> (64 - sh)) := rotl_eq x (Nat.mod_lt _ (by decide))
  refine ⟨intA_row hr rfl rfl rfl, intA_row hr rfl rfl rfl, intA_row hr rfl rfl rfl, intA_row hr rfl rfl rfl, intA_row hr rfl rfl rfl,
    intA_row hr rfl rfl rfl, intA_row hr rfl rfl (congrArg (x <<< ·) hsh), intA_row hr rfl rfl (congrArg (x >>> ·) hsh),
    intA_row hr rfl rfl (congrArg x.sshiftRight hsh), intA_row hr rfl rfl ((congrArg (rotl x) hsh).trans hrot),
    intA_row hr rfl rfl (truth_decide _), intA_row hr rfl rfl (truth_decide _), intA_row hr rfl rfl (ite_slt y x y x),
    intA_row hr rfl rfl (ite_slt x y y x), intA_row hr rfl rfl (ite_ult y x y x), intA_row hr rfl rfl (ite_ult x y y x)⟩

/-! ### Products, 32-bit sums and saturation (R109, R111, R112) -/

/-- The low half of the exact signed product is the product modulo 2^64. -/
theorem mul_eq_lowHalf (x y : Word) : x * y = (BitVec.ofInt 128 (x.toInt * y.toInt)).setWidth 64 := by
  have hlow : ∀ p : Int, (BitVec.ofInt 128 p).setWidth 64 = BitVec.ofInt 64 p := fun p => BitVec.eq_of_toNat_eq (by
    simp only [BitVec.toNat_setWidth, BitVec.toNat_ofInt]
    omega)
  rw [hlow, BitVec.ofInt_mul, BitVec.ofInt_toInt, BitVec.ofInt_toInt]

theorem mulHigh_eq_highHalf (x y : Word) : mulHigh x y = (BitVec.ofInt 128 (x.toInt * y.toInt) >>> 64).setWidth 64 := by
  refine BitVec.eq_of_toNat_eq ?_
  simp only [mulHigh, BitVec.toNat_setWidth, BitVec.toNat_ushiftRight, BitVec.toNat_ofInt, Nat.shiftRight_eq_div_pow]
  omega

theorem mulHighU_eq_highHalf (x y : Word) : mulHighU x y = (BitVec.ofNat 128 (x.toNat * y.toNat) >>> 64).setWidth 64 := by
  refine BitVec.eq_of_toNat_eq ?_
  simp only [mulHighU, BitVec.toNat_setWidth, BitVec.toNat_ushiftRight, BitVec.toNat_ofNat, Nat.shiftRight_eq_div_pow]
  omega

/-- The bounds of a saturating sum are those of 64-bit signed integers. -/
theorem clamp64_eq (i : Int) : clamp64 i = if (0x7FFFFFFFFFFFFFFF : Int) < i then 0x7FFFFFFFFFFFFFFF#64
    else if i < -(2 : Int) ^ 63 then 0x8000000000000000#64 else BitVec.ofInt 64 i := rfl

/-- Settles O7: the halves of the exact products, the 32-bit sums and the saturating sums are the model's operations. -/
theorem productsWordsAndSaturation : Obligations.ProductsWordsAndSaturation := by
  unfold Obligations.ProductsWordsAndSaturation
  intro s d a b hr x y code sp up sat
  refine ⟨writes_of_scalarOp hr rfl (mul_eq_lowHalf x y), writes_of_scalarOp hr rfl (mulHigh_eq_highHalf x y),
    writes_of_scalarOp hr rfl (mulHighU_eq_highHalf x y), writes_of_scalarOp hr rfl rfl, writes_of_scalarOp hr rfl rfl,
    writes_of_scalarOp hr rfl (clamp64_eq _), writes_of_scalarOp hr rfl (clamp64_eq _), ?_⟩
  exact ⟨encodeWord_intA rfl, encodeWord_intA rfl, encodeWord_intA rfl, encodeWord_intA rfl, encodeWord_intA rfl, encodeWord_intA rfl,
    encodeWord_intA rfl⟩

/-! ### Quotients and remainders (R110) -/

theorem divSigned_zero (x : Word) : divSigned x 0 = ones := if_pos rfl
theorem remSigned_zero (x : Word) : remSigned x 0 = x := if_pos rfl
theorem divUnsigned_zero (x : Word) : divUnsigned x 0 = ones := if_pos rfl
theorem remUnsigned_zero (x : Word) : remUnsigned x 0 = x := if_pos rfl

theorem toNat_divUnsigned {x y : Word} (hy : y ≠ 0) : (divUnsigned x y).toNat = x.toNat / y.toNat := by
  rw [divUnsigned, if_neg hy, BitVec.toNat_udiv]

theorem toNat_remUnsigned {x y : Word} (hy : y ≠ 0) : (remUnsigned x y).toNat = x.toNat % y.toNat := by
  rw [remUnsigned, if_neg hy, BitVec.toNat_umod]

/-- The one signed quotient that 64 bits do not hold wraps, with remainder 0. -/
theorem signedDivision_overflow : divSigned 0x8000000000000000#64 0xFFFFFFFFFFFFFFFF#64 = 0x8000000000000000#64
    ∧ remSigned 0x8000000000000000#64 0xFFFFFFFFFFFFFFFF#64 = 0 := by decide

/-- Every other signed quotient fits, and is truncated. -/
theorem toInt_divSigned {x y : Word} (hy : y ≠ 0) (hover : ¬(x = 0x8000000000000000#64 ∧ y = 0xFFFFFFFFFFFFFFFF#64)) :
    (divSigned x y).toInt = x.toInt.tdiv y.toInt := by
  have hfits : (x.sdiv y).toInt = x.toInt.tdiv y.toInt := BitVec.toInt_sdiv_of_ne_or_ne x y (Decidable.not_and_iff_or_not.1 hover)
  rw [divSigned, if_neg hy, ← hfits, BitVec.ofInt_toInt]

theorem toInt_remSigned {x y : Word} (hy : y ≠ 0) : (remSigned x y).toInt = x.toInt.tmod y.toInt := by
  rw [remSigned, if_neg hy, ← BitVec.toInt_srem, BitVec.ofInt_toInt]

/-- The remainder is what the quotient leaves. -/
theorem toInt_remSigned_eq_sub {x y : Word} (hy : y ≠ 0) (hover : ¬(x = 0x8000000000000000#64 ∧ y = 0xFFFFFFFFFFFFFFFF#64)) :
    (remSigned x y).toInt = x.toInt - (divSigned x y).toInt * y.toInt := by
  rw [toInt_remSigned hy, toInt_divSigned hy hover, Int.tmod_def, Int.mul_comm]

/-! ### The iterative units (03_strands R77, R79; log 6) -/

section
variable {s : State} {c k due : Nat} {unit : IterUnit} {d : Dest} {v : Vec} {f : BitVec 6} {r : Retire} (hst : (s.slot c k).st = .blocked)
  (hheld : (s.slot c k).wait = .iter unit d v f due r)
include hst hheld

/-- From two cycles before its own on, a unit delivers: the destination, the flags, the retirement, and the next issue. -/
theorem State.iterDone_due (hdue : due ≤ (s.core c).cycle + 2) : s.iterDone c k unit =
    (((writeDest s c k d v).raiseAt c k f).retire c k r).modSlot c k (fun x => { x with readyAt := due + 1 }) := by
  simp only [State.iterDone, hst, hheld, hdue, and_self, if_true]

/-- Before that the step changes nothing. -/
theorem State.iterDone_early (hdue : (s.core c).cycle + 2 < due) : s.iterDone c k unit = s := by
  simp only [State.iterDone, hst, hheld, Nat.not_le.2 hdue, and_false, if_false]

end

/-- Settles O8: the divider takes the four results of R110, and each unit's step is the same delivery. -/
theorem divisionsAndIterativeUnits : Obligations.DivisionsAndIterativeUnits := by
  unfold Obligations.DivisionsAndIterativeUnits
  refine ⟨?_, ?_⟩
  · intro s d a b hr x y enters code
    refine ⟨⟨encodeWord_intA rfl, encodeWord_intA rfl, encodeWord_intA rfl, encodeWord_intA rfl⟩, divSigned x y, remSigned x y, divUnsigned x y,
      remUnsigned x y, runs_of_iterative hr rfl, runs_of_iterative hr rfl, runs_of_iterative hr rfl, runs_of_iterative hr rfl, fun hy => ?_,
      fun hy => ⟨toNat_divUnsigned hy, toNat_remUnsigned hy⟩, fun hx hy => ?_,
      fun hy hover => ⟨toInt_divSigned hy hover, toInt_remSigned_eq_sub hy hover⟩⟩
    · rw [hy]
      exact ⟨divSigned_zero x, remSigned_zero x, divUnsigned_zero x, remUnsigned_zero x⟩
    · rw [hx, hy]
      exact signedDivision_overflow
  · intro s c k due d v f r hst held t
    exact ⟨fun h hdue => congrArg _ (State.iterDone_due hst h hdue), fun h hdue => congrArg _ (State.iterDone_due hst h hdue),
      fun h hdue => congrArg _ (State.iterDone_due hst h hdue), fun h hdue => congrArg _ (State.iterDone_early hst h hdue),
      fun h hdue => congrArg _ (State.iterDone_early hst h hdue), fun h hdue => congrArg _ (State.iterDone_early hst h hdue)⟩

end Sys2Proof.Machine
end

/-! O9: counts, reversals and bit fields, bit by bit (04_integer R113, R114, R117-R119). -/

section
namespace Sys2Proof.Machine

/-! ### Counts of bits (R113) -/

theorem clzFrom_le (x : Word) : ∀ n, clzFrom x n ≤ n
  | 0 => Nat.le_refl 0
  | n + 1 => by
    have := clzFrom_le x n
    unfold clzFrom
    split <;> omega

/-- No bit above the highest 1 bit is set. -/
theorem bit_of_clzFrom_le (x : Word) {i : Nat} : ∀ n, n - clzFrom x n ≤ i → i < n → bit x i = false
  | n + 1, hle, hlt => by
    unfold clzFrom at hle
    split at hle
    · omega
    · next hbit =>
      by_cases hi : i = n
      · rw [hi]
        exact Bool.eq_false_iff.2 hbit
      · exact bit_of_clzFrom_le x n (by omega) (by omega)

/-- Below the zeros that are counted stands a 1 bit. -/
theorem bit_clzFrom (x : Word) : ∀ n, clzFrom x n < n → bit x (n - 1 - clzFrom x n) = true
  | n + 1, hlt => by
    unfold clzFrom at hlt ⊢
    split at hlt
    · next hbit => simp [hbit]
    · next hbit =>
      rw [if_neg hbit, show n + 1 - 1 - (1 + clzFrom x n) = n - 1 - clzFrom x n by omega]
      exact bit_clzFrom x n (by omega)

theorem ctzFrom_le (x : Word) : ∀ n i, ctzFrom x i n ≤ n
  | 0, _ => Nat.le_refl 0
  | n + 1, i => by
    have := ctzFrom_le x n (i + 1)
    unfold ctzFrom
    split <;> omega

/-- No bit below the lowest 1 bit is set. -/
theorem bit_of_lt_ctzFrom (x : Word) {j : Nat} : ∀ n i, i ≤ j → j < i + ctzFrom x i n → bit x j = false
  | 0, i, hle, hlt => absurd hlt (Nat.not_lt.2 hle)
  | n + 1, i, hle, hlt => by
    unfold ctzFrom at hlt
    split at hlt
    · omega
    · next hbit =>
      by_cases hj : j = i
      · rw [hj]
        exact Bool.eq_false_iff.2 hbit
      · exact bit_of_lt_ctzFrom x n (i + 1) (by omega) (by omega)

/-- Above the zeros that are counted stands a 1 bit. -/
theorem bit_ctzFrom (x : Word) : ∀ n i, ctzFrom x i n < n → bit x (i + ctzFrom x i n) = true
  | n + 1, i, hlt => by
    unfold ctzFrom at hlt ⊢
    split at hlt
    · next hbit => simp [hbit]
    · next hbit =>
      rw [if_neg hbit, ← Nat.add_assoc]
      exact bit_ctzFrom x n (i + 1) (by omega)

theorem popFrom_eq (x : Word) (n : Nat) : popFrom x n = ((List.range n).filter (fun i => x.getLsbD i)).length := by
  induction n with
  | zero => rfl
  | succ n ih =>
    rw [popFrom, ih, List.range_succ, List.filter_append, List.length_append, Nat.add_comm]
    cases h : x.getLsbD n <;> simp [bit, h]

theorem popFrom_le (x : Word) (n : Nat) : popFrom x n ≤ n := by
  rw [popFrom_eq]
  exact Nat.le_trans (List.length_filter_le ..) (Nat.le_of_eq List.length_range)

/-- A count of at most 64 is its word's value. -/
theorem toNat_count {n : Nat} (h : n ≤ 64) : (BitVec.ofNat 64 n).toNat = n := by
  rw [BitVec.toNat_ofNat]
  omega

/-- CLZ counts the zeros above the highest 1 bit, 64 of them in zero. -/
theorem clzFrom_spec (x : Word) :
    let v : Word := BitVec.ofNat 64 (clzFrom x 64)
    v.toNat ≤ 64 ∧ (∀ i, 64 - v.toNat ≤ i → x.getLsbD i = false) ∧ (v.toNat < 64 → x.getLsbD (63 - v.toNat) = true) := by
  simp only [toNat_count (clzFrom_le x 64)]
  refine ⟨clzFrom_le x 64, fun i hle => ?_, bit_clzFrom x 64⟩
  by_cases hi : i < 64
  · exact bit_of_clzFrom_le x 64 hle hi
  · exact BitVec.getLsbD_of_ge x i (Nat.le_of_not_lt hi)

/-- CTZ counts the zeros below the lowest 1 bit, 64 of them in zero. -/
theorem ctzFrom_spec (x : Word) :
    let v : Word := BitVec.ofNat 64 (ctzFrom x 0 64)
    v.toNat ≤ 64 ∧ (∀ i, i < v.toNat → x.getLsbD i = false) ∧ (v.toNat < 64 → x.getLsbD v.toNat = true) := by
  simp only [toNat_count (ctzFrom_le x 64 0)]
  have hone := bit_ctzFrom x 64 0
  rw [Nat.zero_add] at hone
  exact ⟨ctzFrom_le x 64 0, fun i hi => bit_of_lt_ctzFrom x 64 0 (Nat.zero_le i) (by omega), hone⟩

/-! ### Reversals (R113) -/

/-- The n lowest bits, reversed, are the n highest of the result. -/
theorem revFrom_bits (x : Word) : ∀ n, n ≤ 64 → ∃ t, revFrom x n = t * 2 ^ (64 - n) ∧ ∀ i, i < n → t.testBit i = bit x (n - 1 - i)
  | 0, _ => ⟨0, rfl, fun _ h => nomatch h⟩
  | n + 1, hn => by
    obtain ⟨t, ht, hbits⟩ := revFrom_bits x n (by omega)
    refine ⟨2 * t + (bit x n).toNat, ?_, fun i hi => ?_⟩
    · rw [revFrom, ht, show 64 - n = (63 - n) + 1 by omega, show 64 - (n + 1) = 63 - n by omega, Nat.pow_succ, Nat.add_mul, Nat.mul_comm 2 t, Nat.mul_assoc,
        Nat.mul_comm 2, Nat.add_comm]
    · cases i with
      | zero => cases h : bit x n <;> simp [h]
      | succ i =>
        have hhalf : (2 * t + (bit x n).toNat) / 2 = t := by
          have := (bit x n).toNat_le
          omega
        rw [Nat.testBit_succ, hhalf, hbits i (by omega), show n + 1 - 1 - (i + 1) = n - 1 - i by omega]

theorem getLsbD_bitReverse (x : Word) {i : Nat} (hi : i < 64) : (BitVec.ofNat 64 (revFrom x 64)).getLsbD i = x.getLsbD (63 - i) := by
  obtain ⟨t, ht, hbits⟩ := revFrom_bits x 64 (Nat.le_refl 64)
  rw [BitVec.getLsbD_ofNat, ht, Nat.sub_self, Nat.pow_zero, Nat.mul_one, hbits i hi]
  simp [hi, bit]

theorem bytesOf_length (n : Nat) : ∀ v, (bytesOf v n).length = n := by
  induction n with
  | zero => exact fun _ => rfl
  | succ n ih => exact fun v => congrArg Nat.succ (ih _)

/-- Byte k of a value's bytes. -/
theorem bytesOf_getElem (n : Nat) : ∀ (v k : Nat) (h : k < (bytesOf v n).length), (bytesOf v n)[k] = BitVec.ofNat 8 (v / 2 ^ (8 * k)) := by
  induction n with
  | zero => exact fun _ _ h => nomatch h
  | succ n ih =>
    intro v k h
    cases k with
    | zero => simp [bytesOf]
    | succ k =>
      rw [← show v / 256 / 2 ^ (8 * k) = v / 2 ^ (8 * (k + 1)) by rw [Nat.div_div_eq_div_mul, Nat.mul_succ, Nat.pow_add, Nat.mul_comm]]
      exact ih (v / 256) k _

/-- Bit i of byte k of a list's value. -/
theorem testBit_ofBytes : ∀ (l : List Byte) (k i : Nat) (h : k < l.length), i < 8 → (ofBytes l).testBit (8 * k + i) = l[k].getLsbD i
  | b :: l, 0, i, _, hi => by
    have := Nat.testBit_two_pow_mul_add (ofBytes l) b.isLt i
    simpa [ofBytes, Nat.add_comm, hi, BitVec.getLsbD] using this
  | b :: l, k + 1, i, h, hi => by
    have hbit := Nat.testBit_two_pow_mul_add (ofBytes l) b.isLt (8 * (k + 1) + i)
    rw [if_neg (by omega), show 8 * (k + 1) + i - 8 = 8 * k + i by omega, testBit_ofBytes l k i (Nat.lt_of_succ_lt_succ h) hi] at hbit
    rw [ofBytes, Nat.add_comm]
    exact hbit

theorem getLsbD_byteSwap (x : Word) {n i : Nat} (hn : n < 8) (hi : i < 8) :
    (byteSwap x).getLsbD (8 * n + i) = x.getLsbD (8 * (7 - n) + i) := by
  have hlen : (bytesOf x.toNat 8).length = 8 := bytesOf_length 8 _
  rw [byteSwap, BitVec.getLsbD_ofNat, testBit_ofBytes _ n i (by simp [hlen, hn]) hi, List.getElem_reverse, bytesOf_getElem]
  simp only [hlen, BitVec.getLsbD_ofNat, Nat.testBit_div_two_pow, Nat.add_comm i]
  simp [hi, show 8 * n + i < 64 by omega, BitVec.getLsbD]

/-! ### Bit fields (R117-R119) -/

theorem getLsbD_extractU (x : Word) (off w : Nat) {i : Nat} (hi : i < 64) :
    (extractU x off w).getLsbD i = (decide (i < fieldWidth off w) && x.getLsbD (off + i)) := by
  rw [extractU, BitVec.getLsbD_ofNat, Nat.testBit_mod_two_pow, Nat.testBit_div_two_pow, Nat.add_comm i, decide_eq_true hi, Bool.true_and]
  rfl

/-- The top bit of a field is set when its value is half its range or more. -/
theorem half_le_iff {y n : Nat} (hy : y < 2 ^ n) : (n ≠ 0 ∧ 2 ^ (n - 1) ≤ y) ↔ ¬ 2 * y < 2 ^ n := by
  cases n with
  | zero =>
    have hzero : y = 0 := Nat.lt_one_iff.1 hy
    simp only [hzero, ne_eq, not_true_eq_false, false_and, Nat.mul_zero, Nat.pow_zero, Nat.zero_lt_one]
  | succ n =>
    rw [Nat.add_sub_cancel]
    omega

/-- The sign extension of a low field is the library's. -/
theorem sextN_eq_signExtend (v n : Nat) : sextN v n = (BitVec.ofNat n v).signExtend 64 := by
  have hsign := half_le_iff (Nat.mod_lt v (Nat.two_pow_pos n))
  simp only [sextN, hsign, ite_not, BitVec.signExtend, BitVec.toInt_eq_toNat_cond, BitVec.toNat_ofNat]
  split
  · exact (BitVec.ofInt_natCast ..).symm
  · rw [Int.natCast_pow]
    rfl

theorem getLsbD_extractS (x : Word) (off w : Nat) {i : Nat} (hi : i < 64) :
    (extractS x off w).getLsbD i = (decide (fieldWidth off w ≠ 0) && x.getLsbD (off + min i (fieldWidth off w - 1))) := by
  have hbit : ∀ j, (x.toNat / 2 ^ off).testBit j = x.getLsbD (off + j) := fun j => by
    rw [Nat.testBit_div_two_pow, Nat.add_comm]
    rfl
  rw [extractS, sextN_eq_signExtend, BitVec.getLsbD_signExtend, BitVec.msb_eq_getLsbD_last]
  simp only [BitVec.getLsbD_ofNat, Nat.testBit_mod_two_pow, hbit, hi]
  by_cases h0 : fieldWidth off w = 0
  · simp [h0]
  by_cases hlt : i < fieldWidth off w
  · simp [h0, hlt, Nat.min_eq_left (show i ≤ fieldWidth off w - 1 by omega)]
  · have htop : fieldWidth off w - 1 < fieldWidth off w := by omega
    simp [h0, hlt, Nat.min_eq_right (show fieldWidth off w - 1 ≤ i by omega), htop]

/-- The mask of a field has the field's bits. -/
theorem getLsbD_fieldMask (n off : Nat) {i : Nat} (hi : i < 64) :
    (BitVec.ofNat 64 ((2 ^ n - 1) * 2 ^ off)).getLsbD i = decide (off ≤ i ∧ i < off + n) := by
  rw [BitVec.getLsbD_ofNat, Nat.testBit_mul_two_pow, Nat.testBit_two_pow_sub_one, decide_eq_true hi, Bool.true_and, ← Bool.decide_and]
  exact decide_eq_decide.2 (by omega)

theorem getLsbD_insertField (old x : Word) (off w : Nat) {i : Nat} (hi : i < 64) :
    (insertField old x off w).getLsbD i = if off ≤ i ∧ i < off + fieldWidth off w then x.getLsbD (i - off) else old.getLsbD i := by
  simp only [insertField, BitVec.getLsbD_or, BitVec.getLsbD_and, BitVec.getLsbD_not, BitVec.getLsbD_shiftLeft, getLsbD_fieldMask _ off hi, hi]
  split
  · next h => simp [h]
  · next h => simp [h]

theorem varOff_eq (y : Word) : varOff y = y.toNat % 256 := bf_zero y 7

theorem varWidth_eq (y : Word) : varWidth y = min (y.toNat / 256 % 256) 64 := rfl

/-- The word of BITF, in form X (R118). -/
theorem encodeWord_bitf {i : Instr} {d a : Reg} {o w : BitVec 6} (sub : Nat)
    (hw : encodeWord i = 0xC8000000 + sub * 64 + d.toNat * 524288 + a.toNat * 16384 + o.toNat * 256 + w.toNat) :
    encodeWord i = 0xC8 * 2 ^ 24 + d.toNat * 2 ^ 19 + a.toNat * 2 ^ 14 + o.toNat * 2 ^ 8 + sub * 2 ^ 6 + w.toNat := by
  omega

/-- Settles O9: the counts by recursion over the bits, the reversals and the fields bit by bit, with their words. -/
theorem oneOperandSelectionAndBitFields : Obligations.OneOperandSelectionAndBitFields := by
  unfold Obligations.OneOperandSelectionAndBitFields
  refine ⟨?_, ?_⟩
  · intro s d a b hr x y code
    have hda : s.Ready (scalars [d, a]) := hr.subset (by simp [scalars])
    have hpop : (BitVec.ofNat 64 (popFrom x 64)).toNat = ((List.range 64).filter (fun i => x.getLsbD i)).length :=
      (toNat_count (popFrom_le x 64)).trans (popFrom_eq x 64)
    refine ⟨⟨_, writes_of_scalarOp hda rfl rfl, clzFrom_spec x⟩, ⟨_, writes_of_scalarOp hda rfl rfl, ctzFrom_spec x⟩,
      ⟨_, writes_of_scalarOp hda rfl rfl, hpop⟩, ⟨_, writes_of_scalarOp hda rfl rfl, fun i hi => getLsbD_bitReverse x hi⟩,
      ⟨_, writes_of_scalarOp hda rfl rfl, fun n i hn hi => getLsbD_byteSwap x hn hi⟩, writes_of_scalarOp hda rfl rfl,
      writes_of_scalarOp hda rfl rfl, writes_of_scalarOp hda rfl rfl, writes_of_scalarOp hda rfl rfl, writes_of_scalarOp hr rfl rfl,
      writes_of_scalarOp hr rfl (ite_not ..).symm, ?_⟩
    exact ⟨encodeWord_intA_one rfl, encodeWord_intA_one rfl, encodeWord_intA_one rfl, encodeWord_intA_one rfl, encodeWord_intA_one rfl,
      encodeWord_intA_one rfl, encodeWord_intA_one rfl, encodeWord_intA_one rfl, encodeWord_intA_one rfl, encodeWord_intA rfl,
      encodeWord_intA rfl⟩
  · intro s d a b o w hr x old bitf code width isExtract isSigned isInsert vo vw
    have hda : s.Ready (scalars [d, a]) := hr.subset (by simp [scalars])
    have hoff : varOff (s.reg b) = vo := varOff_eq _
    have hwidth : varWidth (s.reg b) = vw := varWidth_eq _
    refine ⟨⟨_, writes_of_scalarOp hda rfl rfl, fun i hi => getLsbD_extractU x _ _ hi⟩,
      ⟨_, writes_of_scalarOp hda rfl rfl, fun i hi => getLsbD_extractS x _ _ hi⟩,
      ⟨_, writes_of_scalarOp hda rfl rfl, fun i hi => getLsbD_insertField old x _ _ hi⟩,
      ⟨_, writes_of_scalarOp hr rfl rfl, fun h => ?_, fun h i hi => ?_⟩, ⟨_, writes_of_scalarOp hr rfl rfl, fun h => ?_, fun h i hi => ?_⟩,
      encodeWord_bitf 0 rfl, encodeWord_bitf 1 rfl, encodeWord_bitf 2 rfl, encodeWord_intA rfl, encodeWord_intA rfl⟩
    · rw [hoff, if_pos h]
    · rw [hoff, hwidth, if_neg (by omega)]
      exact getLsbD_extractU x vo vw hi
    · rw [hoff, if_pos h]
    · rw [hoff, hwidth, if_neg (by omega)]
      exact getLsbD_insertField old x vo vw hi

end Sys2Proof.Machine
end

/-! O10: immediates and constants (04_integer R115, R116, R120-R122). -/

section
namespace Sys2Proof.Machine

/-- A constant shifted up by 16 and joined with a halfword is their sum: no bit is in both. -/
theorem shiftLeft_or_halfword (x : Word) (h : BitVec 16) : (x <<< 16) ||| h.setWidth 64 = x * 65536 + h.setWidth 64 := by
  have hdisjoint : x <<< 16 &&& h.setWidth 64 = 0#64 := BitVec.eq_of_getLsbD_eq fun i _ => by
    by_cases hi : i < 16
    · simp [hi]
    · simp [BitVec.getLsbD_of_ge h i (by omega)]
  rw [← BitVec.add_eq_or_of_and_eq_zero _ _ hdisjoint, BitVec.shiftLeft_eq_mul_twoPow]
  rfl

/-- The word of SHIFTI, in form I with the operation above the amount (R116). -/
theorem encodeWord_shifti {i : Instr} {d a : Reg} {n : BitVec 6} (op : Nat)
    (hw : encodeWord i = 0xC7000000 + op * 4096 + d.toNat * 524288 + a.toNat * 16384 + n.toNat) :
    encodeWord i = 0xC7 * 2 ^ 24 + d.toNat * 2 ^ 19 + (a.toNat * 2 ^ 14 + op * 2 ^ 12 + n.toNat) := by
  omega

/-- Settles O10: each immediate form is its register form at the extended immediate, and ADDPC moves the pc's offset alone. -/
theorem immediatesAndConstants : Obligations.ImmediatesAndConstants := by
  unfold Obligations.ImmediatesAndConstants
  intro s d a i n j h hr x imm word shift formI pc
  have hd : s.Ready (scalars [d]) := hr.subset (by simp [scalars])
  have hoffset : bf (addOffset pc (j.signExtend 64 * 2)) 60 0 = (bf pc 60 0 + ((j.signExtend 64) * 2 : Word).toNat) % 2 ^ 61 := by
    rw [bf_addOffset_offset, bf_zero (j.signExtend 64 * 2), Nat.add_mod_mod]
  refine ⟨writes_of_scalarOp hr rfl rfl, writes_of_scalarOp hr rfl rfl, writes_of_scalarOp hr rfl rfl, writes_of_scalarOp hr rfl rfl,
    writes_of_scalarOp hr rfl (truth_decide _), writes_of_scalarOp hr rfl (truth_decide _), writes_of_scalarOp hr rfl rfl,
    writes_of_scalarOp hr rfl rfl, writes_of_scalarOp hr rfl rfl, writes_of_scalarOp hr rfl (rotl_eq x n.isLt), writes_of_scalarOp hd rfl rfl,
    writes_of_scalarOp hd rfl (shiftLeft_or_halfword _ h), ⟨_, writes_of_scalarOp hd rfl rfl, bf_addOffset_segment _ _, hoffset⟩, ?_⟩
  exact ⟨Nat.add_assoc .., Nat.add_assoc .., Nat.add_assoc .., Nat.add_assoc .., Nat.add_assoc .., Nat.add_assoc .., rfl, rfl, rfl,
    encodeWord_shifti 0 rfl, encodeWord_shifti 1 rfl, encodeWord_shifti 2 rfl, encodeWord_shifti 3 rfl⟩

end Sys2Proof.Machine
end
